-- ==== Sys2Proof/Word.lean ====
section
/-! DEFINITION. The word types of the device: 64-bit values, 40-bit physical and 48-bit virtual addresses (R42, R253,
R271) are bit vectors where they are computed and natural numbers where they are keys. -/

namespace Sys2Proof

/-- A 64-bit value or register (R11, R39). -/
abbrev Word := BitVec 64

/-- One byte of memory. -/
abbrev Byte := BitVec 8

end Sys2Proof
end

