-- ==== Sys2Proof/Syntax.lean ====
section
/-! DEFINITION. The commands of the block: one constructor of Instr for each row of spec/opcode_table.json, and the data the
commands carry (tokens, firings, requests, measurements). A command names what happens in the device next: an operation
fires, a unit completes a step, a pin or a port changes, a register is written. Where the order or the moment is not the
block's to fix (R25, R53, R262), the sender chooses it by choosing the next command. -/

namespace Sys2Proof.Machine

/-- What an error-code check found (R41, R87, R258): nothing, a corrected error, an uncorrectable one. -/
inductive Ecc
  | ok | corrected | uncorrectable
  deriving DecidableEq, Repr

/-- An operand as the matching store holds it: VALUE and TYPE (R57). -/
structure Opnd where
  value : Word
  typ : BitVec 4
  deriving DecidableEq, Repr

/-- What a token meets at the input of its tuft: what the check of its CHECK finds (R41), what the fetch of the instruction finds (R87), and
whether the lookup meets an entry of its set, the k-th in the store's order, whose context field is uncorrectable (R59). -/
structure MatchIo where
  chk : Ecc := .ok
  fetch : Ecc := .ok
  ctxUe : Option (Fin 4) := none
  deriving DecidableEq, Repr

/-- Where the results of an operation go: the place and identity of the firing with its DEST0, DEST1 and TAGOP (R124).
once is true for an effect-once request of a paired block, whose result also answers the other copy (R127). -/
structure Ret where
  die : Fin 8
  tuft : Fin 8
  ctx : BitVec 8
  frame : BitVec 24
  ia : BitVec 20
  once : Bool
  side : Bool
  dest0 : BitVec 22
  dest1 : BitVec 22
  tagop : BitVec 3
  deriving DecidableEq, Repr

/-- The resolving operation that waits for a replayed operation or token: it gets its RPSTAT when that runs (R158, R359,
R360). value is what REPLAYV or REPLAYV2 supplies for DEST0 and DEST1 of an operation that is completed without execution. -/
structure Replay where
  handle : BitVec 32
  by_ : Ret
  value : Option (Opnd × Opnd) := none
  /-- The code with which the slot was parked (R361). -/
  code : Nat := 0
  deriving DecidableEq, Repr

/-- A token of R39 and R40. CHECK is recomputed wherever a token is stored (R41), so it is not held. pass marks the fault
token that a router delivers despite R52 (R357); released marks a token that a weir has let go, which goes to matching (R208); copied
marks a token of one copy of a paired block: its own firing made it, or the field die router has copied it (R53). -/
structure Token where
  value : Word
  ia : BitVec 20
  port : BitVec 2
  typ : BitVec 4
  wsel : BitVec 6
  ctx : BitVec 8
  frame : BitVec 24
  stamp : BitVec 32
  prio : BitVec 4
  side : Bool
  odie : Fin 8
  otuft : Fin 8
  pass : Bool
  replay : Option Replay
  released : Bool := false
  copied : Bool := false
  deriving DecidableEq, Repr

/-- A complete operand set with the instruction it fires: what a PE is given (R60, R91). -/
structure Firing where
  die : Fin 8
  tuft : Fin 8
  ctx : BitVec 8
  frame : BitVec 24
  ia : BitVec 20
  side : Bool
  prio : BitVec 4
  word : Word
  lit : Option Word
  conts : List Word
  left : Opnd
  right : Opnd
  third : Opnd
  /-- Which operands are present: bit 0 left (or the single operand), bit 1 right, bit 2 third (R352). -/
  pres : BitVec 3
  wsel : BitVec 6
  pass : Bool
  way : Bool
  replay : Option Replay
  /-- The SIDE and epoch in which an FP operation was counted when it first fired (R179, R183), once it was. -/
  epoch : Option (Bool × Nat)
  /-- The FPCTL bits with which a divide was dispatched (R189), while it is at its divider. -/
  ctl : Option Nat := none
  /-- The copy that fired has been lost in a takeover: the answer goes nowhere (R248). -/
  lost : Bool := false
  /-- The neighbouring die from which a request held by a runnel engine reached it (R330). -/
  via : List Nat := []
  deriving DecidableEq, Repr

/-- What a memory unit is asked to do (R130, R138, R161). -/
inductive MemOp
  | load | store | aadd | aand | aor | axor | axchg | acas | iload | istore | iclear | pload | pstore
  deriving DecidableEq, Repr

/-- A request that a tuft has issued to a memory unit (R124): the firing, the operation, the physical address, the access
width in bytes, and the two data operands (stored value or operand, and the third operand of ACAS). -/
structure MemReq where
  f : Firing
  op : MemOp
  pa : Nat
  bytes : Nat
  data : Word
  data2 : Word
  deriving DecidableEq, Repr

/-- What a runnel request meets at the engine: what the read or write of the word store finds (R311), and how far at most the count
of the other side, as the synchroniser shows it, stands behind (R322, R323): freed slots for a producer, committed packets for a
consumer; only a runnel with a unit endpoint has such a distance. -/
structure RnIo where
  ecc : Ecc
  lag : Nat
  deriving DecidableEq, Repr

/-- What a unit that takes a packet meets: what each word read from the word store is found to be (R311), and for each of the unit's TX
runnels how many packets its synchronised commit count is behind (R322, R323). -/
structure RnRd where
  ecc : List Ecc := []
  lag : List Nat := []
  deriving DecidableEq, Repr

/-- UART_MESSAGE_END: the UART, and what the write of its packet meets (R311). -/
structure MsgEnd where
  n : Fin 16
  ecc : Ecc := .ok
  deriving DecidableEq, Repr

/-- What the check of a token's CHECK finds at its first router, at the routers that it meets after it, and, where R53 copies it, at those that its
SIDE 1 copy meets (R41). -/
structure RouteIo where
  chk : Ecc := .ok
  via : List Ecc := []
  via1 : List Ecc := []
  deriving DecidableEq, Repr

/-- What a flume element meets at port B of a bank: the words of its write that lose to port A (R263), and whether the reads of the first and of
the second block that its source lies in, and its write, waited a cycle (R262). -/
structure ElemIo where
  lost : BitVec 8
  waits : (Bool × Bool) × Bool
  deriving DecidableEq, Repr

/-- An access from outside: the value that it writes, none for a read, and whether it waited for port A of its bank (R262). -/
structure ExtIo where
  write : Option Word
  waits : Bool
  deriving DecidableEq, Repr

/-- The configuration registers of a reference that R197 protects. -/
inductive RefReg
  | src | scale | win
  deriving DecidableEq, Repr

/-- An output with an enable bit (R400). -/
inductive OutSel
  | dac (n : Fin 64)
  | motor (m : Fin 16)
  | gpio (n : Fin 448)
  | res (i : Fin 16)
  | tape (p : Fin 2)
  deriving DecidableEq, Repr

/-- The path on which a register access arrives (R336, R414): PLOAD and PSTORE of contexts 0 and 255, the PCIe host window, the USB
service device, the I2C service target, debug access. -/
inductive Path
  | ctx0 | ctx255 | host | usb | i2c | debug
  deriving DecidableEq, Repr

/-- The SMBus packet error code of a service command (R430): none, correct, wrong. Only the I2C target looks at it. -/
inductive Pec
  | none | good | bad
  deriving DecidableEq, Repr

/-- What a service command that accesses memory carries beside its address: its packet error code, and whether the access waited for port A
of its bank (R262). -/
structure SvcIo where
  pec : Pec
  waits : Bool
  deriving DecidableEq, Repr

/-- Where an access from outside goes (R414, R426, R551, R552): an offset in BAR0, an offset in BAR2 (window in the top three bits), a physical
address on a service path, or a slot of an instruction memory on the debug port, by the slot locator of R161 and the kind to be written. -/
inductive ExtAddr
  | bar0 (off : BitVec 24)
  | bar2 (off : BitVec 30)
  | path (p : Path) (pa : BitVec 40)
  | imem (slot : BitVec 21) (kind : Fin 4)
  deriving DecidableEq, Repr

/-- What a port-B access meets in its cycle at the bank (R262, R263): nothing; port A in the same sub-bank, so that it waits a cycle; or, for
a write, different data written to the same word by port A. -/
inductive PortB
  | clear | waits | loses
  deriving DecidableEq, Repr

/-- A CAN frame on the bus (R412): identifier, IDE, RTR, FDF, BRS, ESI, DLC, data bytes. -/
structure CanFrame where
  id : BitVec 29
  ide : Bool
  rtr : Bool
  fdf : Bool
  brs : Bool
  esi : Bool
  dlc : BitVec 4
  data : List (BitVec 8)
  deriving DecidableEq, Repr

/-- What becomes of a CAN frame that a controller offers (R423). -/
inductive CanTx
  | sent | lost | error
  deriving DecidableEq, Repr

/-- What a CAN controller receives: a good frame, or an error that it detects in one (R423, ISO 11898-1). -/
inductive CanRx
  | frame (f : CanFrame) (own : Bool)
  | error
  deriving DecidableEq, Repr

/-- An MDIO frame is started by a write of the register, or completes with the data read (R434). -/
inductive MdioEv
  | start (v : Word)
  | done (data : BitVec 16)
  deriving DecidableEq, Repr

/-- Events of the PCIe link (R413). -/
inductive PcieEv
  | up (speed width : BitVec 3)
  | down
  | perst
  deriving DecidableEq, Repr

/-- An entry of a host ring (R427) and the contents of its buffer. -/
structure RingEnt where
  addr : Word
  len : BitVec 32
  words : BitVec 16
  dev : Bool
  err : Bool
  data : List Word
  deriving DecidableEq, Repr

/-- Events of the USB bus (R413, R438). -/
inductive UsbEv
  | vbus (on : Bool)
  | attach (hs : Bool)
  | address (a : BitVec 7)
  | configured
  | suspend
  | detach
  deriving DecidableEq, Repr

/-- How a storage command ends (R429): with the bytes read (READ), with an error of the device, or a change of the card state that
belongs to no command (R413). -/
inductive StorEv
  | ok (data : List (BitVec 8))
  | error
  | card
  deriving DecidableEq, Repr

/-- A software PMBus transaction is started by a write of PMB.CMD, or completes with a RESULT and data (R432, R438). -/
inductive PmbEv
  | start (v : Word)
  | done (result : BitVec 3) (data : BitVec 16)
  deriving DecidableEq, Repr

/-- A register of the unit state table (R370). -/
inductive UstReg
  | run (d : Fin 8) (k : Fin 256)
  | flume (d : Fin 8)
  | out (k : Fin 17)
  | sluice (k : Fin 16)
  | unit (k : Fin 4)
  deriving DecidableEq, Repr

/-- A failing read of a dredge (R302, R309): physical bank, strip, line, operation within the element, failing sub-banks, and the
difference in the first failing word. -/
structure DrFail where
  phys : BitVec 7
  strip : BitVec 28
  line : BitVec 6
  op : BitVec 3
  subs : BitVec 8
  bits : Word
  deriving DecidableEq, Repr

/-- What a dredge has done of an element that it breaks off (R301, R302): the lines done, and the failures that their reads have found. -/
structure DrPart where
  lines : Nat
  fs : List DrFail
  deriving DecidableEq, Repr

/-- The dredge of a die that yields (R300), and the failures in the lines that it has read of the element. -/
structure DrYield where
  die : Fin 6
  fs : List DrFail
  deriving DecidableEq, Repr

/-- A flit as it is sent (R324): virtual channel, 64 payload bytes, and the tokens that are packed into it. -/
structure Flit where
  vc : BitVec 2
  payload : List (BitVec 8)
  toks : List Token
  deriving DecidableEq, Repr

/-- How a culvert training ends (R327). -/
inductive Training
  | full | half | fail
  deriving DecidableEq, Repr

/-- The two halves of a safety cycle (R464): sampling and demands (RESET_N released, key switch A and B, VSAFE core and I/O in mV), and
the checks and outputs after the requests (readbacks of the STO and brake outputs that carry enable). reads is what the words of each request
packet of the cycle meet, lags how far behind the island sees the commits of its request and the free slots of its status runnel, and eccs
what the write of each status packet meets (R311, R322). -/
inductive SafeHalf
  | sample (resetN keyA keyB : Bool) (core io : BitVec 16) (reads : List (List Ecc))
  | act (sto : BitVec 32) (brk : BitVec 16) (lags : Nat × Nat) (eccs : List Ecc)
  deriving DecidableEq, Repr

/-- What a PINLOAD or DACLOAD measurement reads for one polarity (R446): the voltage in µV that each current would give, from the first one
on, each half of the one before. -/
structure PolMeas where
  vs : List (BitVec 32)
  deriving DecidableEq, Repr

/-- A WINDING pair (R451, R452): it starts; the step in progress ends, at a current in ADC codes; the PWM of the hold changes its ideal signal,
for a time in ns; the pair ends with what was measured in the last iteration (Δt in ns, Δi in µA, mean current of the rise in µA, mean voltage
in µV and current in µA of the hold); it is stopped by motion. -/
inductive WindEv
  | start
  | next (cur : BitVec 16)
  | pwm (on : Bool) (len : Nat)
  | done (dt di irise vmean imean : BitVec 32)
  | motion
  deriving DecidableEq, Repr

/-- What ENCODER reads (R453): differentials of A, B, Z and levels of the _DP legs in µV, whether A idles high, the five SSI words. -/
structure EncMeas where
  a : BitVec 32
  b : BitVec 32
  z : BitVec 32
  la : BitVec 32
  lb : BitVec 32
  lz : BitVec 32
  idle : Bool
  words : List (BitVec 25)
  deriving DecidableEq, Repr

/-- The stages of a power-on or pin reset (R528): it begins (VFIELD out of range, RESET_N low), it goes on (READ_VOUT confirms the rail that is
being enabled; after the last rail the links train; RESET_N is released), and it ends in BOOT. -/
inductive ResetEv
  | start | run | done
  deriving DecidableEq, Repr

/-- A wake source of STANDBY (R539): WAKE_N, the service port's address match, the junction temperature of a die in 1/8 °C. -/
inductive WakeSrc
  | wakeN | service | temperature (d : Fin 8) (tj : BitVec 12)
  deriving DecidableEq, Repr

/-- What FAULT_EVENT brings to the collector (R500, R503): an event that is on its way, by its place in order of arrival; or a line that
no other command raises: a die's PLL has unlocked, a memory controller has lost READY, a store entry's context field is uncorrectable. -/
inductive FaultIn
  | arrived (k : Fin 256)
  | pllLost (d : Fin 8)
  | notReady (d : Fin 8)
  | msUe (d t : Fin 8) (set : BitVec 12) (way : Fin 4)
  deriving DecidableEq, Repr

end Sys2Proof.Machine

namespace Sys2Proof

open Sys2Proof.Machine

/-- The commands of the block, one for each row of the table of operations and events. -/
inductive Instr
  /-- R96: Monadic move that sends its operand to DEST0 and DEST1. -/
  | mov (f : Firing)
  /-- R96: Behaves as MOV where the arms of a SWITCH rejoin; the trace reports it separately. -/
  | merge (f : Firing)
  /-- R97: Sends the operand to up to 16 destinations taken from DEST fields and CONT slots. -/
  | fan (f : Firing)
  /-- R96: Consumes its operand and produces no result. -/
  | sink (f : Firing)
  /-- R96: Steers the left operand to DEST0 or DEST1 by the truth of the right operand. -/
  | switch (f : Firing)
  /-- R96: Joins a value with a trigger and passes the value on. -/
  | gate (f : Firing)
  /-- R96: Chooses the left or right operand by the truth of the third operand. -/
  | select (f : Firing)
  /-- R96: Emits its literal when the trigger arrives. -/
  | const (f : Firing)
  /-- R96: Passes on the left VALUE with the TYPE given by the right operand. -/
  | retype (f : Firing)
  /-- R102: Moves the left operand into the frame named by the right operand. -/
  | retag (f : Firing)
  /-- R103: Allocates a loop record, or exits at once when N is 0 or less. -/
  | loopenter (f : Firing)
  /-- R104: Decides whether the loop continues, using credits and REMAIN, and may hold the firing. -/
  | loopnext (f : Firing)
  /-- R105: Returns a loop credit, which may complete a held LOOPNEXT or free the record. -/
  | loopdone (f : Firing)
  /-- R106: Sends the operand to the outer frame and counts an exit. -/
  | loopexit (f : Firing)
  /-- R108: Builds a LINK control value for a call. -/
  | link (f : Firing)
  /-- R109: Allocates a call record and sends the new frame to the caller and to its destinations. -/
  | frameget (f : Firing)
  /-- R110: Sends the operand to the caller frame and counts the return, freeing the record on the last one. -/
  | return_ (f : Firing)
  /-- R100: Emits the FRAMEVAL of the operand's frame. -/
  | frameof (f : Firing)
  /-- R117: Integer addition with IOV on overflow or carry. -/
  | add (f : Firing)
  /-- R117: Integer subtraction with IOV on overflow or borrow. -/
  | sub (f : Firing)
  /-- R117: Integer negation. -/
  | neg (f : Firing)
  /-- R117: Integer absolute value. -/
  | abs (f : Firing)
  /-- R117: Low W bits of the integer product. -/
  | mul (f : Firing)
  /-- R117: High W bits of the integer product. -/
  | mulh (f : Firing)
  /-- R164: Emits both halves of the full integer product. -/
  | mulx (f : Firing)
  /-- R117: Queues an integer quotient on the shared divider. -/
  | div (f : Firing) (pair : Fin 4)
  /-- R117: Queues an integer remainder on the shared divider. -/
  | rem (f : Firing) (pair : Fin 4)
  /-- R117: Queues an integer quotient and remainder on the shared divider. -/
  | divrem (f : Firing) (pair : Fin 4)
  /-- R167: The divider finishes a divide, emits the result and starts the next queued one. -/
  | dividerComplete (die tuft : Fin 8) (pair : Fin 4)
  /-- R117: Integer minimum. -/
  | min (f : Firing)
  /-- R117: Integer maximum. -/
  | max (f : Firing)
  /-- R114: Extends a W-bit operand to 64 bits. -/
  | ext (f : Firing)
  /-- R117: Bitwise and. -/
  | and (f : Firing)
  /-- R117: Bitwise or. -/
  | or (f : Firing)
  /-- R117: Bitwise exclusive or. -/
  | xor (f : Firing)
  /-- R117: Bitwise and-not. -/
  | andn (f : Firing)
  /-- R117: Bitwise not. -/
  | not (f : Firing)
  /-- R119: Shift left. -/
  | shl (f : Firing)
  /-- R119: Logical shift right. -/
  | shr (f : Firing)
  /-- R119: Arithmetic shift right. -/
  | sar (f : Firing)
  /-- R119: Rotate left. -/
  | rol (f : Firing)
  /-- R119: Rotate right. -/
  | ror (f : Firing)
  /-- R117: Integer equality comparison. -/
  | cmpeq (f : Firing)
  /-- R117: Integer inequality comparison. -/
  | cmpne (f : Firing)
  /-- R117: Integer less-than comparison. -/
  | cmplt (f : Firing)
  /-- R117: Integer less-or-equal comparison. -/
  | cmple (f : Firing)
  /-- R117: Integer greater-than comparison. -/
  | cmpgt (f : Firing)
  /-- R117: Integer greater-or-equal comparison. -/
  | cmpge (f : Firing)
  /-- R117: Counts leading zeros. -/
  | clz (f : Firing)
  /-- R117: Counts trailing zeros. -/
  | ctz (f : Firing)
  /-- R117: Counts ones. -/
  | popc (f : Firing)
  /-- R117: Reverses byte order within W. -/
  | bswap (f : Firing)
  /-- R117: Reverses bit order within W. -/
  | brev (f : Firing)
  /-- R120: Extracts a bit field. -/
  | bext (f : Firing)
  /-- R120: Inserts a bit field. -/
  | bins (f : Firing)
  /-- R171: Floating-point addition. -/
  | fadd (f : Firing)
  /-- R171: Floating-point subtraction. -/
  | fsub (f : Firing)
  /-- R171: Floating-point multiplication. -/
  | fmul (f : Firing)
  /-- R168: Queues a floating-point division on the divider. -/
  | fdiv (f : Firing) (pair : Fin 4)
  /-- R168: Queues a floating-point square root on the divider. -/
  | fsqrt (f : Firing) (pair : Fin 4)
  /-- R171: Fused multiply-add with one rounding. -/
  | fma (f : Firing)
  /-- R171: Fused multiply-subtract with one rounding. -/
  | fms (f : Firing)
  /-- R171: Negated fused multiply-add with one rounding. -/
  | fnma (f : Firing)
  /-- R173: minimumNumber. -/
  | fmin (f : Firing)
  /-- R173: maximumNumber. -/
  | fmax (f : Firing)
  /-- R173: IEEE minimum. -/
  | fminm (f : Firing)
  /-- R173: IEEE maximum. -/
  | fmaxm (f : Firing)
  /-- R174: Inverts the sign bit. -/
  | fneg (f : Firing)
  /-- R174: Clears the sign bit. -/
  | fabs (f : Firing)
  /-- R174: Takes the magnitude of a with the sign of b. -/
  | fcpys (f : Firing)
  /-- R174: Quiet floating-point equality comparison. -/
  | fcmpeq (f : Firing)
  /-- R174: Signalling less-than comparison. -/
  | fcmplt (f : Firing)
  /-- R174: Signalling less-or-equal comparison. -/
  | fcmple (f : Firing)
  /-- R174: Quiet unordered comparison. -/
  | fcmpun (f : Firing)
  /-- R172: Converts two binary64 values into binary32 lanes. -/
  | fcvtds (f : Firing)
  /-- R172: Converts binary32 lanes into two binary64 values. -/
  | fcvtsd (f : Firing)
  /-- R172: Converts an integer to floating point. -/
  | fcvtid (f : Firing)
  /-- R172: Converts floating point to an integer. -/
  | fcvtdi (f : Firing)
  /-- R172: Rounds to an integral value in the same format. -/
  | frint (f : Firing)
  /-- R174: Returns a class mask per lane. -/
  | fclass (f : Firing)
  /-- R180: Records flags for an unresolved FP_SUBNORMAL handle. -/
  | fsetf (f : Firing)
  /-- R184: Closes the current FP epoch and sends a close request to the epoch unit. -/
  | fbar (f : Firing)
  /-- R184: A tuft drains an epoch's work and reports its flags and count to the epoch unit. -/
  | epochReport (die tuft : Fin 8) (ctx : BitVec 8) (side : Bool)
  /-- R184: Once every report has arrived and every trap is resolved, the epoch unit emits the FBAR result. -/
  | fbarResult (ctx : BitVec 8) (side : Bool)
  /-- R131: Translates an address and issues a read request. -/
  | load (f : Firing)
  /-- R132: Translates an address and issues a write request. -/
  | store (f : Firing)
  /-- R134: Atomic add at the bank or controller. -/
  | aadd (f : Firing)
  /-- R134: Atomic and. -/
  | aand (f : Firing)
  /-- R134: Atomic or. -/
  | aor (f : Firing)
  /-- R134: Atomic exclusive or. -/
  | axor (f : Firing)
  /-- R134: Atomic exchange. -/
  | axchg (f : Firing)
  /-- R134: Atomic compare and swap. -/
  | acas (f : Firing)
  /-- R124: A memory unit answers an issued request, and its result tokens are formed from the issuing instruction. -/
  | memoryResponse (r : MemReq) (port : PortB)
  /-- R272: A TLB miss walks the page tables and completes the translation or raises a translation fault. -/
  | tableWalk (f : Firing)
  /-- R138: Reads an I-structure word, or defers the read while the word is EMPTY. -/
  | iload (f : Firing)
  /-- R139: Writes an I-structure word and delivers the deferred reads in order. -/
  | istore (f : Firing)
  /-- R138: Returns an I-structure word to EMPTY. -/
  | iclear (f : Firing)
  /-- R141: Commits a one-word packet, or holds until room appears, or returns FULL with NOWAIT. -/
  | send (f : Firing) (io : RnIo)
  /-- R141: Returns one word, or holds until a packet is visible, or returns EMPTY with NOWAIT. -/
  | recv (f : Firing) (io : RnIo)
  /-- R142: Opens a packet, gives it a serial and reserves a slot. -/
  | pktbegin (f : Firing) (io : RnIo)
  /-- R142: Appends one word to the open packet when the handle matches. -/
  | pktword (f : Firing) (io : RnIo)
  /-- R143: Closes the open packet and makes it visible as a whole. -/
  | pktcommit (f : Firing) (io : RnIo)
  /-- R143: Closes the open packet and discards it. -/
  | pktabort (f : Firing)
  /-- R145: Discards committed packets and dooms open packets. -/
  | flush (f : Firing)
  /-- R145: Drops the rest of a partly received packet, or returns a push credit. -/
  | droprest (f : Firing)
  /-- R141: A held SEND, RECV, PKTBEGIN or PKTWORD is served once room or a packet appears. -/
  | heldRunnelRequest (f : Firing) (io : RnIo)
  /-- R317: The engine delivers a visible word as a token to the consumer context. -/
  | pushDelivery (die : Fin 8) (idx : Fin 16384) (io : RnIo)
  /-- R148: Sets WSEL and STAMP so that the result waits in a weir. -/
  | wstamp (f : Firing)
  /-- R149: Passes the operand on and reports its WSEL. -/
  | winfo (f : Firing)
  /-- R149: Returns the tuft's copy of a reference position and its direction. -/
  | refget (f : Firing)
  /-- R150: Submits a stamped output write to the output scheduler. -/
  | outst (f : Firing)
  /-- R150: Submits an immediate output write to the output scheduler. -/
  | outnow (f : Firing)
  /-- R152: Claims a sluice, or waits for it, or is refused. -/
  | slacq (f : Firing)
  /-- R153: Releases a sluice held by the identity, and the next waiter is granted. -/
  | slrel (f : Firing)
  /-- R154: Reads a descriptor and starts a flume. -/
  | flissue (f : Firing)
  /-- R155: Continues or cancels a parked flume. -/
  | resume (f : Firing)
  /-- R282: A flume completes a 64-byte element, or parks at a faulting one. -/
  | flumeElement (die : Fin 8) (idx : Fin 32) (io : ElemIo)
  /-- R284: A chained descriptor is read and checked, or the chain ends with FLUMEDONE. -/
  | flumeDescriptorRead (die : Fin 8) (idx : Fin 32)
  /-- R158: Executes a parked operation again, or re-offers a parked token. -/
  | replay (f : Firing) (ecc : Ecc)
  /-- R158: Completes a parked operation with a supplied value. -/
  | replayv (f : Firing) (ecc : Ecc)
  /-- R158: Completes a parked operation with two supplied values. -/
  | replayv2 (f : Firing) (ecc : Ecc)
  /-- R359: Discards parked work. -/
  | parkdrop (f : Firing)
  /-- R159: Sends a software fault token to the context's own handler. -/
  | raise (f : Firing)
  /-- R159: Raises a doorbell event source. -/
  | signal (f : Firing)
  /-- R161: Privileged physical read. -/
  | pload (f : Firing)
  /-- R161: Privileged physical write. -/
  | pstore (f : Firing)
  /-- R162: Replaces an instruction slot's content and kind in one write. -/
  | imwrite (f : Firing)
  /-- R161: Reads an instruction slot's content and kind. -/
  | imread (f : Firing)
  /-- R163: Removes TLB entries of a context in every die. -/
  | tlbinv (f : Firing)
  /-- R52: A router delivers, duplicates, parks or discards an arriving token under its placement entry. -/
  | tokenRoute (t : Token) (io : RouteIo)
  /-- R61: A token arriving at its tuft completes an operand set or is inserted into the matching store. -/
  | tokenMatch (die tuft : Fin 8) (t : Token) (io : MatchIo)
  /-- R66: An entry from the spill buffer is written into its soakaway bucket. -/
  | spillWrite (die tuft : Fin 8) (n : Fin 32)
  /-- R67: Bucket data returns for a probe, which then matches or inserts the token. -/
  | soakawayProbe (die tuft : Fin 8) (n : Fin 32) (ecc : Ecc)
  /-- R55: A source event is counted and forms or merges an event token. -/
  | eventCapture (src : Fin 1024) (word : BitVec 32) (time : Nat) (busy : Bool)
  /-- R56: A held event token is delivered once throttling ends or the path frees. -/
  | eventTokenRelease (src : Fin 1024)
  /-- R26: Every 4 ns the field die sends a reference frame to every tuft. -/
  | refbusFrameSend
  /-- R27: A tuft checks and applies a frame, applies changeover counts and evaluates its weirs. -/
  | refbusFrameReceive (die tuft : Fin 8) (crc : Bool)
  /-- R210: A held token times out and is released with WSEL 62 or parked. -/
  | weirTimeout (die tuft : Fin 8) (t : Token)
  /-- R198: Every 1 ns the field die interpolates each reference position and raises its crossing events. -/
  | referenceStep
  /-- R202: An edge source with no edge for 4 × P becomes standing. -/
  | referenceStandstill (r : Fin 49)
  /-- R197: Writes to a reference configuration, enabling or disabling it. -/
  | refSrcWrite (r : Fin 49) (reg : RefReg) (v : Word)
  /-- R197: Sets the position of a disabled reference. -/
  | refPresetWrite (r : Fin 49) (v : Word)
  /-- R200: Sets a virtual reference's velocity, possibly declaring a reversal. -/
  | refVelWrite (r : Fin 49) (v : Word)
  /-- R199: Commits a software sample to a SAMPLE reference. -/
  | refSampletWrite (r : Fin 49) (time : Word)
  /-- R218: Every 1 ns the scheduler applies the pending entries whose condition holds. -/
  | outputSchedulerStep
  /-- R216: Changes a channel's owner and cancels the previous owner's entries. -/
  | outschedOwnWrite (c : Fin 1088) (v : Word)
  /-- R220: Cancels every pending entry of a channel. -/
  | outschedCancel (c : Fin 1088)
  /-- R223: Starts staging a changeover slot. -/
  | chgArm (k : Fin 4)
  /-- R223: Staging ends, either ARMED with the shadows in place or ABORTED at the first invalid entry. -/
  | chgStagingDone (k : Fin 4)
  /-- R225: Aborts an armed or staging slot. -/
  | chgAbort (k : Fin 4)
  /-- R226: At the trigger crossing, the slot's swaps take effect in the field die. -/
  | chgCommit (k : Fin 4)
  /-- R225: An armed slot aborts when its TMO expires. -/
  | chgTimeout (k : Fin 4)
  /-- R50: Checks and accepts or refuses a placement entry, and starts copying it to the routers. -/
  | placementWrite (n : Fin 65536) (v : Word)
  /-- R51: Every router copy is updated and BUSY clears. -/
  | placementCopyDone
  /-- R235: A write to STATE.RUN changes the context state where the transition is allowed. -/
  | contextRunWrite (c : BitVec 8) (v : BitVec 2)
  /-- R73: A W1C of SOAK_FULL ends throttling unless PARK.LOW holds. -/
  | soakFullClear (c : BitVec 8)
  /-- R64: Configures the soakaway, refused when the region is invalid or occupancy is non-zero. -/
  | soakWrite (c : BitVec 8) (v : Word)
  /-- R351: Configures the parking area, and its LOW bit ends throttling. -/
  | parkWrite (c : BitVec 8) (v : Word)
  /-- R189: Writes FPCTL and copies it to the tufts within 1 µs. -/
  | fpctlWrite (c : BitVec 8) (v : Word)
  /-- R243: Every 1 µs the detector updates each context's quiet count. -/
  | deadlockTick
  /-- R238: The HWIN window after a handle-0 fault ends the handler boost. -/
  | handlerBoostExpiry (c : BitVec 8)
  /-- R247: A comparator entry's window closes without the second copy. -/
  | pairWindowExpiry (ctx : BitVec 8) (frame : BitVec 24) (ia : BitVec 20)
  /-- R261: Starts a bank ownership handover. -/
  | bankOwnWrite (d : Fin 8) (b : Fin 64) (v : Word)
  /-- R261: The drain of accepted accesses ends, DONE sets and held accesses are released. -/
  | bankHandoverDone (d : Fin 8) (b : Fin 64)
  /-- R264: Requests a bank power state. -/
  | bankPwrWrite (d : Fin 8) (b : Fin 64) (v : Word)
  /-- R264: A bank completes its entry, wake or power-up. -/
  | bankPowerChangeDone (d : Fin 8) (b : Fin 64)
  /-- R291: Ends a running or parked flume as a cancel does. -/
  | flumeKill (die : Fin 8) (idx : Fin 32)
  /-- R82: Arms an error injection into the next inserted matching-store entry. -/
  | msctlInject (d t : Fin 8) (v : Word)
  /-- R292: Arms an error injection into the next DRAM word written. -/
  | memctlInject (d : Fin 8) (v : Word)
  /-- R269: The patrol scrub reads and corrects the next DRAM word. -/
  | patrolScrubRead (d : Fin 8)
  /-- R297: Starts a dredge run after checking the range and mode. -/
  | dredgeStart (d : Fin 6)
  /-- R306: Ends a dredge run after the current strip or line operation. -/
  | dredgeStop (d : Fin 6) (part : DrPart) (stop : Bool)
  /-- R297: Completes one copy-aside, march element or restore on a strip. -/
  | dredgeElement (d : Fin 6) (fs : List DrFail)
  /-- R297: The GAP wait between strips ends. -/
  | dredgeGapExpiry (d : Fin 6)
  /-- R294: A RETAIN pause ends. -/
  | dredgePauseExpiry (d : Fin 6)
  /-- R300: An access to an URGENT strip makes the dredge abandon the element. -/
  | dredgeYield (x : DrYield)
  /-- R303: A failing bank is copied to a spare and switched over. -/
  | dredgeRepair (d : Fin 6)
  /-- R326: A flit is checked, delivered or replay-requested, and acknowledged. -/
  | culvertFlitReceive (d p : Fin 8) (f : Option Flit) (werr : BitVec 32) (perr : List (BitVec 8)) (ack : Bool)
  /-- R328: REPLIM failed replays, clock loss or training failure declares the link down. -/
  | linkDown (d p : Fin 8) (clock : Bool)
  /-- R329: Unacknowledged flits are resent over the alternative path. -/
  | resyncComplete (d p : Fin 8)
  /-- R327: A culvert training ends at full or half width, or fails. -/
  | linkTrainingDone (d p : Fin 8) (res : Training)
  /-- R332: No contact with the partner within 10 µs discards the replay buffer and counts the die as lost. -/
  | partnerUnreachable (d p : Fin 8)
  /-- R331: Starts a culvert training. -/
  | culvRetrain (d p : Fin 8) (v : Word)
  /-- R337: A register master claims a sluice. -/
  | sluiceClaimWrite (p : Path) (n : Fin 1024) (v : Word)
  /-- R342: A register master releases a sluice, or forces it free. -/
  | sluiceReleaseWrite (p : Path) (n : Fin 1024) (v : Word)
  /-- R340: A waiter not granted within T µs returns TIMEOUT. -/
  | sluiceWaitTimeout (n : Fin 2048)
  /-- R365: Checks enable changes and sends accepted ones to the units. -/
  | ustWrite (r : UstReg) (v : Word)
  /-- R365: Every unit concerned has applied the changes and BUSY clears. -/
  | ustApplyDone
  /-- R367: The scrub compares unit enables with the UST and forces mismatches. -/
  | ustScrub
  /-- R372: Writes an axis port configuration, with fields protected while a reference uses the port. -/
  | axisCfgWrite (n : Fin 64) (v : Word)
  /-- R374: Sets CNT. -/
  | axisPresetWrite (n : Fin 64) (v : Word)
  /-- R373: An accepted receiver edge is timestamped and counted, or is a quadrature error. -/
  | axisEdge (n : Fin 64) (a b z : Bool) (ts : Nat)
  /-- R376: An accepted index captures CNT and may zero it. -/
  | axisIndex (n : Fin 64) (ts : Nat)
  /-- R377: A differential input below 100 mV for 500 ns is a loss of signal. -/
  | axisLossOfSignal (n : Fin 64) (rx : Fin 3)
  /-- R378: Every 500 ns the ADC pair samples and updates the fine angle and amplitude check. -/
  | sincosSample (n : Fin 32) (sine cosine : BitVec 16) (fast : Bool)
  /-- R379: A trigger starts an SSI frame, or is skipped. -/
  | ssiTrigger (n : Fin 64)
  /-- R379: An SSI frame completes and its word is accepted or discarded. -/
  | ssiFrameComplete (n : Fin 64) (startLow : Bool) (word : BitVec 32) (extra : BitVec 3)
  /-- R381: Once per excitation period a demodulated angle is produced. -/
  | resolverAngle (n : Fin 16) (angle ampl : BitVec 16)
  /-- R382: A group of samples updates IN[j].VAL. -/
  | analogSampleGroup (j : Fin 16) (xs : List (BitVec 16)) (clip : Bool)
  /-- R382: A rising zero crossing advances a MAINS reference and the period. -/
  | mainsCrossing (j : Fin 16) (time : Nat)
  /-- R384: A held DAC write starts 1 µs after the previous conversion. -/
  | dacDeferredStart (n : Fin 64)
  /-- R385: At a carrier zero or top, shadows load and the PWM event is raised. -/
  | motorCarrierPoint (k : Fin 16) (top : Bool)
  /-- R388: The current ADCs sample, check overcurrent and complete a group into the runnel. -/
  | motorAdcSample (k : Fin 16) (iu iv iw : BitVec 16) (io : RnIo)
  /-- R391: A filtered input edge raises its event source. -/
  | gpioEdge (n : Fin 448) (level : Bool)
  /-- R392: A direct write to GPIO.OUT, ignored for owned bits. -/
  | gpioOutWrite (k : Fin 7) (v : Word)
  /-- R400: An output-enable sequence write is accepted or refused by mode and gate. -/
  | outputEnableWrite (o : OutSel) (v : Bool)
  /-- R393: A timer expires, pulses its pin and raises its event. -/
  | timerExpiry (t : Fin 64)
  /-- R394: A STEP-mode timer emits one step pulse. -/
  | timerStepPulse (t : Fin 64)
  /-- R395: In READ mode a character is captured after the sprocket edge and written to the runnel. -/
  | tapeCharacterCapture (p : Fin 2) (holes : BitVec 8) (rdy : Bool) (io : RnIo)
  /-- R395: In EMULATE mode a character is presented with its sprocket pulse. -/
  | tapeCharacterSend (p : Fin 2) (run : Bool) (io : RnIo)
  /-- R397: Loads the default DEC and ENC tables for CODE. -/
  | tapeLoadtab (p : Fin 2)
  /-- R416: A received frame is filtered, timestamped and committed, or dropped. -/
  | ethFrameReceive (p : Fin 7) (bs : List (BitVec 8)) (fcs : Bool) (time : Nat) (io : RnIo)
  /-- R418: The eligible head frame of the highest class is sent. -/
  | ethFrameTransmit (p : Fin 7) (late : Bool) (rd : RnRd)
  /-- R419: The gate control list advances to its next entry and issues a hold or release. -/
  | ethGclEntry (p : Fin 7)
  /-- R419: A write of CHG latches the admin list. -/
  | ethGclChange (p : Fin 7)
  /-- R419: The latched list is adopted at the first cycle start at or after CHGTIME. -/
  | ethGclAdopt (p : Fin 7)
  /-- R420: The preemption verify procedure completes. -/
  | ethVerifyDone (p : Fin 7) (ok : Bool)
  /-- R413: An Ethernet link goes up or down. -/
  | ethLinkChange (p : Fin 7) (up : Bool) (speed : BitVec 2)
  /-- R434: A read of TXTSTIME returns the head timestamp and removes it. -/
  | txtsRead (p : Fin 7)
  /-- R434: A write of OP starts an MDIO frame, which completes with BUSY cleared. -/
  | mdioFrame (ev : MdioEv)
  /-- R421: Advances wall time by a positive step. -/
  | timeStepWrite (p : Path) (v : Word)
  /-- R413: Reference 1 passing a whole second raises event 545. -/
  | wholeSecond
  /-- R423: A received CAN frame is filtered and committed. -/
  | canFrameReceive (c : Fin 4) (rx : CanRx) (sof : Nat) (io : RnIo)
  /-- R423: The eligible frame with the lowest ID is offered, retried or dropped. -/
  | canFrameTransmit (c : Fin 4) (res : CanTx) (late : Bool) (rd : RnRd)
  /-- R423: After 128 × 11 recessive bits a bus-off controller rejoins. -/
  | canBusOffRecovery (c : Fin 4)
  /-- R425: A received message ends at idle, delimiter or MAXLEN and is committed. -/
  | uartMessageEnd (e : MsgEnd)
  /-- R425: A packet's characters are sent from LAUNCH. -/
  | uartTransmit (n : Fin 16) (waits : List Nat) (late : Bool) (rd : RnRd)
  /-- R414: A BAR2 or service-path access to a physical address ends with a status. -/
  | hostWindowAccess (x : ExtAddr) (w : Fin 4) (io : ExtIo)
  /-- R426: A host DOORBELL write raises its event. -/
  | pcieDoorbell (v : Word)
  /-- R413: A PCIe link goes up or down, or PERST_N is asserted. -/
  | pcieLinkEvent (ev : PcieEv)
  /-- R427: A host-to-device ring entry is delivered as a packet. -/
  | htdEntry (c : Fin 8) (e : RingEnt) (io : RnIo)
  /-- R427: A committed packet fills a device-to-host ring entry. -/
  | dthEntry (c : Fin 8) (e : RingEnt) (rd : RnRd)
  /-- R427: Sends an MSI-X vector. -/
  | msixWrite (p : Path) (v : Word)
  /-- R428: A bulk OUT transfer becomes a runnel packet. -/
  | usbOutTransfer (k : Fin 2) (bs : List (BitVec 8)) (io : RnIo)
  /-- R428: A committed packet is sent as an IN transfer. -/
  | usbInTransfer (k : Fin 2) (rd : RnRd)
  /-- R413: USB attach, configuration, suspend or detach. -/
  | usbBusEvent (ev : UsbEv)
  /-- R429: An eMMC or xSPI command packet is executed. -/
  | storageCommand (u : Fin 2) (rd : RnRd)
  /-- R429: A storage transfer completes and its completion word is produced. -/
  | storageCompletion (u : Fin 2) (ev : StorEv) (io : RnIo)
  /-- R430: Service command that reads 8 bytes at a physical address. -/
  | svcRead (p : Path) (pa : BitVec 40) (io : SvcIo)
  /-- R430: Service command that writes 8 bytes at a physical address. -/
  | svcWrite (p : Path) (pa : BitVec 40) (v : Word) (io : SvcIo)
  /-- R430: Service command that returns MODE.IDENT and the current mode. -/
  | svcMode (p : Path) (pec : Pec)
  /-- R431: In STANDBY, an address match wakes the device. -/
  | svcAddressWake
  /-- R432: A software PMBus transaction is started through PMB.CMD and completes. -/
  | pmbusCommand (ev : PmbEv)
  /-- R432: ALERT_N asserted: the alert address is read and event 959 raised. -/
  | pmbusAlert (addr : BitVec 7)
  /-- R443: Checks the plan and starts a survey run. -/
  | surveyStart (v : Word)
  /-- R444: Ends the run and removes any stimulus. -/
  | surveyStop (v : Word)
  /-- R460: Empties the survey record. -/
  | surveyClear (v : Word)
  /-- R457: Measures a supply rail and writes its entry. -/
  | surveySupply (mean ripple : BitVec 32)
  /-- R446: Measures a pin or pair by forced current and classifies it. -/
  | surveyPinload (v0 : BitVec 32) (pos neg : PolMeas) (levels : BitVec 3)
  /-- R449: Measures cable length and termination by reflection. -/
  | surveyTdr (driven : Bool) (t : BitVec 32) (rho z0 : BitVec 16) (levels : BitVec 3)
  /-- R448: Measures DAC load resistance and capacitance. -/
  | surveyDacload (v0 : BitVec 32) (pos neg : PolMeas) (dt : BitVec 32)
  /-- R451: Measures the R and L of one motor phase pair. -/
  | surveyWinding (ev : WindEv)
  /-- R453: Classifies the encoder on an axis port. -/
  | surveyEncoder (x : EncMeas) (levels : BitVec 3)
  /-- R454: Measures resolver ratio and phase. -/
  | surveyResolver (sine cosine exc : BitVec 32) (phase angle : BitVec 16)
  /-- R455: Measures mains frequency and voltage over a window. -/
  | surveyMains (freq rms : BitVec 32)
  /-- R456: Listens for a network partner over a window. -/
  | surveyPartner (vala valb : Word)
  /-- R456: Records a die junction temperature. -/
  | surveyThermal (tj : BitVec 16)
  /-- R458: A rail reading outside its window raises the supply window event. -/
  | supplyWatchSample (r : Fin 20) (mv : BitVec 16)
  /-- R458: The watched mains frequency leaving its window raises source 924. -/
  | mainsWatch (freq : BitVec 32)
  /-- R534: Every 100 µs temperatures are read and thermal caps applied or lifted. -/
  | temperatureUpdate (p : Fin 8) (tj : BitVec 12)
  /-- R464: Every 100 µs the island samples, evaluates demands, takes requests and sets STO, brake and gates. -/
  | safetyCycle (h : SafeHalf)
  /-- R468: Every 10 µs safe inputs are sampled for OK, demand and discrepancy. -/
  | safeInputSample (a b : BitVec 32)
  /-- R469: A test-pulse output goes low and its assigned channels are checked. -/
  | testPulse (k : Fin 8) (a b : BitVec 32)
  /-- R484: Island request that refreshes the heartbeat. -/
  | heartbeat
  /-- R487: Island request that commits a status packet. -/
  | islandStatusRequest
  /-- R477: Island demand that asserts STO of a channel. -/
  | sto
  /-- R477: Island demand that starts safe stop 1. -/
  | ss1
  /-- R477: Island demand that starts safe stop 2. -/
  | ss2
  /-- R477: Island demand that starts safe operating stop. -/
  | sos
  /-- R484: Island demand that lowers the speed limit. -/
  | slsLower
  /-- R477: Island demand that applies a brake pair. -/
  | brakeApply
  /-- R484: Island demand that closes a gate group. -/
  | gateClose
  /-- R477: Island demand that restricts direction. -/
  | sdi
  /-- R485: Island permission that releases STO of a channel. -/
  | stoRelease
  /-- R485: Island permission that ends SOS. -/
  | sosRelease
  /-- R485: Island permission that raises or removes the speed limit. -/
  | slsRaise
  /-- R485: Island permission that releases a brake pair. -/
  | brakeRelease
  /-- R485: Island permission that opens a gate group. -/
  | gateOpen
  /-- R485: Island permission that ends the direction restriction. -/
  | sdiOff
  /-- R492: Empties the load buffer and starts loading a parameter set. -/
  | psetBegin
  /-- R492: Writes parameter-set words into the load buffer. -/
  | psetData
  /-- R492: Starts the checks and verification of the loaded set. -/
  | psetCommit
  /-- R492: Empties the load buffer. -/
  | psetAbort
  /-- R492: Verification ends and the set is accepted into RUN or refused. -/
  | psetVerifyDone
  /-- R492: 300 s without PSET_COMMIT empties the buffer. -/
  | psetLoadTimeout
  /-- R477: TRAMP expires and SS1 asserts STO, or SS2 enters SOS. -/
  | ss1RampExpiry (d : Fin 16)
  /-- R487: Every STATPER ms the island commits a status packet. -/
  | statusPacketPeriod
  /-- R467: No accepted request for HBMAX ms sets HOLD. -/
  | heartbeatLoss
  /-- R467: No ALIVE_OUT edge for ALIVEMAX µs sets HOLD. -/
  | aliveLoss
  /-- R465: INIT checks end and the island enters NOSET, or reloads its set. -/
  | islandInitDone (fail : Option (Fin 12))
  /-- R496: An island diagnostic fails and the island enters FAULT. -/
  | islandFault (code : Fin 12)
  /-- R496: The island watchdog expires and resets the island. -/
  | islandWatchdogReset
  /-- R16: VSAFE power-on resets the island and the always-on domain. -/
  | islandPowerOn
  /-- R497: 168 h released sets TESTDUE. -/
  | testDue (d : Fin 16)
  /-- R501: The field die reads the SAFE block each safety cycle and raises SAFE_ISLAND on changes. -/
  | safeIslandPoll
  /-- R503: The collector classifies an arriving fault event, logs it and performs its reaction. -/
  | faultEvent (f : FaultIn)
  /-- R503: A source's count window W ends without reaching N and closes. -/
  | countWindowEnd (d : Fin 8) (src : Fin 64)
  /-- R507: An unacknowledged class escalates by one level. -/
  | ackTimeout (c : Fin 64)
  /-- R508: A reaction not complete by its deadline fails and the next level is performed. -/
  | reactionDeadline (k : Fin 256)
  /-- R509: A reaction's shadow closes. -/
  | shadowEnd (seq : BitVec 32)
  /-- R504: A reaction meets its completion condition and the shadow timer starts. -/
  | reactionComplete (k : Fin 256)
  /-- R510: ALIVE_OUT changes level every PERIOD. -/
  | aliveToggle
  /-- R510: Starts ALIVE_OUT toggling. -/
  | aliveStart (p : Path) (v : Word)
  /-- R511: Every 1 ms the collector sends test words over each sideband. -/
  | selfCheck
  /-- R511: A missing echo raises AGENT_CHECK or a self-check failure. -/
  | echoTimeout (d : Fin 8)
  /-- R511: A comparison mismatch stops ALIVE_OUT and sets SELFFAIL. -/
  | selfCheckFailure
  /-- R512: The field die clock stops or drifts, and ALIVE_OUT stops. -/
  | clockFailure
  /-- R512: The 25 MHz reference leaves tolerance. -/
  | clkRef
  /-- R515: Raises a source on a die as if its block had raised it. -/
  | faultInject (p : Path) (v : Word)
  /-- R515: Raises the SOFTWARE source. -/
  | faultRaiseWrite (p : Path) (v : Word)
  /-- R507: Stops a class's acknowledgement timer. -/
  | classAck (p : Path) (c : Fin 64) (v : Word)
  /-- R513: Empties the fault log and FIRST. -/
  | logClear (p : Path) (v : Word)
  /-- R517: Clears status bits here and on the die. -/
  | diestatClear (p : Path) (d : Fin 8) (v : Word)
  /-- R520: Requests a mode change, accepted or refused. -/
  | modeRequest (p : Path) (t : BitVec 4)
  /-- R528: Power-on sequences the rails and enters BOOT. -/
  | powerOnReset (ev : ResetEv)
  /-- R528: A rail that does not confirm within 10 ms switches the rails off. -/
  | railConfirmTimeout (k : Fin 16)
  /-- R528: 1 s after a rail failure the sequence starts again. -/
  | railRetry
  /-- R525: RESET_N low holds the main domains, and its release restarts them. -/
  | pinReset (ev : ResetEv)
  /-- R529: A warm reset resets the main domains while keeping W fields and memory. -/
  | warmReset (p : Path)
  /-- R526: Resets one die, optionally isolating it first. -/
  | dieReset (d : Fin 8) (iso : Bool)
  /-- R526: A reset or woken die completes its reloads and rejoins. -/
  | dieRejoin (d : Fin 8)
  /-- R78: Resets one tuft and breaks the contexts with work in it. -/
  | tuftReset (d t : Fin 8)
  /-- R527: Returns one context to FREE with every reset effect. -/
  | contextReset (c : BitVec 8)
  /-- R535: Starts a compute die's entry into dormant. -/
  | dieDormantRequest (d : Fin 8)
  /-- R535: The die reaches DORMANT, or wakes at once if WAKEPEND is set. -/
  | dormantEntryDone (d : Fin 8)
  /-- R536: Wakes a dormant die. -/
  | dieWakeRequest (d : Fin 8)
  /-- R538: The field die's clock stops and STANDBY is in force. -/
  | standbyEntryDone
  /-- R539: A wake source ends STANDBY. -/
  | standbyWake (src : WakeSrc)
  /-- R533: Sets the requested performance level, starting a change or making a target pending. -/
  | pwrReqWrite (d : Fin 8) (v : Word)
  /-- R532: The second PLL locks and the die switches frequency. -/
  | frequencySwitch (d : Fin 8)
  /-- R532: The VSETTLE wait ends and READ_VOUT starts. -/
  | voltageSettleExpiry (d : Fin 8)
  /-- R532: A READ_VOUT result completes, repeats or fails the voltage step. -/
  | voutReadback (d : Fin 8) (mv : BitVec 16)
  /-- R545: Entry into BOOT reads the straps and starts reading headers or waiting for an image. -/
  | bootStart (verA verB : BitVec 32)
  /-- R545: A host or USB image arrives for staging. -/
  | bootImageReceived (img : Option (List Byte))
  /-- R547: A candidate is checked and applied, or the next candidate is tried. -/
  | bootVerifyDone
  /-- R545: No image within 60 s fails the boot. -/
  | bootTimeout
  /-- R551: Opens a SERVICE session by password. -/
  | unlockPw (p : Path) (pw : List Byte) (pec : Pec)
  /-- R551: Returns a nonce for a level. -/
  | challenge (p : Path) (level : Byte) (pec : Pec)
  /-- R551: Checks the HMAC and opens the session. -/
  | response (p : Path) (mac : List Byte) (pec : Pec)
  /-- R551: Ends the session. -/
  | lock (p : Path) (pec : Pec)
  /-- R551: Programs a new password hash slot. -/
  | setpw (p : Path) (pw : List Byte) (pec : Pec)
  /-- R551: Returns SEC.STAT. -/
  | secStatus (p : Path) (pec : Pec)
  /-- R550: After 3,600 s the lockout ends and FAILS returns to 0. -/
  | lockoutEnd
  /-- R551: 900 s without activity ends a session. -/
  | sessionTimeout
  /-- R555: Starts verification of a graph image in place. -/
  | graphVerifyStart (p : Path) (v : Word)
  /-- R555: Verification ends and GMEAS is extended on success. -/
  | graphVerifyDone
  /-- R557: Starts programming an OTP word, or refuses it. -/
  | otpProgram (p : Path) (v : Word)
  /-- R557: OTP programming completes and is verified. -/
  | otpProgramDone (ok : Bool)
  /-- R13: A read of an RC field returns it and clears it or restarts its extreme. -/
  | readClearAccess (p : Path) (pa : BitVec 40)
  /-- R13: A write to a register without a row of its own, under its access codes. -/
  | registerWrite (p : Path) (pa : BitVec 40) (v : Word)
  /-- R377: A lost axis receiver's differential voltage rises above the loss threshold again, LOS clears and counting resumes from the levels then seen. -/
  | axisSignalReturn (n : Fin 64) (rx : Fin 3) (level : Bool)
  /-- R565: VSAFE is removed, and the island and always-on domain stop with their pins at high impedance. -/
  | vsafePowerLoss
  /-- R425: A character or break arrives on RXD and is stored in the open message, or drops the whole message when it finds no room. -/
  | uartCharacterReceive (n : Fin 16) (ch : BitVec 8) (fe pe brk : Bool) (start : Nat) (io : RnIo)
  /-- R476: An edge on a safe counter's own receiver, accepted after its 50 ns filter, changes the counter. -/
  | safeCounterEdge (p : Fin 64) (a b : Bool)
  /-- R479: The first index pulse of FBA after island reset sets counter 2d to 0 and references the channel. -/
  | safeCounterIndex (p : Fin 64)
  /-- R386: The carrier crosses a phase's CMP, its ideal signal changes, and the high-side and low-side outputs follow after DEAD ns under MINPW. -/
  | idealSignalChange (k : Fin 16) (ph : Fin 3) (on : Bool)
  /-- R532: The PMBus VOUT_COMMAND write of a voltage step completes after 46 bit times and the VSETTLE wait begins. -/
  | voutCommandDone (d : Fin 8)
  /-- R189: Every tuft has received the new FPCTL value and FPCTL.BUSY clears. -/
  | fpctlCopyDone (c : BitVec 8)
  /-- R527: A context reset completes within 2 µs and CTXRST.BUSY clears. -/
  | contextResetDone
  /-- R547: The last byte of an xSPI or eMMC slot image has been read and hashed, and verification starts. -/
  | bootImageReadDone (img : List Byte)
  /-- R552: A DEBUG-level JTAG command halts or resumes dispatch of one tuft in mode DEBUG. -/
  | haltAndResumeOfDispatch (d t : Fin 8) (halt : Bool)
  deriving DecidableEq, Repr

end Sys2Proof
end

