-- ==== Sys2Proof/Decode.lean ====
section
/-! DEFINITION. Commands from words. The table of operations and events gives no row any bits: the block takes its commands as
events, not as encoded words. (The instruction words of Irien are data inside the block; Machine/Irien.lean decodes them.) -/

namespace Sys2Proof

/-- The command that a word spells by the bits of the table: no row of the table has bits, so no word spells one. -/
def decodeTableWord (_nbits _w : Nat) : Option Instr := none

end Sys2Proof
end

