-- ==== Sys2Proof/Config.lean ====
section
/-! DEFINITION. What the spec leaves open and the device always settles: free values, without a body, so that nothing can
lean on a number (each is named in a log entry). -/

namespace Sys2Proof.Config

/-- A free value for each moment at which the spec leaves one open: the n-th value taken since reset (log 8). -/
opaque freeValue : Nat → Nat

/-- R189: which value of FPCTL a firing uses while writes of it are being copied to the tufts. The argument tells the firing, its place and
its time (log 16). -/
opaque fpctlPick : List Nat → Nat

/-- R183: into which of the epochs that its tuft has not reported yet a firing falls that is not ordered against an FBAR; the argument as
above (log 20). -/
opaque epochPick : List Nat → Nat

end Sys2Proof.Config
end

