-- ==== Sys2Proof/Machine/Irien.lean ====
section
/-! DEFINITION. The Irien instruction word (R85 to R97): its fields, the operations with their OPC, arity and permitted MODE,
TAGOP and FLAGS values (R88, R90, R93, R95, R96, R100, R110, R114, R116, R117, R130, R131, R134, R138, R140, R147, R148,
R151, R154, R155, R156, R161, R163, R169 to R172), decoding and encoding. -/

namespace Sys2Proof.Machine

/-- The operations of Irien (R95). -/
inductive Op
  | mov | merge | fan | sink | switch | gate | select | const | retype
  | retag | loopenter | loopnext | loopdone | loopexit | link | frameget | return_ | frameof
  | add | sub | neg | abs | mul | mulh | mulx | div | rem | divrem | min | max | ext
  | and | or | xor | andn | not | shl | shr | sar | rol | ror
  | cmpeq | cmpne | cmplt | cmple | cmpgt | cmpge | clz | ctz | popc | bswap | brev | bext | bins
  | fadd | fsub | fmul | fdiv | fsqrt | fma | fms | fnma | fmin | fmax | fminm | fmaxm | fneg | fabs | fcpys
  | fcmpeq | fcmplt | fcmple | fcmpun | fcvtds | fcvtsd | fcvtid | fcvtdi | frint | fclass | fsetf
  | load | store | aadd | aand | aor | axor | axchg | acas | iload | istore | iclear
  | send | recv | pktbegin | pktword | pktcommit | pktabort | flush | droprest
  | wstamp | winfo | refget | outst | outnow | slacq | slrel | flissue | resume
  | replay | replayv | replayv2 | parkdrop | raise | signal | fbar
  | pload | pstore | imwrite | imread | tlbinv
  deriving DecidableEq, Repr

/-- Number of operand ports (R60). -/
inductive Arity
  | monadic | dyadic | triadic
  deriving DecidableEq, Repr

/-- What the class of an operation permits in MODE, TAGOP and FLAGS (R88, R90, R93).
plain: MODE[3:1] 0. fan: MODE[3:1] a count. int: W and SX free. bits: W 0, SX free. fround: MODE[3:1] 0 to 5.
fexact: MODE[3:1] 0. free: any MODE[3:1]. atom: W 0 or 1 (R134). w0: W 0 (R137). -/
inductive ModeRule
  | plain | fan | int | bits | fround | fexact | free | atom | w0
  deriving DecidableEq, Repr

/-- One row of the operation tables: OPC, arity, MODE rule, the FLAGS bits that may be 1 as a mask, whether TAGOP must be 0,
whether MODE.LIT is required, whether it is forbidden. -/
structure OpRow where
  op : Op
  opc : Nat
  arity : Arity
  mode : ModeRule
  flags : Nat
  tag0 : Bool
  deriving DecidableEq, Repr

/-- Steering, tags, loops and calls (R96, R100). FLAGS are 0 (R85); R93 fixes TAGOP of four operations. -/
def opRowsSteer : List OpRow :=
  [⟨.mov, 0x001, .monadic, .plain, 0, false⟩, ⟨.merge, 0x002, .monadic, .plain, 0, false⟩,
   ⟨.fan, 0x003, .monadic, .fan, 0, false⟩, ⟨.sink, 0x004, .monadic, .plain, 0, false⟩,
   ⟨.switch, 0x005, .dyadic, .plain, 0, false⟩, ⟨.gate, 0x006, .dyadic, .plain, 0, false⟩,
   ⟨.select, 0x007, .triadic, .plain, 0, false⟩, ⟨.const, 0x008, .dyadic, .plain, 0, false⟩,
   ⟨.retype, 0x009, .dyadic, .plain, 0, false⟩, ⟨.retag, 0x040, .dyadic, .plain, 0, true⟩,
   ⟨.loopenter, 0x041, .dyadic, .plain, 0, false⟩, ⟨.loopnext, 0x042, .dyadic, .plain, 0, false⟩,
   ⟨.loopdone, 0x043, .monadic, .plain, 0, false⟩, ⟨.loopexit, 0x044, .monadic, .plain, 0, true⟩,
   ⟨.link, 0x045, .dyadic, .plain, 0, false⟩, ⟨.frameget, 0x046, .dyadic, .plain, 0, true⟩,
   ⟨.return_, 0x047, .monadic, .plain, 0, true⟩, ⟨.frameof, 0x048, .monadic, .plain, 0, false⟩]

/-- Integer operations (R116, R117): FLAGS[0] TRAP and FLAGS[1] SAT. -/
def opRowsInt : List OpRow :=
  [⟨.add, 0x080, .dyadic, .int, 3, false⟩, ⟨.sub, 0x081, .dyadic, .int, 3, false⟩,
   ⟨.neg, 0x082, .monadic, .int, 3, false⟩, ⟨.abs, 0x083, .monadic, .int, 3, false⟩,
   ⟨.mul, 0x084, .dyadic, .int, 3, false⟩, ⟨.mulh, 0x085, .dyadic, .int, 3, false⟩,
   ⟨.mulx, 0x086, .dyadic, .int, 3, false⟩, ⟨.div, 0x087, .dyadic, .int, 3, false⟩,
   ⟨.rem, 0x088, .dyadic, .int, 3, false⟩, ⟨.divrem, 0x089, .dyadic, .int, 3, false⟩,
   ⟨.min, 0x08A, .dyadic, .int, 3, false⟩, ⟨.max, 0x08B, .dyadic, .int, 3, false⟩,
   ⟨.ext, 0x08C, .monadic, .int, 3, false⟩, ⟨.and, 0x090, .dyadic, .int, 3, false⟩,
   ⟨.or, 0x091, .dyadic, .int, 3, false⟩, ⟨.xor, 0x092, .dyadic, .int, 3, false⟩,
   ⟨.andn, 0x093, .dyadic, .int, 3, false⟩, ⟨.not, 0x094, .monadic, .int, 3, false⟩] ++
  [⟨.shl, 0x098, .dyadic, .int, 3, false⟩, ⟨.shr, 0x099, .dyadic, .int, 3, false⟩,
   ⟨.sar, 0x09A, .dyadic, .int, 3, false⟩, ⟨.rol, 0x09B, .dyadic, .int, 3, false⟩,
   ⟨.ror, 0x09C, .dyadic, .int, 3, false⟩, ⟨.cmpeq, 0x0A0, .dyadic, .int, 3, false⟩,
   ⟨.cmpne, 0x0A1, .dyadic, .int, 3, false⟩, ⟨.cmplt, 0x0A2, .dyadic, .int, 3, false⟩,
   ⟨.cmple, 0x0A3, .dyadic, .int, 3, false⟩, ⟨.cmpgt, 0x0A4, .dyadic, .int, 3, false⟩,
   ⟨.cmpge, 0x0A5, .dyadic, .int, 3, false⟩, ⟨.clz, 0x0A8, .monadic, .int, 3, false⟩,
   ⟨.ctz, 0x0A9, .monadic, .int, 3, false⟩, ⟨.popc, 0x0AA, .monadic, .int, 3, false⟩,
   ⟨.bswap, 0x0AB, .monadic, .int, 3, false⟩, ⟨.brev, 0x0AC, .monadic, .int, 3, false⟩,
   ⟨.bext, 0x0AD, .dyadic, .bits, 3, false⟩, ⟨.bins, 0x0AE, .triadic, .bits, 3, false⟩]

/-- Floating-point operations (R169 to R171): FLAGS[0] S, FLAGS[1] for conversions and FRINT only. -/
def opRowsFp : List OpRow :=
  [⟨.fadd, 0x100, .dyadic, .fround, 1, false⟩, ⟨.fsub, 0x101, .dyadic, .fround, 1, false⟩,
   ⟨.fmul, 0x102, .dyadic, .fround, 1, false⟩, ⟨.fdiv, 0x103, .dyadic, .fround, 1, false⟩,
   ⟨.fsqrt, 0x104, .monadic, .fround, 1, false⟩, ⟨.fma, 0x105, .triadic, .fround, 1, false⟩,
   ⟨.fms, 0x106, .triadic, .fround, 1, false⟩, ⟨.fnma, 0x107, .triadic, .fround, 1, false⟩,
   ⟨.fmin, 0x108, .dyadic, .fexact, 1, false⟩, ⟨.fmax, 0x109, .dyadic, .fexact, 1, false⟩,
   ⟨.fminm, 0x10A, .dyadic, .fexact, 1, false⟩, ⟨.fmaxm, 0x10B, .dyadic, .fexact, 1, false⟩,
   ⟨.fneg, 0x10C, .monadic, .fexact, 1, false⟩, ⟨.fabs, 0x10D, .monadic, .fexact, 1, false⟩,
   ⟨.fcpys, 0x10E, .dyadic, .fexact, 1, false⟩] ++
  [⟨.fcmpeq, 0x110, .dyadic, .fexact, 1, false⟩, ⟨.fcmplt, 0x111, .dyadic, .fexact, 1, false⟩,
   ⟨.fcmple, 0x112, .dyadic, .fexact, 1, false⟩, ⟨.fcmpun, 0x113, .dyadic, .fexact, 1, false⟩,
   ⟨.fcvtds, 0x118, .dyadic, .fround, 0, false⟩, ⟨.fcvtsd, 0x119, .monadic, .fround, 0, false⟩,
   ⟨.fcvtid, 0x11A, .monadic, .fround, 3, false⟩, ⟨.fcvtdi, 0x11B, .monadic, .fround, 3, false⟩,
   ⟨.frint, 0x11C, .monadic, .fround, 3, false⟩, ⟨.fclass, 0x11D, .monadic, .fexact, 1, false⟩,
   ⟨.fsetf, 0x11E, .dyadic, .fexact, 1, false⟩]

/-- Memory, runnel, weir, sluice, flume, system and privileged operations (R130, R138, R140, R147, R151, R156, R161). -/
def opRowsSys : List OpRow :=
  [⟨.load, 0x180, .dyadic, .free, 7, false⟩, ⟨.store, 0x181, .triadic, .free, 0, false⟩,
   ⟨.aadd, 0x188, .dyadic, .atom, 0, false⟩, ⟨.aand, 0x189, .dyadic, .atom, 0, false⟩,
   ⟨.aor, 0x18A, .dyadic, .atom, 0, false⟩, ⟨.axor, 0x18B, .dyadic, .atom, 0, false⟩,
   ⟨.axchg, 0x18C, .dyadic, .atom, 0, false⟩, ⟨.acas, 0x18F, .triadic, .atom, 0, false⟩,
   ⟨.iload, 0x190, .dyadic, .w0, 7, false⟩, ⟨.istore, 0x191, .triadic, .w0, 0, false⟩,
   ⟨.iclear, 0x192, .dyadic, .w0, 0, false⟩] ++
  [⟨.send, 0x200, .dyadic, .free, 1, false⟩, ⟨.recv, 0x201, .dyadic, .free, 1, false⟩,
   ⟨.pktbegin, 0x208, .dyadic, .free, 0, false⟩, ⟨.pktword, 0x209, .dyadic, .free, 0, false⟩,
   ⟨.pktcommit, 0x20A, .monadic, .free, 0, false⟩, ⟨.pktabort, 0x20B, .monadic, .free, 0, false⟩,
   ⟨.flush, 0x210, .dyadic, .free, 0, false⟩, ⟨.droprest, 0x211, .dyadic, .free, 0, false⟩,
   ⟨.wstamp, 0x240, .triadic, .free, 1, false⟩, ⟨.winfo, 0x241, .monadic, .free, 0, false⟩,
   ⟨.refget, 0x242, .dyadic, .free, 1, false⟩, ⟨.outst, 0x248, .triadic, .free, 1, false⟩,
   ⟨.outnow, 0x249, .dyadic, .free, 0, false⟩] ++
  [⟨.slacq, 0x280, .dyadic, .free, 0, false⟩, ⟨.slrel, 0x281, .dyadic, .free, 0, false⟩,
   ⟨.flissue, 0x290, .dyadic, .free, 1, false⟩, ⟨.resume, 0x291, .monadic, .free, 1, false⟩,
   ⟨.replay, 0x2C0, .monadic, .free, 0, false⟩, ⟨.replayv, 0x2C1, .dyadic, .free, 0, false⟩,
   ⟨.replayv2, 0x2C2, .triadic, .free, 0, false⟩, ⟨.parkdrop, 0x2C3, .monadic, .free, 0, false⟩,
   ⟨.raise, 0x2C8, .dyadic, .free, 0, false⟩, ⟨.signal, 0x2C9, .dyadic, .free, 0, false⟩,
   ⟨.fbar, 0x2D0, .monadic, .free, 0, false⟩] ++
  [⟨.pload, 0x300, .dyadic, .free, 7, false⟩, ⟨.pstore, 0x301, .triadic, .free, 0, false⟩,
   ⟨.imwrite, 0x302, .triadic, .free, 0, false⟩, ⟨.imread, 0x303, .dyadic, .free, 0, false⟩,
   ⟨.tlbinv, 0x304, .dyadic, .free, 1, false⟩]

/-- The opcode map: every OPC that a chapter assigns (R95). Every other OPC is reserved. -/
def opRows : List OpRow := opRowsSteer ++ opRowsInt ++ opRowsFp ++ opRowsSys

/-- The row of an OPC value, if it is assigned. -/
def opRowOf (opc : Nat) : Option OpRow := opRows.find? (fun r => r.opc == opc)

/-- The row of an operation. -/
def Op.row (o : Op) : OpRow :=
  match opRows.find? (fun r => r.op == o) with
  | some r => r
  | none => ⟨o, 0, .monadic, .plain, 0, false⟩

/-- The fields of an instruction word (R85). -/
structure IWord where
  opc : BitVec 10
  mode : BitVec 4
  tagop : BitVec 3
  flags : BitVec 3
  dest0 : BitVec 22
  dest1 : BitVec 22
  deriving DecidableEq, Repr

/-- R85: the fields of a 64-bit slot. -/
def IWord.ofWord (w : Word) : IWord where
  opc := w.extractLsb' 54 10
  mode := w.extractLsb' 50 4
  tagop := w.extractLsb' 47 3
  flags := w.extractLsb' 44 3
  dest0 := w.extractLsb' 22 22
  dest1 := w.extractLsb' 0 22

/-- R85: the slot that holds the fields. -/
def IWord.toWord (i : IWord) : Word :=
  i.opc ++ i.mode ++ i.tagop ++ i.flags ++ i.dest0 ++ i.dest1

/-- R86: no destination. -/
def noDest : BitVec 22 := 0x3FFFFF

/-- MODE.LIT (R88). -/
def IWord.litBit (i : IWord) : Bool := i.mode.getLsbD 0

/-- MODE[3:1] (R88, R97, R170). -/
def IWord.mode31 (i : IWord) : Nat := i.mode.toNat / 2

/-- MODE.W (R88). -/
def IWord.wBits (i : IWord) : Nat := i.mode.toNat / 2 % 4

/-- The operand width in bits that MODE.W selects (R88). -/
def IWord.width (i : IWord) : Nat :=
  match i.wBits with
  | 0 => 64
  | 1 => 32
  | 2 => 16
  | _ => 8

/-- MODE.SX (R88). -/
def IWord.sx (i : IWord) : Bool := i.mode.getLsbD 3

/-- R88, R114, R134, R137, R170: the MODE values that the operation permits. -/
def modeOk (r : OpRow) (i : IWord) : Bool :=
  (match r.arity with
    | .monadic => r.mode == .fan || !i.litBit
    | _ => true) &&
  (match r.mode with
    | .plain => i.mode31 == 0
    | .fan => !i.litBit
    | .int => true
    | .bits => i.wBits == 0
    | .fround => i.mode31 ≤ 5
    | .fexact => i.mode31 == 0
    | .free => true
    | .atom => i.wBits ≤ 1
    | .w0 => i.wBits == 0) &&
  (r.op != .const || i.litBit)

/-- R92, R93: TAGOP 6 and 7 are reserved, and four operations require 0. -/
def tagOk (r : OpRow) (i : IWord) : Bool :=
  i.tagop.toNat ≤ 5 && (!r.tag0 || i.tagop == 0)

/-- R116, R131, R138, R140, R148, R169, R172: the FLAGS values that the operation permits. -/
def flagsOk (r : OpRow) (i : IWord) : Bool :=
  (i.flags.toNat &&& (7 - r.flags) == 0) &&
  (match r.op with
    | .load | .iload | .pload => i.flags.toNat ≤ 3 && (i.flags == 0 || i.wBits == 0)
    | _ => true)

/-- R90, R110: the destination values that the operation permits. -/
def destOk (r : OpRow) (i : IWord) : Bool :=
  r.op != .return_ || i.dest0.extractLsb' 14 8 == 0

/-- R90: the operation of an instruction word, or none where the word is undecodable by its own fields. -/
def decodeOp (i : IWord) : Option OpRow :=
  match opRowOf i.opc.toNat with
  | none => none
  | some r => if modeOk r i && tagOk r i && flagsOk r i && destOk r i then some r else none

/-- R89: how many extension slots follow, and of which kind (true for LIT). -/
def extSlots (r : OpRow) (i : IWord) : Nat × Bool :=
  if r.op == .fan then (i.mode31, false) else if i.litBit then (1, true) else (0, true)

/-- R108: LINK with a literal whose bits [63:22] are not 0 is undecodable. -/
def extOk (r : OpRow) (lit : Option Word) : Bool :=
  r.op != .link || match lit with
    | some l => l.toNat < 4194304
    | none => true

/-- R60: the ports that the operation accepts. -/
def portsOf (r : OpRow) (i : IWord) : List (BitVec 2) :=
  match r.arity with
  | .monadic => [2]
  | .dyadic => if i.litBit then [0] else [0, 1]
  | .triadic => if i.litBit then [0, 3] else [0, 1, 3]

/-- R92: the frame of a result. first is true for DEST0. -/
def tagFrame (tagop : BitVec 3) (first : Bool) (f : BitVec 24) : BitVec 24 :=
  let rec_ := f.extractLsb' 12 12
  let slot := f.extractLsb' 0 12
  match tagop.toNat with
  | 1 => rec_ ++ (slot + 1)
  | 2 => rec_ ++ (slot - 1)
  | 3 => rec_ ++ (0 : BitVec 12)
  | 4 => 0
  | 5 => if first then rec_ ++ (slot + 1) else f
  | _ => f

/-- R94: the truth of an operand. -/
def Opnd.truth (o : Opnd) : Bool :=
  if o.typ = 4 then o.value.getLsbD 0 else o.value != 0

end Sys2Proof.Machine
end

