-- ==== Sys2Proof/Machine/RegDefaults.lean ====
section
/-! DEFINITION. Reset values that the register tables give by reference: the tape translation tables of R397 and the class
defaults of the source table of R500. A DEC entry is CODE in bits 7:0, SKIP in bit 8, EOB in bit 9, VALID in bit 10
(R408); an ENC entry is HOLES in bits 7:0 and VALID in bit 8. -/

namespace Sys2Proof.Machine

/-- The number of ones among the low eight bits. -/
def ones8 (x : Nat) : Nat :=
  x % 2 + x / 2 % 2 + x / 4 % 2 + x / 8 % 2 + x / 16 % 2 + x / 32 % 2 + x / 64 % 2 + x / 128 % 2

/-- The ISO 840 default of DEC for hole pattern c (R397): even parity over channels 1 to 8. A SKIP entry is VALID
(DEDUCED, log 24). -/
def isoDec (c : Nat) : Nat :=
  if c = 0 then 0x500
  else if c = 0xFF then 0x500 + 0x7F
  else if ones8 c % 2 = 0 then (if c = 0x0A then 0x600 else 0x400) + c % 128
  else c % 128

/-- The ISO 840 default of ENC for code c (R397): the inverse of DEC without its SKIP entries. -/
def isoEnc (c : Nat) : Nat :=
  if c = 0 ∨ 127 ≤ c then 0
  else 0x100 + c + (if ones8 c % 2 = 0 then 0 else 128)

/-- The EIA RS-244 characters: hole pattern and ISO 646 equivalent. PRESUMED (log 25): the manual names the standard and
does not list its patterns. -/
def eiaChars : List (Nat × Nat) :=
  [(0x20, 0x30), (0x01, 0x31), (0x02, 0x32), (0x13, 0x33), (0x04, 0x34), (0x15, 0x35), (0x16, 0x36), (0x07, 0x37),
   (0x08, 0x38), (0x19, 0x39)] ++
  [(0x61, 0x61), (0x62, 0x62), (0x73, 0x63), (0x64, 0x64), (0x75, 0x65), (0x76, 0x66), (0x67, 0x67), (0x68, 0x68),
   (0x79, 0x69), (0x51, 0x6A), (0x52, 0x6B), (0x43, 0x6C), (0x54, 0x6D)] ++
  [(0x45, 0x6E), (0x46, 0x6F), (0x57, 0x70), (0x58, 0x71), (0x49, 0x72), (0x32, 0x73), (0x23, 0x74), (0x34, 0x75),
   (0x25, 0x76), (0x26, 0x77), (0x37, 0x78), (0x38, 0x79), (0x29, 0x7A)] ++
  [(0x6B, 0x2E), (0x3B, 0x2C), (0x31, 0x2F), (0x70, 0x2B), (0x40, 0x2D), (0x0E, 0x26), (0x0B, 0x25), (0x3E, 0x09),
   (0x10, 0x20), (0x2A, 0x08), (0x7C, 0x0E), (0x7A, 0x0F)]

/-- The EIA RS-244 default of DEC (R397): odd parity, delete is channels 1 to 7, end of block is channel 8 alone. -/
def eiaDec (c : Nat) : Nat :=
  if c = 0 then 0x500
  else if c = 0x7F then 0x500
  else if c = 0x80 then 0x600 + 0x0A
  else match eiaChars.find? (fun p => p.1 == c) with
    | some p => 0x400 + p.2
    | none => 0

/-- The EIA RS-244 default of ENC (R397). -/
def eiaEnc (c : Nat) : Nat :=
  if c = 0x0A then 0x180
  else match eiaChars.find? (fun p => p.2 == c) with
    | some p => 0x100 + p.1
    | none => 0

/-- The default configuration of a fault class: base severity, N, W in µs, reaction at SEVERE (R500, R502). -/
structure ClassDefault where
  base : Nat
  n : Nat
  w : Nat
  rsevere : Nat
  deriving DecidableEq, Repr

/-- The Defaults column of R500 for sources 0 to 40. For a direct source the manual gives no base
severity, N or W: DESIGN CHOICE 0 (log 26). -/
def classDefaults : List ClassDefault :=
  [⟨0, 0, 0, 3⟩, ⟨0, 0, 0, 6⟩, ⟨0, 0, 0, 3⟩, ⟨0, 255, 1, 1⟩, ⟨0, 0, 0, 4⟩, ⟨1, 1, 1, 4⟩, ⟨0, 255, 1, 1⟩,
   ⟨1, 4, 1000000, 1⟩, ⟨1, 2, 3600000000, 2⟩, ⟨1, 2, 3600000000, 1⟩, ⟨1, 16, 1000000, 3⟩] ++
  [⟨0, 64, 3600000000, 1⟩, ⟨1, 1, 1, 1⟩, ⟨0, 64, 3600000000, 1⟩, ⟨1, 1, 1, 1⟩, ⟨0, 0, 0, 3⟩, ⟨1, 4, 1000000, 1⟩,
   ⟨0, 255, 1, 1⟩, ⟨1, 1, 1, 1⟩, ⟨1, 1, 1, 1⟩, ⟨1, 1, 1, 1⟩, ⟨0, 255, 1000, 1⟩] ++
  [⟨1, 1, 1, 1⟩, ⟨1, 4, 1000000, 1⟩, ⟨0, 0, 0, 3⟩, ⟨1, 1, 1, 1⟩, ⟨1, 1, 1, 1⟩, ⟨1, 1, 1, 4⟩, ⟨1, 3, 1000, 1⟩,
   ⟨1, 4, 1000000, 1⟩, ⟨1, 1, 1, 4⟩, ⟨1, 1, 1, 1⟩, ⟨1, 8, 1000000, 1⟩] ++
  [⟨1, 1, 1, 1⟩, ⟨1, 3, 1000000, 4⟩, ⟨1, 1, 1, 1⟩, ⟨1, 1, 1, 1⟩, ⟨1, 1, 1, 1⟩, ⟨1, 1, 1, 1⟩, ⟨1, 1, 1, 1⟩,
   ⟨1, 1, 1, 1⟩]

/-- The defaults of a class; those of classes 41 to 63 stand under R517. -/
def classDefault (c : Nat) : ClassDefault := classDefaults.getD c ⟨0, 255, 1, 7⟩

end Sys2Proof.Machine
end

