-- ==== Sys2Proof/Machine/Regs.lean ====
section
/-! DEFINITION. The place of every named register field: physical address (R10), low bit, width and reset value, from the
register tables of spec/ (the same tables as RegTable.lean). A field name is BLOCK_REGISTER_FIELD; the arguments are the
die position for a block that more than one die holds, then the array indices. -/

namespace Sys2Proof.Machine

/-- A field of a register: physical address, low bit, width, reset value. -/
structure Fld where
  pa : Nat
  lo : Nat
  w : Nat
  rst : Nat
  deriving DecidableEq, Repr

/-- A field is stored under its bit address. -/
def Fld.key (f : Fld) : Nat := f.pa * 8 + f.lo

/-- Register space of die position d (R10). -/
def regBase (d : Nat) : Nat := 0x8E00000000 + d * 0x1000000000

end Sys2Proof.Machine

namespace Sys2Proof.Machine.F

def MODE_IDENT_VENDOR : Fld := ⟨0x8e13000000, 24, 8, 250⟩
def MODE_IDENT_DIEMAP : Fld := ⟨0x8e13000000, 16, 8, 0xFF⟩
def MODE_IDENT_PART : Fld := ⟨0x8e13000000, 8, 8, 0x08⟩
def MODE_IDENT_STEPPING : Fld := ⟨0x8e13000000, 4, 4, 1⟩
def CTXTAB_PLACE_VALID (i : Nat) : Fld := ⟨0x8e1e100000 + i * 8, 0, 1, 0⟩
def CTXTAB_PLACE_DIE (i : Nat) : Fld := ⟨0x8e1e100000 + i * 8, 1, 3, 0⟩
def CTXTAB_PLACE_TUFT (i : Nat) : Fld := ⟨0x8e1e100000 + i * 8, 4, 3, 0⟩
def CTXTAB_PLACE_SLOT (i : Nat) : Fld := ⟨0x8e1e100000 + i * 8, 7, 3, 0⟩
def CTXTAB_PLACE_PAIRED (i : Nat) : Fld := ⟨0x8e1e100000 + i * 8, 10, 1, 0⟩
def CTXTAB_PLACE_PDIE (i : Nat) : Fld := ⟨0x8e1e100000 + i * 8, 11, 3, 0⟩
def CTXTAB_PLACE_PTUFT (i : Nat) : Fld := ⟨0x8e1e100000 + i * 8, 14, 3, 0⟩
def CTXTAB_PLACE_PSLOT (i : Nat) : Fld := ⟨0x8e1e100000 + i * 8, 17, 3, 0⟩
def CTXTAB_STATE_RUN (i : Nat) : Fld := ⟨0x8e1e000000 + i * 0x100, 0, 2, 0⟩
def CTXTAB_STATE_SOAK_FULL (i : Nat) : Fld := ⟨0x8e1e000000 + i * 0x100, 2, 1, 0⟩
def CTXTAB_STATE_THROTTLED (i : Nat) : Fld := ⟨0x8e1e000000 + i * 0x100, 3, 1, 0⟩
def CTXTAB_STATE_SOLE (i : Nat) : Fld := ⟨0x8e1e000000 + i * 0x100, 4, 1, 0⟩
def CTXTAB_STATE_CAUSE (i : Nat) : Fld := ⟨0x8e1e000000 + i * 0x100, 8, 4, 0⟩
def CTXTAB_HANDLER_IA (i : Nat) : Fld := ⟨0x8e1e000010 + i * 0x100, 0, 20, 0⟩
def CTXTAB_HANDLER_HPRIO (i : Nat) : Fld := ⟨0x8e1e000010 + i * 0x100, 20, 4, 0⟩
def CTXTAB_HANDLER_EN (i : Nat) : Fld := ⟨0x8e1e000010 + i * 0x100, 24, 1, 0⟩
def CTXTAB_SOAK_EN (i : Nat) : Fld := ⟨0x8e1e000020 + i * 0x100, 0, 1, 0⟩
def CTXTAB_SOAK_SIZE (i : Nat) : Fld := ⟨0x8e1e000020 + i * 0x100, 1, 5, 0⟩
def CTXTAB_SOAK_BASE (i : Nat) : Fld := ⟨0x8e1e000020 + i * 0x100, 12, 28, 0⟩
def CTXTAB_SOAKOCC_OCC (i : Nat) : Fld := ⟨0x8e1e000028 + i * 0x100, 0, 23, 0⟩
def CTXTAB_SOAKOCC_PEAK (i : Nat) : Fld := ⟨0x8e1e000028 + i * 0x100, 24, 23, 0⟩
def CTXTAB_SOAKOCC_FULLPARK (i : Nat) : Fld := ⟨0x8e1e000028 + i * 0x100, 48, 15, 0⟩
def CTXTAB_PLACESTAT_BUSY : Fld := ⟨0x8e1e200000, 0, 1, 0⟩
def CTXTAB_PLACESTAT_CONFLICT : Fld := ⟨0x8e1e200000, 1, 1, 0⟩
def CTXTAB_PLACESTAT_BADDIE : Fld := ⟨0x8e1e200000, 2, 1, 0⟩
def CTXTAB_PLACESTAT_LASTREF : Fld := ⟨0x8e1e200000, 16, 16, 0⟩
def TUFT_MSOCC_OCC (d i : Nat) : Fld := ⟨0x8E00000000 + d * 0x1000000000 + i * 0x100000, 0, 15, 0⟩
def TUFT_MSOCC_PEAK (d i : Nat) : Fld := ⟨0x8E00000000 + d * 0x1000000000 + i * 0x100000, 16, 15, 0⟩
def TUFT_MSOCC_PROBEOUT (d i : Nat) : Fld := ⟨0x8E00000000 + d * 0x1000000000 + i * 0x100000, 32, 6, 0⟩
def TUFT_MSOCC_SPILLBUF (d i : Nat) : Fld := ⟨0x8E00000000 + d * 0x1000000000 + i * 0x100000, 40, 5, 0⟩
def TUFT_MSSPILL_SPILLS (d i : Nat) : Fld := ⟨0x8E00000000 + d * 0x1000000000 + 8 + i * 0x100000, 0, 32, 0⟩
def TUFT_MSSPILL_FAILS (d i : Nat) : Fld := ⟨0x8E00000000 + d * 0x1000000000 + 8 + i * 0x100000, 32, 32, 0⟩
def TUFT_MSPROBE_PROBES (d i : Nat) : Fld := ⟨0x8E00000000 + d * 0x1000000000 + 0x10 + i * 0x100000, 0, 32, 0⟩
def TUFT_MSPROBE_HITS (d i : Nat) : Fld := ⟨0x8E00000000 + d * 0x1000000000 + 0x10 + i * 0x100000, 32, 32, 0⟩
def TUFT_MSERR_CE (d i : Nat) : Fld := ⟨0x8E00000000 + d * 0x1000000000 + 0x18 + i * 0x100000, 0, 16, 0⟩
def TUFT_MSERR_UE (d i : Nat) : Fld := ⟨0x8E00000000 + d * 0x1000000000 + 0x18 + i * 0x100000, 16, 16, 0⟩
def TUFT_MSERR_LASTSET (d i : Nat) : Fld := ⟨0x8E00000000 + d * 0x1000000000 + 0x18 + i * 0x100000, 32, 12, 0⟩
def TUFT_MSCTL_INJCE (d i : Nat) : Fld := ⟨0x8E00000000 + d * 0x1000000000 + 0x20 + i * 0x100000, 0, 1, 0⟩
def TUFT_MSCTL_INJUE (d i : Nat) : Fld := ⟨0x8E00000000 + d * 0x1000000000 + 0x20 + i * 0x100000, 1, 1, 0⟩
def ROUTER_STATS_ROUTED (d : Nat) : Fld := ⟨0x8E00000000 + d * 0x1000000000 + 0x1000000, 0, 32, 0⟩
def ROUTER_STATS_DISCARDS (d : Nat) : Fld := ⟨0x8E00000000 + d * 0x1000000000 + 0x1000000, 32, 16, 0⟩
def ROUTER_STATS_PAIRDROP (d : Nat) : Fld := ⟨0x8E00000000 + d * 0x1000000000 + 0x1000000, 48, 16, 0⟩
def ROUTER_TOKERR_CE (d : Nat) : Fld := ⟨0x8E00000000 + d * 0x1000000000 + 0x1000008, 0, 16, 0⟩
def ROUTER_TOKERR_UE (d : Nat) : Fld := ⟨0x8E00000000 + d * 0x1000000000 + 0x1000008, 16, 16, 0⟩
def ROUTER_THRMAP_CTXBITS (d i : Nat) : Fld := ⟨0x8E00000000 + d * 0x1000000000 + 0x1000040 + i * 8, 0, 64, 0⟩
def ROUTER_PLACE_ENTRY (d i : Nat) : Fld := ⟨0x8E00000000 + d * 0x1000000000 + 0x1100000 + i * 8, 0, 64, 0⟩
def FROUTER_STATS_ROUTED : Fld := ⟨0x8e1f000000, 0, 32, 0⟩
def FROUTER_STATS_DISCARDS : Fld := ⟨0x8e1f000000, 32, 16, 0⟩
def FROUTER_STATS_PAIRDROP : Fld := ⟨0x8e1f000000, 48, 16, 0⟩
def FROUTER_TOKERR_CE : Fld := ⟨0x8e1f000008, 0, 16, 0⟩
def FROUTER_TOKERR_UE : Fld := ⟨0x8e1f000008, 16, 16, 0⟩
def EVT_ROUTE_CTX (i : Nat) : Fld := ⟨0x8e06000000 + i * 0x20, 0, 8, 0⟩
def EVT_ROUTE_IA (i : Nat) : Fld := ⟨0x8e06000000 + i * 0x20, 8, 20, 0⟩
def EVT_ROUTE_PORT (i : Nat) : Fld := ⟨0x8e06000000 + i * 0x20, 28, 2, 0⟩
def EVT_ROUTE_EN (i : Nat) : Fld := ⟨0x8e06000000 + i * 0x20, 30, 1, 0⟩
def EVT_ROUTE_FRAME (i : Nat) : Fld := ⟨0x8e06000000 + i * 0x20, 32, 24, 0⟩
def EVT_DIV_DIVIDER (i : Nat) : Fld := ⟨0x8e06000008 + i * 0x20, 0, 16, 0⟩
def EVT_DIV_PHASE (i : Nat) : Fld := ⟨0x8e06000008 + i * 0x20, 16, 16, 0⟩
def EVT_STAT_EMITTED (i : Nat) : Fld := ⟨0x8e06000010 + i * 0x20, 0, 32, 0⟩
def EVT_STAT_DROPS (i : Nat) : Fld := ⟨0x8e06000010 + i * 0x20, 32, 16, 0⟩
def EVT_STAT_MERGED (i : Nat) : Fld := ⟨0x8e06000010 + i * 0x20, 48, 16, 0⟩
def TUFT_LCOCC_INUSE (d i : Nat) : Fld := ⟨0x8E00000000 + d * 0x1000000000 + 0x28 + i * 0x100000, 0, 12, 0⟩
def TUFT_LCOCC_PEAK (d i : Nat) : Fld := ⟨0x8E00000000 + d * 0x1000000000 + 0x28 + i * 0x100000, 16, 12, 0⟩
def TUFT_LCOCC_HELD (d i : Nat) : Fld := ⟨0x8E00000000 + d * 0x1000000000 + 0x28 + i * 0x100000, 32, 12, 0⟩
def TUFT_LCOCC_NOREC (d i : Nat) : Fld := ⟨0x8E00000000 + d * 0x1000000000 + 0x28 + i * 0x100000, 48, 16, 0⟩
def CTXTAB_FPCTL_RM (i : Nat) : Fld := ⟨0x8e1e000038 + i * 0x100, 0, 3, 0⟩
def CTXTAB_FPCTL_SUBN (i : Nat) : Fld := ⟨0x8e1e000038 + i * 0x100, 3, 1, 0⟩
def CTXTAB_FPCTL_CT (i : Nat) : Fld := ⟨0x8e1e000038 + i * 0x100, 4, 1, 0⟩
def CTXTAB_FPCTL_BUSY (i : Nat) : Fld := ⟨0x8e1e000038 + i * 0x100, 63, 1, 0⟩
def CTXTAB_FPSTICKY_NV (i : Nat) : Fld := ⟨0x8e1e000048 + i * 0x100, 0, 1, 0⟩
def CTXTAB_FPSTICKY_DZ (i : Nat) : Fld := ⟨0x8e1e000048 + i * 0x100, 1, 1, 0⟩
def CTXTAB_FPSTICKY_OF (i : Nat) : Fld := ⟨0x8e1e000048 + i * 0x100, 2, 1, 0⟩
def CTXTAB_FPSTICKY_UF (i : Nat) : Fld := ⟨0x8e1e000048 + i * 0x100, 3, 1, 0⟩
def CTXTAB_FPSTICKY_NX (i : Nat) : Fld := ⟨0x8e1e000048 + i * 0x100, 4, 1, 0⟩
def CTXTAB_FPSTICKY_DI (i : Nat) : Fld := ⟨0x8e1e000048 + i * 0x100, 5, 1, 0⟩
def CTXTAB_FPSTICKY_IOV (i : Nat) : Fld := ⟨0x8e1e000048 + i * 0x100, 6, 1, 0⟩
def CTXTAB_FPSTICKY_IDZ (i : Nat) : Fld := ⟨0x8e1e000048 + i * 0x100, 7, 1, 0⟩
def CTXTAB_FPSTICKY_EPOCH (i : Nat) : Fld := ⟨0x8e1e000048 + i * 0x100, 16, 8, 0⟩
def CTXTAB_FPSTICKY_PEPOCH (i : Nat) : Fld := ⟨0x8e1e000048 + i * 0x100, 24, 8, 0⟩
def CTXTAB_FPSTICKY_CLOSING (i : Nat) : Fld := ⟨0x8e1e000048 + i * 0x100, 32, 2, 0⟩
def CTXTAB_FPSTICKY_PCLOSING (i : Nat) : Fld := ⟨0x8e1e000048 + i * 0x100, 34, 2, 0⟩
def CTXTAB_FPSTICKY_TRAPS (i : Nat) : Fld := ⟨0x8e1e000048 + i * 0x100, 48, 16, 0⟩
def TUFT_DIVSTAT_DIVS (d i : Nat) : Fld := ⟨0x8E00000000 + d * 0x1000000000 + 0x30 + i * 0x100000, 0, 16, 0⟩
def TUFT_DIVSTAT_QSTALLS (d i : Nat) : Fld := ⟨0x8E00000000 + d * 0x1000000000 + 0x30 + i * 0x100000, 16, 16, 0⟩
def TUFT_DIVSTAT_BUSY (d i : Nat) : Fld := ⟨0x8E00000000 + d * 0x1000000000 + 0x30 + i * 0x100000, 32, 4, 0⟩
def REFBUS_BUS_SEQ : Fld := ⟨0x8e00000000, 0, 16, 0⟩
def REF_SRC_KIND (i : Nat) : Fld := ⟨0x8e00000000 + i * 0x100, 0, 4, 0⟩
def REF_SRC_SEL (i : Nat) : Fld := ⟨0x8e00000000 + i * 0x100, 4, 6, 0⟩
def REF_SRC_EN (i : Nat) : Fld := ⟨0x8e00000000 + i * 0x100, 10, 1, 0⟩
def REF_SCALE_NUM (i : Nat) : Fld := ⟨0x8e00000008 + i * 0x100, 0, 32, 65536⟩
def REF_SCALE_DEN (i : Nat) : Fld := ⟨0x8e00000008 + i * 0x100, 32, 32, 1⟩
def REF_WIN_SHIFT (i : Nat) : Fld := ⟨0x8e00000010 + i * 0x100, 0, 6, 16⟩
def REF_WIN_DIR (i : Nat) : Fld := ⟨0x8e00000010 + i * 0x100, 6, 2, 0⟩
def REF_WIN_PAVG (i : Nat) : Fld := ⟨0x8e00000010 + i * 0x100, 8, 2, 0⟩
def REF_WIN_REVHYST (i : Nat) : Fld := ⟨0x8e00000010 + i * 0x100, 16, 8, 0⟩
def REF_WEIR_TMO (i : Nat) : Fld := ⟨0x8e00000018 + i * 0x100, 0, 32, 0⟩
def REF_WEIR_TMOACT (i : Nat) : Fld := ⟨0x8e00000018 + i * 0x100, 32, 1, 0⟩
def REF_POS_POS (i : Nat) : Fld := ⟨0x8e00000020 + i * 0x100, 0, 64, 0⟩
def REF_PRESET_VALUE (i : Nat) : Fld := ⟨0x8e00000028 + i * 0x100, 0, 64, 0⟩
def REF_VEL_VEL (i : Nat) : Fld := ⟨0x8e00000030 + i * 0x100, 0, 64, 0⟩
def REF_SAMPLE_VALUE (i : Nat) : Fld := ⟨0x8e00000038 + i * 0x100, 0, 64, 0⟩
def REF_SAMPLET_TIME (i : Nat) : Fld := ⟨0x8e00000040 + i * 0x100, 0, 64, 0⟩
def REF_XEVT_XSTEP (i : Nat) : Fld := ⟨0x8e00000048 + i * 0x100, 0, 32, 0⟩
def REF_XEVT_XPHASE (i : Nat) : Fld := ⟨0x8e00000048 + i * 0x100, 32, 32, 0⟩
def REF_GUARD_REVLIM (i : Nat) : Fld := ⟨0x8e00000050 + i * 0x100, 0, 32, 0⟩
def REF_GUARD_EXCUR (i : Nat) : Fld := ⟨0x8e00000050 + i * 0x100, 32, 32, 0⟩
def REF_STAT_DIRN (i : Nat) : Fld := ⟨0x8e00000058 + i * 0x100, 0, 1, 1⟩
def REF_STAT_STAND (i : Nat) : Fld := ⟨0x8e00000058 + i * 0x100, 1, 1, 1⟩
def REF_STAT_GUARDHIT (i : Nat) : Fld := ⟨0x8e00000058 + i * 0x100, 2, 1, 0⟩
def REF_STAT_PRESETREF (i : Nat) : Fld := ⟨0x8e00000058 + i * 0x100, 3, 1, 0⟩
def REF_STAT_CFGREF (i : Nat) : Fld := ⟨0x8e00000058 + i * 0x100, 4, 1, 0⟩
def REF_STAT_REVERSALS (i : Nat) : Fld := ⟨0x8e00000058 + i * 0x100, 16, 16, 0⟩
def REF_STAT_PERIOD (i : Nat) : Fld := ⟨0x8e00000058 + i * 0x100, 32, 32, 0⟩
def OUTSCHED_CFG_LATEPOL (i : Nat) : Fld := ⟨0x8e05000000 + i * 0x20, 0, 1, 0⟩
def OUTSCHED_CFG_CAP (i : Nat) : Fld := ⟨0x8e05000000 + i * 0x20, 8, 8, 64⟩
def OUTSCHED_CFG_LEAD (i : Nat) : Fld := ⟨0x8e05000000 + i * 0x20, 16, 32, 0⟩
def OUTSCHED_OWN_CTX (i : Nat) : Fld := ⟨0x8e05000008 + i * 0x20, 0, 8, 0⟩
def OUTSCHED_OWN_OWNED (i : Nat) : Fld := ⟨0x8e05000008 + i * 0x20, 8, 1, 0⟩
def OUTSCHED_STAT_PEND (i : Nat) : Fld := ⟨0x8e05000010 + i * 0x20, 0, 8, 0⟩
def OUTSCHED_STAT_DESIG (i : Nat) : Fld := ⟨0x8e05000010 + i * 0x20, 8, 8, 0⟩
def OUTSCHED_STAT_LATE (i : Nat) : Fld := ⟨0x8e05000010 + i * 0x20, 16, 16, 0⟩
def OUTSCHED_STAT_CANCELLED (i : Nat) : Fld := ⟨0x8e05000010 + i * 0x20, 32, 16, 0⟩
def OUTSCHED_STAT_DISCARDED (i : Nat) : Fld := ⟨0x8e05000010 + i * 0x20, 48, 16, 0⟩
def OUTSCHED_CTL_CANCEL (i : Nat) : Fld := ⟨0x8e05000018 + i * 0x20, 0, 1, 0⟩
def OUTSCHED_POOL_FREE : Fld := ⟨0x8e05010000, 0, 15, 16384⟩
def OUTSCHED_POOL_MINFREE : Fld := ⟨0x8e05010000, 16, 15, 16384⟩
def CHG_DESC_BASE (i : Nat) : Fld := ⟨0x8e17000000 + i * 0x40, 0, 40, 0⟩
def CHG_DESC_COUNT (i : Nat) : Fld := ⟨0x8e17000000 + i * 0x40, 40, 11, 0⟩
def CHG_TRIG_REF (i : Nat) : Fld := ⟨0x8e17000008 + i * 0x40, 0, 6, 1⟩
def CHG_TRIG_STAMP (i : Nat) : Fld := ⟨0x8e17000008 + i * 0x40, 32, 32, 0⟩
def CHG_CTL_ARM (i : Nat) : Fld := ⟨0x8e17000010 + i * 0x40, 0, 1, 0⟩
def CHG_CTL_ABORT (i : Nat) : Fld := ⟨0x8e17000010 + i * 0x40, 1, 1, 0⟩
def CHG_CTL_LATEACT (i : Nat) : Fld := ⟨0x8e17000010 + i * 0x40, 2, 1, 0⟩
def CHG_CTL_TMO (i : Nat) : Fld := ⟨0x8e17000010 + i * 0x40, 32, 32, 0⟩
def CHG_NOTE_CTX (i : Nat) : Fld := ⟨0x8e17000018 + i * 0x40, 0, 8, 0⟩
def CHG_NOTE_IA (i : Nat) : Fld := ⟨0x8e17000018 + i * 0x40, 8, 20, 0⟩
def CHG_NOTE_PORT (i : Nat) : Fld := ⟨0x8e17000018 + i * 0x40, 28, 2, 0⟩
def CHG_NOTE_EN (i : Nat) : Fld := ⟨0x8e17000018 + i * 0x40, 30, 1, 0⟩
def CHG_STAT_STATE (i : Nat) : Fld := ⟨0x8e17000020 + i * 0x40, 0, 3, 0⟩
def CHG_STAT_LATE (i : Nat) : Fld := ⟨0x8e17000020 + i * 0x40, 3, 1, 0⟩
def CHG_STAT_ERR (i : Nat) : Fld := ⟨0x8e17000020 + i * 0x40, 4, 4, 0⟩
def CHG_STAT_ERRIDX (i : Nat) : Fld := ⟨0x8e17000020 + i * 0x40, 8, 11, 0⟩
def CHG_STAT_LOCKHITS (i : Nat) : Fld := ⟨0x8e17000020 + i * 0x40, 32, 32, 0⟩
def CHG_CTIME_TIME (i : Nat) : Fld := ⟨0x8e17000028 + i * 0x40, 0, 64, 0⟩
def TUFT_WEIROCC_OCC (d i : Nat) : Fld := ⟨0x8E00000000 + d * 0x1000000000 + 0x38 + i * 0x100000, 0, 13, 0⟩
def TUFT_WEIROCC_PEAK (d i : Nat) : Fld := ⟨0x8E00000000 + d * 0x1000000000 + 0x38 + i * 0x100000, 16, 13, 0⟩
def TUFT_WEIROCC_FULLS (d i : Nat) : Fld := ⟨0x8E00000000 + d * 0x1000000000 + 0x38 + i * 0x100000, 32, 16, 0⟩
def TUFT_WEIROCC_LATES (d i : Nat) : Fld := ⟨0x8E00000000 + d * 0x1000000000 + 0x38 + i * 0x100000, 48, 16, 0⟩
def TUFT_WEIRREL_RELEASED (d i : Nat) : Fld := ⟨0x8E00000000 + d * 0x1000000000 + 0x40 + i * 0x100000, 0, 32, 0⟩
def TUFT_WEIRREL_TIMEOUTS (d i : Nat) : Fld := ⟨0x8E00000000 + d * 0x1000000000 + 0x40 + i * 0x100000, 32, 16, 0⟩
def TUFT_WEIRREL_HOLDS (d i : Nat) : Fld := ⟨0x8E00000000 + d * 0x1000000000 + 0x40 + i * 0x100000, 48, 16, 0⟩
def CTXTAB_SCHED_BASE (i : Nat) : Fld := ⟨0x8e1e000008 + i * 0x100, 0, 4, 0⟩
def CTXTAB_SCHED_EFF (i : Nat) : Fld := ⟨0x8e1e000008 + i * 0x100, 4, 4, 0⟩
def CTXTAB_SCHED_INH (i : Nat) : Fld := ⟨0x8e1e000008 + i * 0x100, 8, 4, 0⟩
def CTXTAB_SCHED_HBOOST (i : Nat) : Fld := ⟨0x8e1e000008 + i * 0x100, 12, 1, 0⟩
def CTXTAB_SCHED_HWIN (i : Nat) : Fld := ⟨0x8e1e000008 + i * 0x100, 16, 8, 20⟩
def CTXTAB_SCHED_DLTMO (i : Nat) : Fld := ⟨0x8e1e000008 + i * 0x100, 32, 20, 100000⟩
def CTXTAB_SCHED_DLACT (i : Nat) : Fld := ⟨0x8e1e000008 + i * 0x100, 52, 2, 0⟩
def CTXTAB_SCHED_DLHND (i : Nat) : Fld := ⟨0x8e1e000008 + i * 0x100, 54, 1, 0⟩
def CTXTAB_PAIR_CMPWIN (i : Nat) : Fld := ⟨0x8e1e000040 + i * 0x100, 0, 10, 100⟩
def CTXTAB_PAIR_CMPEN (i : Nat) : Fld := ⟨0x8e1e000040 + i * 0x100, 10, 1, 0⟩
def CTXTAB_PAIR_LOSTSIDE (i : Nat) : Fld := ⟨0x8e1e000040 + i * 0x100, 11, 1, 0⟩
def CTXTAB_PAIR_PROOT (i : Nat) : Fld := ⟨0x8e1e000040 + i * 0x100, 12, 28, 0⟩
def CTXTAB_PAIR_MISMATCH (i : Nat) : Fld := ⟨0x8e1e000040 + i * 0x100, 40, 8, 0⟩
def CTXTAB_PAIR_CMPTMO (i : Nat) : Fld := ⟨0x8e1e000040 + i * 0x100, 48, 8, 0⟩
def CTXTAB_PAIR_STALLS (i : Nat) : Fld := ⟨0x8e1e000040 + i * 0x100, 56, 8, 0⟩
def CTXTAB_DLSTAT_DECLARED (i : Nat) : Fld := ⟨0x8e1e000050 + i * 0x100, 0, 1, 0⟩
def CTXTAB_DLSTAT_WAIT (i : Nat) : Fld := ⟨0x8e1e000050 + i * 0x100, 1, 1, 0⟩
def CTXTAB_DLSTAT_WEIR (i : Nat) : Fld := ⟨0x8e1e000050 + i * 0x100, 2, 1, 0⟩
def CTXTAB_DLSTAT_SLWAIT (i : Nat) : Fld := ⟨0x8e1e000050 + i * 0x100, 3, 1, 0⟩
def CTXTAB_DLSTAT_FLPEND (i : Nat) : Fld := ⟨0x8e1e000050 + i * 0x100, 4, 1, 0⟩
def CTXTAB_DLSTAT_BUSY (i : Nat) : Fld := ⟨0x8e1e000050 + i * 0x100, 5, 1, 0⟩
def CTXTAB_DLSTAT_COUNT (i : Nat) : Fld := ⟨0x8e1e000050 + i * 0x100, 8, 8, 0⟩
def CTXTAB_DLSTAT_WAITSNAP (i : Nat) : Fld := ⟨0x8e1e000050 + i * 0x100, 16, 24, 0⟩
def CTXTAB_DLSTAT_QUIET (i : Nat) : Fld := ⟨0x8e1e000050 + i * 0x100, 40, 20, 0⟩
def SCHED_CTX_EFF (d i : Nat) : Fld := ⟨0x8E00000000 + d * 0x1000000000 + 0x5000000 + i * 8, 0, 4, 0⟩
def SCHED_CTX_SUSP (d i : Nat) : Fld := ⟨0x8E00000000 + d * 0x1000000000 + 0x5000000 + i * 8, 4, 1, 0⟩
def SCHED_CTX_SOLE (d i : Nat) : Fld := ⟨0x8E00000000 + d * 0x1000000000 + 0x5000000 + i * 8, 5, 1, 0⟩
def SCHED_CTX_LOSTSIDE (d i : Nat) : Fld := ⟨0x8E00000000 + d * 0x1000000000 + 0x5000000 + i * 8, 6, 1, 0⟩
def SCHED_STAT_DISPATCH (d i : Nat) : Fld := ⟨0x8E00000000 + d * 0x1000000000 + 0x5000800 + i * 8, 0, 32, 0⟩
def SCHED_STAT_OLDEST (d i : Nat) : Fld := ⟨0x8E00000000 + d * 0x1000000000 + 0x5000800 + i * 8, 32, 16, 0⟩
def SCHED_STAT_SUSPREADY (d i : Nat) : Fld := ⟨0x8E00000000 + d * 0x1000000000 + 0x5000800 + i * 8, 48, 16, 0⟩
def CTXTAB_PTROOT_EN (i : Nat) : Fld := ⟨0x8e1e000018 + i * 0x100, 0, 1, 0⟩
def CTXTAB_PTROOT_ROOT (i : Nat) : Fld := ⟨0x8e1e000018 + i * 0x100, 12, 28, 0⟩
def TUFT_TLBSTAT_MISSES (d i : Nat) : Fld := ⟨0x8E00000000 + d * 0x1000000000 + 0x48 + i * 0x100000, 0, 32, 0⟩
def TUFT_TLBSTAT_WALKERR (d i : Nat) : Fld := ⟨0x8E00000000 + d * 0x1000000000 + 0x48 + i * 0x100000, 32, 16, 0⟩
def TUFT_TLBSTAT_INUSE (d i : Nat) : Fld := ⟨0x8E00000000 + d * 0x1000000000 + 0x48 + i * 0x100000, 48, 9, 0⟩
def BANK_OWN_KIND (d i : Nat) : Fld := ⟨0x8E00000000 + d * 0x1000000000 + 0x4000000 + i * 0x40, 0, 3, 0⟩
def BANK_OWN_ID (d i : Nat) : Fld := ⟨0x8E00000000 + d * 0x1000000000 + 0x4000000 + i * 0x40, 8, 8, 0⟩
def BANK_OWN_SHRD (d i : Nat) : Fld := ⟨0x8E00000000 + d * 0x1000000000 + 0x4000000 + i * 0x40, 16, 1, 0⟩
def BANK_OWN_DONE (d i : Nat) : Fld := ⟨0x8E00000000 + d * 0x1000000000 + 0x4000000 + i * 0x40, 63, 1, 1⟩
def BANK_PWR_REQ (d i : Nat) : Fld := ⟨0x8E00000000 + d * 0x1000000000 + 0x4000008 + i * 0x40, 0, 2, 0⟩
def BANK_PWR_STATE (d i : Nat) : Fld := ⟨0x8E00000000 + d * 0x1000000000 + 0x4000008 + i * 0x40, 2, 2, 0⟩
def BANK_PWR_AUTOWAKE (d i : Nat) : Fld := ⟨0x8E00000000 + d * 0x1000000000 + 0x4000008 + i * 0x40, 4, 1, 0⟩
def BANK_PWR_RETEXIT (d i : Nat) : Fld := ⟨0x8E00000000 + d * 0x1000000000 + 0x4000008 + i * 0x40, 5, 1, 0⟩
def BANK_CFG_URGENT (d i : Nat) : Fld := ⟨0x8E00000000 + d * 0x1000000000 + 0x4000010 + i * 0x40, 0, 1, 0⟩
def BANK_STAT_CONFL (d i : Nat) : Fld := ⟨0x8E00000000 + d * 0x1000000000 + 0x4000018 + i * 0x40, 0, 16, 0⟩
def BANK_STAT_WLOST (d i : Nat) : Fld := ⟨0x8E00000000 + d * 0x1000000000 + 0x4000018 + i * 0x40, 16, 16, 0⟩
def BANK_STAT_NOTOWNED (d i : Nat) : Fld := ⟨0x8E00000000 + d * 0x1000000000 + 0x4000018 + i * 0x40, 32, 16, 0⟩
def BANK_STAT_PHYS (d i : Nat) : Fld := ⟨0x8E00000000 + d * 0x1000000000 + 0x4000018 + i * 0x40, 48, 7, i⟩
def BANK_ERR_CE (d i : Nat) : Fld := ⟨0x8E00000000 + d * 0x1000000000 + 0x4000020 + i * 0x40, 0, 16, 0⟩
def BANK_ERR_UE (d i : Nat) : Fld := ⟨0x8E00000000 + d * 0x1000000000 + 0x4000020 + i * 0x40, 16, 16, 0⟩
def BANK_ERR_LASTWORD (d i : Nat) : Fld := ⟨0x8E00000000 + d * 0x1000000000 + 0x4000020 + i * 0x40, 32, 17, 0⟩
def BANK_DIE_RETBLK (d : Nat) : Fld := ⟨0x8E00000000 + d * 0x1000000000 + 0x4001000, 0, 1, 0⟩
def BANK_DIE_RETEXITS (d : Nat) : Fld := ⟨0x8E00000000 + d * 0x1000000000 + 0x4001000, 16, 16, 0⟩
def FLUME_STAT_STATE (d i : Nat) : Fld := ⟨0x8E00000000 + d * 0x1000000000 + (if d = 0 then 0x19000000 else 0x3000000) + i * 0x1000, 0, 2, 0⟩
def FLUME_STAT_CTX (d i : Nat) : Fld := ⟨0x8E00000000 + d * 0x1000000000 + (if d = 0 then 0x19000000 else 0x3000000) + i * 0x1000, 8, 8, 0⟩
def FLUME_STAT_SIDE (d i : Nat) : Fld := ⟨0x8E00000000 + d * 0x1000000000 + (if d = 0 then 0x19000000 else 0x3000000) + i * 0x1000, 16, 1, 0⟩
def FLUME_STAT_CODE (d i : Nat) : Fld := ⟨0x8E00000000 + d * 0x1000000000 + (if d = 0 then 0x19000000 else 0x3000000) + i * 0x1000, 32, 16, 0⟩
def FLUME_CUR_ADDR (d i : Nat) : Fld := ⟨0x8E00000000 + d * 0x1000000000 + (if d = 0 then 0x19000008 else 0x3000008) + i * 0x1000, 0, 48, 0⟩
def FLUME_CUR_PHYS (d i : Nat) : Fld := ⟨0x8E00000000 + d * 0x1000000000 + (if d = 0 then 0x19000008 else 0x3000008) + i * 0x1000, 48, 1, 0⟩
def FLUME_PROG_BYTES (d i : Nat) : Fld := ⟨0x8E00000000 + d * 0x1000000000 + (if d = 0 then 0x19000010 else 0x3000010) + i * 0x1000, 0, 40, 0⟩
def FLUME_PROG_LOST (d i : Nat) : Fld := ⟨0x8E00000000 + d * 0x1000000000 + (if d = 0 then 0x19000010 else 0x3000010) + i * 0x1000, 40, 16, 0⟩
def FLUME_POS_ROW (d i : Nat) : Fld := ⟨0x8E00000000 + d * 0x1000000000 + (if d = 0 then 0x19000018 else 0x3000018) + i * 0x1000, 0, 24, 0⟩
def FLUME_POS_OFFSET (d i : Nat) : Fld := ⟨0x8E00000000 + d * 0x1000000000 + (if d = 0 then 0x19000018 else 0x3000018) + i * 0x1000, 24, 40, 0⟩
def FLUME_CTL_KILL (d i : Nat) : Fld := ⟨0x8E00000000 + d * 0x1000000000 + (if d = 0 then 0x19000020 else 0x3000020) + i * 0x1000, 0, 1, 0⟩
def FLUME_TLB_MISSES (d : Nat) : Fld := ⟨0x8E00000000 + d * 0x1000000000 + (if d = 0 then 0x19040000 else 0x3040000), 0, 32, 0⟩
def FLUME_TLB_WALKERR (d : Nat) : Fld := ⟨0x8E00000000 + d * 0x1000000000 + (if d = 0 then 0x19040000 else 0x3040000), 32, 16, 0⟩
def FLUME_TLB_INUSE (d : Nat) : Fld := ⟨0x8E00000000 + d * 0x1000000000 + (if d = 0 then 0x19040000 else 0x3040000), 48, 8, 0⟩
def MEMCTL_STAT_READY (d : Nat) : Fld := ⟨0x8E00000000 + d * 0x1000000000, 0, 1, 0⟩
def MEMCTL_STAT_REFX (d : Nat) : Fld := ⟨0x8E00000000 + d * 0x1000000000, 1, 2, 0⟩
def MEMCTL_ECC_CE (d : Nat) : Fld := ⟨0x8E00000000 + d * 0x1000000000 + 8, 0, 32, 0⟩
def MEMCTL_ECC_UE (d : Nat) : Fld := ⟨0x8E00000000 + d * 0x1000000000 + 8, 32, 16, 0⟩
def MEMCTL_CEADDR_ADDR (d : Nat) : Fld := ⟨0x8E00000000 + d * 0x1000000000 + 0x10, 3, 37, 0⟩
def MEMCTL_CEADDR_VALID (d : Nat) : Fld := ⟨0x8E00000000 + d * 0x1000000000 + 0x10, 63, 1, 0⟩
def MEMCTL_UEADDR_ADDR (d : Nat) : Fld := ⟨0x8E00000000 + d * 0x1000000000 + 0x18, 3, 37, 0⟩
def MEMCTL_UEADDR_SRC (d : Nat) : Fld := ⟨0x8E00000000 + d * 0x1000000000 + 0x18, 40, 2, 0⟩
def MEMCTL_UEADDR_VALID (d : Nat) : Fld := ⟨0x8E00000000 + d * 0x1000000000 + 0x18, 63, 1, 0⟩
def MEMCTL_SCRUB_EN (d : Nat) : Fld := ⟨0x8E00000000 + d * 0x1000000000 + 0x20, 0, 1, 1⟩
def MEMCTL_SCRUB_PERIOD (d : Nat) : Fld := ⟨0x8E00000000 + d * 0x1000000000 + 0x20, 8, 8, 24⟩
def MEMCTL_SCRUB_PASSES (d : Nat) : Fld := ⟨0x8E00000000 + d * 0x1000000000 + 0x20, 16, 16, 0⟩
def MEMCTL_INJ_INJCE (d : Nat) : Fld := ⟨0x8E00000000 + d * 0x1000000000 + 0x28, 0, 1, 0⟩
def MEMCTL_INJ_INJUE (d : Nat) : Fld := ⟨0x8E00000000 + d * 0x1000000000 + 0x28, 1, 1, 0⟩
def DREDGE_CTL_START (d : Nat) : Fld := ⟨0x8E00000000 + d * 0x1000000000 + (if d = 0 then 0x1b000000 else 0x9000000), 0, 1, 0⟩
def DREDGE_CTL_STOP (d : Nat) : Fld := ⟨0x8E00000000 + d * 0x1000000000 + (if d = 0 then 0x1b000000 else 0x9000000), 1, 1, 0⟩
def DREDGE_CTL_ALG (d : Nat) : Fld := ⟨0x8E00000000 + d * 0x1000000000 + (if d = 0 then 0x1b000000 else 0x9000000), 2, 2, 0⟩
def DREDGE_CTL_DESTR (d : Nat) : Fld := ⟨0x8E00000000 + d * 0x1000000000 + (if d = 0 then 0x1b000000 else 0x9000000), 4, 1, 0⟩
def DREDGE_CTL_AUTOREP (d : Nat) : Fld := ⟨0x8E00000000 + d * 0x1000000000 + (if d = 0 then 0x1b000000 else 0x9000000), 5, 1, 1⟩
def DREDGE_CTL_DRAM (d : Nat) : Fld := ⟨0x8E00000000 + d * 0x1000000000 + (if d = 0 then 0x1b000000 else 0x9000000), 6, 1, 0⟩
def DREDGE_CTL_GAP (d : Nat) : Fld := ⟨0x8E00000000 + d * 0x1000000000 + (if d = 0 then 0x1b000000 else 0x9000000), 16, 8, 0⟩
def DREDGE_RANGE_FIRST (d : Nat) : Fld := ⟨0x8E00000000 + d * 0x1000000000 + (if d = 0 then 0x1b000008 else 0x9000008), 0, 28, 0⟩
def DREDGE_RANGE_COUNT (d : Nat) : Fld := ⟨0x8E00000000 + d * 0x1000000000 + (if d = 0 then 0x1b000008 else 0x9000008), 28, 28, 0⟩
def DREDGE_RANGE_BANK (d : Nat) : Fld := ⟨0x8E00000000 + d * 0x1000000000 + (if d = 0 then 0x1b000008 else 0x9000008), 56, 7, 0⟩
def DREDGE_PAUSE_MS (d : Nat) : Fld := ⟨0x8E00000000 + d * 0x1000000000 + (if d = 0 then 0x1b000010 else 0x9000010), 0, 16, 100⟩
def DREDGE_STAT_STATE (d : Nat) : Fld := ⟨0x8E00000000 + d * 0x1000000000 + (if d = 0 then 0x1b000018 else 0x9000018), 0, 3, 0⟩
def DREDGE_STAT_EMPTY (d : Nat) : Fld := ⟨0x8E00000000 + d * 0x1000000000 + (if d = 0 then 0x1b000018 else 0x9000018), 3, 1, 0⟩
def DREDGE_STAT_FAILED (d : Nat) : Fld := ⟨0x8E00000000 + d * 0x1000000000 + (if d = 0 then 0x1b000018 else 0x9000018), 4, 1, 0⟩
def DREDGE_STAT_REPAIRED (d : Nat) : Fld := ⟨0x8E00000000 + d * 0x1000000000 + (if d = 0 then 0x1b000018 else 0x9000018), 5, 1, 0⟩
def DREDGE_STAT_ERR (d : Nat) : Fld := ⟨0x8E00000000 + d * 0x1000000000 + (if d = 0 then 0x1b000018 else 0x9000018), 6, 4, 0⟩
def DREDGE_STAT_DONE (d : Nat) : Fld := ⟨0x8E00000000 + d * 0x1000000000 + (if d = 0 then 0x1b000018 else 0x9000018), 10, 28, 0⟩
def DREDGE_STAT_YIELDS (d : Nat) : Fld := ⟨0x8E00000000 + d * 0x1000000000 + (if d = 0 then 0x1b000018 else 0x9000018), 38, 16, 0⟩
def DREDGE_STAT_SKIPPED (d : Nat) : Fld := ⟨0x8E00000000 + d * 0x1000000000 + (if d = 0 then 0x1b000018 else 0x9000018), 54, 8, 0⟩
def DREDGE_REPAIR_MAPA (d : Nat) : Fld := ⟨0x8E00000000 + d * 0x1000000000 + (if d = 0 then 0x1b000020 else 0x9000020), 0, 7, 127⟩
def DREDGE_REPAIR_BADA (d : Nat) : Fld := ⟨0x8E00000000 + d * 0x1000000000 + (if d = 0 then 0x1b000020 else 0x9000020), 7, 1, 0⟩
def DREDGE_REPAIR_MAPB (d : Nat) : Fld := ⟨0x8E00000000 + d * 0x1000000000 + (if d = 0 then 0x1b000020 else 0x9000020), 8, 7, 127⟩
def DREDGE_REPAIR_BADB (d : Nat) : Fld := ⟨0x8E00000000 + d * 0x1000000000 + (if d = 0 then 0x1b000020 else 0x9000020), 15, 1, 0⟩
def DREDGE_NOTE_CTX (d : Nat) : Fld := ⟨0x8E00000000 + d * 0x1000000000 + (if d = 0 then 0x1b000028 else 0x9000028), 0, 8, 0⟩
def DREDGE_NOTE_IA (d : Nat) : Fld := ⟨0x8E00000000 + d * 0x1000000000 + (if d = 0 then 0x1b000028 else 0x9000028), 8, 20, 0⟩
def DREDGE_NOTE_PORT (d : Nat) : Fld := ⟨0x8E00000000 + d * 0x1000000000 + (if d = 0 then 0x1b000028 else 0x9000028), 28, 2, 0⟩
def DREDGE_NOTE_EN (d : Nat) : Fld := ⟨0x8E00000000 + d * 0x1000000000 + (if d = 0 then 0x1b000028 else 0x9000028), 30, 1, 0⟩
def DREDGE_FAILS_COUNT (d : Nat) : Fld := ⟨0x8E00000000 + d * 0x1000000000 + (if d = 0 then 0x1b000030 else 0x9000030), 0, 16, 0⟩
def DREDGE_FAILS_NEXT (d : Nat) : Fld := ⟨0x8E00000000 + d * 0x1000000000 + (if d = 0 then 0x1b000030 else 0x9000030), 16, 4, 0⟩
def DREDGE_FAIL_WHERE_STRIP (d i : Nat) : Fld := ⟨0x8E00000000 + d * 0x1000000000 + (if d = 0 then 0x1b000100 else 0x9000100) + i * 0x10, 0, 28, 0⟩
def DREDGE_FAIL_WHERE_LINE (d i : Nat) : Fld := ⟨0x8E00000000 + d * 0x1000000000 + (if d = 0 then 0x1b000100 else 0x9000100) + i * 0x10, 28, 6, 0⟩
def DREDGE_FAIL_WHERE_PHYS (d i : Nat) : Fld := ⟨0x8E00000000 + d * 0x1000000000 + (if d = 0 then 0x1b000100 else 0x9000100) + i * 0x10, 34, 7, 0⟩
def DREDGE_FAIL_WHERE_ELEM (d i : Nat) : Fld := ⟨0x8E00000000 + d * 0x1000000000 + (if d = 0 then 0x1b000100 else 0x9000100) + i * 0x10, 41, 3, 0⟩
def DREDGE_FAIL_WHERE_OP (d i : Nat) : Fld := ⟨0x8E00000000 + d * 0x1000000000 + (if d = 0 then 0x1b000100 else 0x9000100) + i * 0x10, 44, 3, 0⟩
def DREDGE_FAIL_WHERE_SUBS (d i : Nat) : Fld := ⟨0x8E00000000 + d * 0x1000000000 + (if d = 0 then 0x1b000100 else 0x9000100) + i * 0x10, 47, 8, 0⟩
def DREDGE_FAIL_WHERE_DESTR (d i : Nat) : Fld := ⟨0x8E00000000 + d * 0x1000000000 + (if d = 0 then 0x1b000100 else 0x9000100) + i * 0x10, 55, 1, 0⟩
def DREDGE_FAIL_BITS_XOR (d i : Nat) : Fld := ⟨0x8E00000000 + d * 0x1000000000 + (if d = 0 then 0x1b000108 else 0x9000108) + i * 0x10, 0, 64, 0⟩
def RUNNEL_CFG_BASE (d i : Nat) : Fld := ⟨0x8E00000000 + d * 0x1000000000 + (if d = 0 then 0x18000000 else 0x2000000) + i * 0x40, 0, 17, 0⟩
def RUNNEL_CFG_CAP (d i : Nat) : Fld := ⟨0x8E00000000 + d * 0x1000000000 + (if d = 0 then 0x18000000 else 0x2000000) + i * 0x40, 17, 18, 0⟩
def RUNNEL_CFG_PUSH (d i : Nat) : Fld := ⟨0x8E00000000 + d * 0x1000000000 + (if d = 0 then 0x18000000 else 0x2000000) + i * 0x40, 35, 1, 0⟩
def RUNNEL_PROD_ID (d i : Nat) : Fld := ⟨0x8E00000000 + d * 0x1000000000 + (if d = 0 then 0x18000008 else 0x2000008) + i * 0x40, 0, 8, 0⟩
def RUNNEL_PROD_KIND (d i : Nat) : Fld := ⟨0x8E00000000 + d * 0x1000000000 + (if d = 0 then 0x18000008 else 0x2000008) + i * 0x40, 8, 1, 0⟩
def RUNNEL_CONS_ID (d i : Nat) : Fld := ⟨0x8E00000000 + d * 0x1000000000 + (if d = 0 then 0x18000010 else 0x2000010) + i * 0x40, 0, 8, 0⟩
def RUNNEL_CONS_KIND (d i : Nat) : Fld := ⟨0x8E00000000 + d * 0x1000000000 + (if d = 0 then 0x18000010 else 0x2000010) + i * 0x40, 8, 1, 0⟩
def RUNNEL_PUSH_IA (d i : Nat) : Fld := ⟨0x8E00000000 + d * 0x1000000000 + (if d = 0 then 0x18000018 else 0x2000018) + i * 0x40, 0, 20, 0⟩
def RUNNEL_PUSH_PORT (d i : Nat) : Fld := ⟨0x8E00000000 + d * 0x1000000000 + (if d = 0 then 0x18000018 else 0x2000018) + i * 0x40, 20, 2, 0⟩
def RUNNEL_PUSH_SPAN (d i : Nat) : Fld := ⟨0x8E00000000 + d * 0x1000000000 + (if d = 0 then 0x18000018 else 0x2000018) + i * 0x40, 22, 4, 0⟩
def RUNNEL_PUSH_FHI (d i : Nat) : Fld := ⟨0x8E00000000 + d * 0x1000000000 + (if d = 0 then 0x18000018 else 0x2000018) + i * 0x40, 26, 12, 0⟩
def RUNNEL_PUSH_CRED (d i : Nat) : Fld := ⟨0x8E00000000 + d * 0x1000000000 + (if d = 0 then 0x18000018 else 0x2000018) + i * 0x40, 38, 13, 0⟩
def RUNNEL_WMARK_HI (d i : Nat) : Fld := ⟨0x8E00000000 + d * 0x1000000000 + (if d = 0 then 0x18000020 else 0x2000020) + i * 0x40, 0, 18, 0⟩
def RUNNEL_WMARK_LO (d i : Nat) : Fld := ⟨0x8E00000000 + d * 0x1000000000 + (if d = 0 then 0x18000020 else 0x2000020) + i * 0x40, 18, 18, 0⟩
def RUNNEL_WMARK_SRC (d i : Nat) : Fld := ⟨0x8E00000000 + d * 0x1000000000 + (if d = 0 then 0x18000020 else 0x2000020) + i * 0x40, 36, 7, 0⟩
def RUNNEL_WMARK_HIEN (d i : Nat) : Fld := ⟨0x8E00000000 + d * 0x1000000000 + (if d = 0 then 0x18000020 else 0x2000020) + i * 0x40, 43, 1, 0⟩
def RUNNEL_WMARK_LOEN (d i : Nat) : Fld := ⟨0x8E00000000 + d * 0x1000000000 + (if d = 0 then 0x18000020 else 0x2000020) + i * 0x40, 44, 1, 0⟩
def RUNNEL_OCC_WORDS (d i : Nat) : Fld := ⟨0x8E00000000 + d * 0x1000000000 + (if d = 0 then 0x18000028 else 0x2000028) + i * 0x40, 0, 18, 0⟩
def RUNNEL_OCC_OPEN (d i : Nat) : Fld := ⟨0x8E00000000 + d * 0x1000000000 + (if d = 0 then 0x18000028 else 0x2000028) + i * 0x40, 18, 18, 0⟩
def RUNNEL_OCC_PKTS (d i : Nat) : Fld := ⟨0x8E00000000 + d * 0x1000000000 + (if d = 0 then 0x18000028 else 0x2000028) + i * 0x40, 36, 16, 0⟩
def RUNNEL_OCC_HELD (d i : Nat) : Fld := ⟨0x8E00000000 + d * 0x1000000000 + (if d = 0 then 0x18000028 else 0x2000028) + i * 0x40, 52, 8, 0⟩
def RUNNEL_STAT_EN (d i : Nat) : Fld := ⟨0x8E00000000 + d * 0x1000000000 + (if d = 0 then 0x18000030 else 0x2000030) + i * 0x40, 0, 1, 0⟩
def RUNNEL_STAT_CFGERR (d i : Nat) : Fld := ⟨0x8E00000000 + d * 0x1000000000 + (if d = 0 then 0x18000030 else 0x2000030) + i * 0x40, 1, 1, 0⟩
def RUNNEL_STAT_OPENPKT (d i : Nat) : Fld := ⟨0x8E00000000 + d * 0x1000000000 + (if d = 0 then 0x18000030 else 0x2000030) + i * 0x40, 2, 1, 0⟩
def RUNNEL_STAT_DOOMED (d i : Nat) : Fld := ⟨0x8E00000000 + d * 0x1000000000 + (if d = 0 then 0x18000030 else 0x2000030) + i * 0x40, 3, 1, 0⟩
def RUNNEL_STAT_ABORTS (d i : Nat) : Fld := ⟨0x8E00000000 + d * 0x1000000000 + (if d = 0 then 0x18000030 else 0x2000030) + i * 0x40, 8, 16, 0⟩
def RUNNEL_STAT_BADPKT (d i : Nat) : Fld := ⟨0x8E00000000 + d * 0x1000000000 + (if d = 0 then 0x18000030 else 0x2000030) + i * 0x40, 24, 16, 0⟩
def RUNNEL_STAT_PUSHTRUNC (d i : Nat) : Fld := ⟨0x8E00000000 + d * 0x1000000000 + (if d = 0 then 0x18000030 else 0x2000030) + i * 0x40, 40, 16, 0⟩
def RUNNEL_SEQ_SER (d i : Nat) : Fld := ⟨0x8E00000000 + d * 0x1000000000 + (if d = 0 then 0x18000038 else 0x2000038) + i * 0x40, 0, 16, 0⟩
def RUNNEL_SEQ_CSER (d i : Nat) : Fld := ⟨0x8E00000000 + d * 0x1000000000 + (if d = 0 then 0x18000038 else 0x2000038) + i * 0x40, 16, 16, 0⟩
def RUNNEL_SEQ_CREDAV (d i : Nat) : Fld := ⟨0x8E00000000 + d * 0x1000000000 + (if d = 0 then 0x18000038 else 0x2000038) + i * 0x40, 32, 13, 0⟩
def RUNNEL_ENG_HELD (d : Nat) : Fld := ⟨0x8E00000000 + d * 0x1000000000 + (if d = 0 then 0x18100000 else 0x2100000), 0, 13, 0⟩
def RUNNEL_ENG_PEAK (d : Nat) : Fld := ⟨0x8E00000000 + d * 0x1000000000 + (if d = 0 then 0x18100000 else 0x2100000), 16, 13, 0⟩
def RUNNEL_ENG_CE (d : Nat) : Fld := ⟨0x8E00000000 + d * 0x1000000000 + (if d = 0 then 0x18100000 else 0x2100000), 32, 16, 0⟩
def RUNNEL_ENG_UE (d : Nat) : Fld := ⟨0x8E00000000 + d * 0x1000000000 + (if d = 0 then 0x18100000 else 0x2100000), 48, 16, 0⟩
def CULV_STAT_STATE (d i : Nat) : Fld := ⟨0x8E00000000 + d * 0x1000000000 + (if d = 0 then 0x1a000000 else 0x8000000) + i * 0x100, 0, 3, 0⟩
def CULV_STAT_HALF (d i : Nat) : Fld := ⟨0x8E00000000 + d * 0x1000000000 + (if d = 0 then 0x1a000000 else 0x8000000) + i * 0x100, 3, 1, 0⟩
def CULV_STAT_RETRAINS (d i : Nat) : Fld := ⟨0x8E00000000 + d * 0x1000000000 + (if d = 0 then 0x1a000000 else 0x8000000) + i * 0x100, 16, 16, 0⟩
def CULV_STAT_DOWNS (d i : Nat) : Fld := ⟨0x8E00000000 + d * 0x1000000000 + (if d = 0 then 0x1a000000 else 0x8000000) + i * 0x100, 32, 16, 0⟩
def CULV_ERR_CRCERR (d i : Nat) : Fld := ⟨0x8E00000000 + d * 0x1000000000 + (if d = 0 then 0x1a000008 else 0x8000008) + i * 0x100, 0, 32, 0⟩
def CULV_ERR_REPLAYS (d i : Nat) : Fld := ⟨0x8E00000000 + d * 0x1000000000 + (if d = 0 then 0x1a000008 else 0x8000008) + i * 0x100, 32, 32, 0⟩
def CULV_TXFLITS_COUNT (d i : Nat) : Fld := ⟨0x8E00000000 + d * 0x1000000000 + (if d = 0 then 0x1a000010 else 0x8000010) + i * 0x100, 0, 64, 0⟩
def CULV_RXFLITS_COUNT (d i : Nat) : Fld := ⟨0x8E00000000 + d * 0x1000000000 + (if d = 0 then 0x1a000018 else 0x8000018) + i * 0x100, 0, 64, 0⟩
def CULV_CTL_RETRAIN (d i : Nat) : Fld := ⟨0x8E00000000 + d * 0x1000000000 + (if d = 0 then 0x1a000020 else 0x8000020) + i * 0x100, 0, 1, 0⟩
def CULV_CTL_REPLIM (d i : Nat) : Fld := ⟨0x8E00000000 + d * 0x1000000000 + (if d = 0 then 0x1a000020 else 0x8000020) + i * 0x100, 8, 8, 8⟩
def CULV_LOST_RESENT (d i : Nat) : Fld := ⟨0x8E00000000 + d * 0x1000000000 + (if d = 0 then 0x1a000028 else 0x8000028) + i * 0x100, 0, 32, 0⟩
def CULV_LOST_LOSTTOK (d i : Nat) : Fld := ⟨0x8E00000000 + d * 0x1000000000 + (if d = 0 then 0x1a000028 else 0x8000028) + i * 0x100, 32, 32, 0⟩
def SLUICE_CLAIM_ORIGIN (i : Nat) : Fld := ⟨0x8e12000000 + i * 0x20, 0, 8, 0⟩
def SLUICE_CLAIM_CTX (i : Nat) : Fld := ⟨0x8e12000000 + i * 0x20, 8, 8, 0⟩
def SLUICE_HOLDER_ORIGIN (i : Nat) : Fld := ⟨0x8e12000008 + i * 0x20, 0, 8, 0⟩
def SLUICE_HOLDER_CTX (i : Nat) : Fld := ⟨0x8e12000008 + i * 0x20, 8, 8, 0⟩
def SLUICE_HOLDER_HELD (i : Nat) : Fld := ⟨0x8e12000008 + i * 0x20, 16, 1, 0⟩
def SLUICE_HOLDER_ABANDONED (i : Nat) : Fld := ⟨0x8e12000008 + i * 0x20, 17, 1, 0⟩
def SLUICE_RELEASE_ORIGIN (i : Nat) : Fld := ⟨0x8e12000010 + i * 0x20, 0, 8, 0⟩
def SLUICE_RELEASE_CTX (i : Nat) : Fld := ⟨0x8e12000010 + i * 0x20, 8, 8, 0⟩
def SLUICE_RELEASE_FORCE (i : Nat) : Fld := ⟨0x8e12000010 + i * 0x20, 16, 1, 0⟩
def SLUICE_STAT_WAITERS (i : Nat) : Fld := ⟨0x8e12000018 + i * 0x20, 0, 12, 0⟩
def SLUICE_STAT_WPRIO (i : Nat) : Fld := ⟨0x8e12000018 + i * 0x20, 12, 4, 0⟩
def SLUICE_STAT_GRANTS (i : Nat) : Fld := ⟨0x8e12000018 + i * 0x20, 16, 16, 0⟩
def SLUICE_STAT_TIMEOUTS (i : Nat) : Fld := ⟨0x8e12000018 + i * 0x20, 32, 16, 0⟩
def SLUICE_STAT_ABANDONS (i : Nat) : Fld := ⟨0x8e12000018 + i * 0x20, 48, 8, 0⟩
def SLUICE_STAT_BADCLAIM (i : Nat) : Fld := ⟨0x8e12000018 + i * 0x20, 56, 1, 0⟩
def SLUICE_POOL_FREE : Fld := ⟨0x8e12008000, 0, 12, 2048⟩
def SLUICE_POOL_MINFREE : Fld := ⟨0x8e12008000, 16, 12, 2048⟩
def SLUICE_POOL_POOLFULL : Fld := ⟨0x8e12008000, 32, 16, 0⟩
def CTXTAB_PARK_EN (i : Nat) : Fld := ⟨0x8e1e000030 + i * 0x100, 0, 1, 0⟩
def CTXTAB_PARK_SIZE (i : Nat) : Fld := ⟨0x8e1e000030 + i * 0x100, 1, 4, 7⟩
def CTXTAB_PARK_LOW (i : Nat) : Fld := ⟨0x8e1e000030 + i * 0x100, 5, 1, 0⟩
def CTXTAB_PARK_RSEQ (i : Nat) : Fld := ⟨0x8e1e000030 + i * 0x100, 6, 6, 0⟩
def CTXTAB_PARK_BASE (i : Nat) : Fld := ⟨0x8e1e000030 + i * 0x100, 12, 28, 0⟩
def CTXTAB_PARK_FREE (i : Nat) : Fld := ⟨0x8e1e000030 + i * 0x100, 40, 16, 0⟩
def UST_OUT_EN (i : Nat) : Fld := ⟨0x8e15011000 + i * 8, 0, 64, 0⟩
def UST_SLUICE_EN (i : Nat) : Fld := ⟨0x8e15012000 + i * 8, 0, 64, 0⟩
def UST_RUN_EN (i j : Nat) : Fld := ⟨0x8e15000000 + i * 0x1000 + j * 8, 0, 64, 0⟩
def UST_FLUME_EN (i : Nat) : Fld := ⟨0x8e15010000 + i * 8, 0, 64, 0⟩
def UST_UNIT_EN (i : Nat) : Fld := ⟨0x8e15013000 + i * 8, 0, 64, 0⟩
def UST_STAT_BUSY : Fld := ⟨0x8e15020000, 0, 1, 0⟩
def UST_STAT_FORCEFAIL : Fld := ⟨0x8e15020000, 1, 1, 0⟩
def UST_STAT_LASTDIR : Fld := ⟨0x8e15020000, 2, 2, 0⟩
def UST_STAT_LASTCLASS : Fld := ⟨0x8e15020000, 4, 3, 0⟩
def UST_STAT_LASTDIE : Fld := ⟨0x8e15020000, 7, 3, 0⟩
def UST_STAT_LASTINDEX : Fld := ⟨0x8e15020000, 16, 16, 0⟩
def UST_STAT_MISMATCH : Fld := ⟨0x8e15020000, 32, 16, 0⟩
def UST_STAT_PASSES : Fld := ⟨0x8e15020000, 48, 16, 0⟩
def AXIS_CFG_MODE (i : Nat) : Fld := ⟨0x8e01000000 + i * 0x1000, 0, 4, 0⟩
def AXIS_CFG_QMULT (i : Nat) : Fld := ⟨0x8e01000000 + i * 0x1000, 4, 2, 0⟩
def AXIS_CFG_FILT (i : Nat) : Fld := ⟨0x8e01000000 + i * 0x1000, 6, 8, 0⟩
def AXIS_CFG_IDXMODE (i : Nat) : Fld := ⟨0x8e01000000 + i * 0x1000, 14, 2, 0⟩
def AXIS_CFG_IDXQUAL (i : Nat) : Fld := ⟨0x8e01000000 + i * 0x1000, 16, 1, 0⟩
def AXIS_CFG_INV (i : Nat) : Fld := ⟨0x8e01000000 + i * 0x1000, 17, 3, 0⟩
def AXIS_CFG_TERM (i : Nat) : Fld := ⟨0x8e01000000 + i * 0x1000, 20, 3, 0⟩
def AXIS_CFG_DIRINV (i : Nat) : Fld := ⟨0x8e01000000 + i * 0x1000, 23, 1, 0⟩
def AXIS_CNT_CNT (i : Nat) : Fld := ⟨0x8e01000008 + i * 0x1000, 0, 64, 0⟩
def AXIS_PRESET_VALUE (i : Nat) : Fld := ⟨0x8e01000010 + i * 0x1000, 0, 64, 0⟩
def AXIS_IDXCAP_CNT (i : Nat) : Fld := ⟨0x8e01000018 + i * 0x1000, 0, 64, 0⟩
def AXIS_IDXTIME_TIME (i : Nat) : Fld := ⟨0x8e01000020 + i * 0x1000, 0, 64, 0⟩
def AXIS_CMP_VALUE (i : Nat) : Fld := ⟨0x8e01000028 + i * 0x1000, 0, 64, 0⟩
def AXIS_EVT_CAUSEEN (i : Nat) : Fld := ⟨0x8e01000030 + i * 0x1000, 0, 6, 0⟩
def AXIS_STAT_LOS (i : Nat) : Fld := ⟨0x8e01000038 + i * 0x1000, 0, 1, 0⟩
def AXIS_STAT_LOSTPOS (i : Nat) : Fld := ⟨0x8e01000038 + i * 0x1000, 1, 1, 0⟩
def AXIS_STAT_COARSE (i : Nat) : Fld := ⟨0x8e01000038 + i * 0x1000, 2, 1, 0⟩
def AXIS_STAT_AMP (i : Nat) : Fld := ⟨0x8e01000038 + i * 0x1000, 3, 1, 0⟩
def AXIS_STAT_CFGERR (i : Nat) : Fld := ⟨0x8e01000038 + i * 0x1000, 4, 1, 0⟩
def AXIS_STAT_HALL (i : Nat) : Fld := ⟨0x8e01000038 + i * 0x1000, 5, 3, 0⟩
def AXIS_STAT_QERR (i : Nat) : Fld := ⟨0x8e01000038 + i * 0x1000, 16, 16, 0⟩
def AXIS_STAT_IDXCOUNT (i : Nat) : Fld := ⟨0x8e01000038 + i * 0x1000, 32, 16, 0⟩
def AXIS_SCCAL_SOFF (i : Nat) : Fld := ⟨0x8e01000040 + i * 0x1000, 0, 16, 0⟩
def AXIS_SCCAL_COFF (i : Nat) : Fld := ⟨0x8e01000040 + i * 0x1000, 16, 16, 0⟩
def AXIS_SCCAL_CGAIN (i : Nat) : Fld := ⟨0x8e01000040 + i * 0x1000, 32, 16, 32768⟩
def AXIS_SCAMP_AMIN (i : Nat) : Fld := ⟨0x8e01000048 + i * 0x1000, 0, 16, 4096⟩
def AXIS_SCAMP_AMAX (i : Nat) : Fld := ⟨0x8e01000048 + i * 0x1000, 16, 16, 28672⟩
def AXIS_SSI_BITS (i : Nat) : Fld := ⟨0x8e01000050 + i * 0x1000, 0, 6, 25⟩
def AXIS_SSI_EXTRA (i : Nat) : Fld := ⟨0x8e01000050 + i * 0x1000, 6, 2, 0⟩
def AXIS_SSI_GRAY (i : Nat) : Fld := ⟨0x8e01000050 + i * 0x1000, 8, 1, 0⟩
def AXIS_SSI_ERRLVL (i : Nat) : Fld := ⟨0x8e01000050 + i * 0x1000, 9, 1, 0⟩
def AXIS_SSI_DIV (i : Nat) : Fld := ⟨0x8e01000050 + i * 0x1000, 10, 12, 399⟩
def AXIS_SSI_DELAY (i : Nat) : Fld := ⟨0x8e01000050 + i * 0x1000, 22, 11, 0⟩
def AXIS_SSI_TM (i : Nat) : Fld := ⟨0x8e01000050 + i * 0x1000, 33, 7, 20⟩
def AXIS_SSI_TRIGSRC (i : Nat) : Fld := ⟨0x8e01000050 + i * 0x1000, 40, 1, 0⟩
def AXIS_SSI_TIM (i : Nat) : Fld := ⟨0x8e01000050 + i * 0x1000, 41, 6, 0⟩
def AXIS_SSI_PER (i : Nat) : Fld := ⟨0x8e01000050 + i * 0x1000, 47, 16, 100⟩
def AXIS_SSIVAL_WORD (i : Nat) : Fld := ⟨0x8e01000058 + i * 0x1000, 0, 32, 0⟩
def AXIS_SSIVAL_EXTRA (i : Nat) : Fld := ⟨0x8e01000058 + i * 0x1000, 32, 2, 0⟩
def AXIS_SSIVAL_SKIPS (i : Nat) : Fld := ⟨0x8e01000058 + i * 0x1000, 48, 16, 0⟩
def AXIS_DAC_CODE (i : Nat) : Fld := ⟨0x8e01000060 + i * 0x1000, 0, 18, 0⟩
def AXIS_DAC_OE (i : Nat) : Fld := ⟨0x8e01000060 + i * 0x1000, 32, 1, 0⟩
def AXIS_DAC_GATEDROP (i : Nat) : Fld := ⟨0x8e01000060 + i * 0x1000, 33, 1, 0⟩
def AXIS_DAC_OEREF (i : Nat) : Fld := ⟨0x8e01000060 + i * 0x1000, 34, 1, 0⟩
def AXIS_DAC_GATEDROPS (i : Nat) : Fld := ⟨0x8e01000060 + i * 0x1000, 35, 8, 0⟩
def AXIS_DAC_DEFERS (i : Nat) : Fld := ⟨0x8e01000060 + i * 0x1000, 48, 16, 0⟩
def ANA_IN_CFG_EN (i : Nat) : Fld := ⟨0x8e03000000 + i * 0x100, 0, 1, 0⟩
def ANA_IN_CFG_AVG (i : Nat) : Fld := ⟨0x8e03000000 + i * 0x100, 1, 8, 0⟩
def ANA_IN_CFG_MAINS (i : Nat) : Fld := ⟨0x8e03000000 + i * 0x100, 9, 1, 0⟩
def ANA_IN_CFG_HYST (i : Nat) : Fld := ⟨0x8e03000000 + i * 0x100, 10, 16, 256⟩
def ANA_IN_VAL_CODE (i : Nat) : Fld := ⟨0x8e03000008 + i * 0x100, 0, 16, 0⟩
def ANA_IN_VAL_OVR (i : Nat) : Fld := ⟨0x8e03000008 + i * 0x100, 16, 1, 0⟩
def ANA_IN_VAL_PERIOD (i : Nat) : Fld := ⟨0x8e03000008 + i * 0x100, 32, 32, 0⟩
def ANA_RES_CFG_EN (i : Nat) : Fld := ⟨0x8e03001000 + i * 0x100, 0, 1, 0⟩
def ANA_RES_CFG_EXCF (i : Nat) : Fld := ⟨0x8e03001000 + i * 0x100, 1, 15, 10000⟩
def ANA_RES_CFG_AMP (i : Nat) : Fld := ⟨0x8e03001000 + i * 0x100, 16, 7, 50⟩
def ANA_RES_CFG_PHASE (i : Nat) : Fld := ⟨0x8e03001000 + i * 0x100, 23, 8, 0⟩
def ANA_RES_CFG_LOSLIM (i : Nat) : Fld := ⟨0x8e03001000 + i * 0x100, 32, 16, 2048⟩
def ANA_RES_VAL_ANGLE (i : Nat) : Fld := ⟨0x8e03001008 + i * 0x100, 0, 16, 0⟩
def ANA_RES_VAL_AMPL (i : Nat) : Fld := ⟨0x8e03001008 + i * 0x100, 32, 16, 0⟩
def ANA_RES_VAL_LOS (i : Nat) : Fld := ⟨0x8e03001008 + i * 0x100, 48, 1, 0⟩
def ANA_RES_VAL_RESTART (i : Nat) : Fld := ⟨0x8e03001008 + i * 0x100, 49, 1, 0⟩
def ANA_RES_VAL_OEREF (i : Nat) : Fld := ⟨0x8e03001008 + i * 0x100, 50, 1, 0⟩
def MOTOR_CFG_ALIGN (i : Nat) : Fld := ⟨0x8e02000000 + i * 0x1000, 0, 1, 0⟩
def MOTOR_CFG_LOAD (i : Nat) : Fld := ⟨0x8e02000000 + i * 0x1000, 1, 2, 0⟩
def MOTOR_CFG_TRIPLE (i : Nat) : Fld := ⟨0x8e02000000 + i * 0x1000, 3, 1, 0⟩
def MOTOR_CFG_POL (i : Nat) : Fld := ⟨0x8e02000000 + i * 0x1000, 4, 6, 0⟩
def MOTOR_PER_PERIOD (i : Nat) : Fld := ⟨0x8e02000008 + i * 0x1000, 0, 20, 62500⟩
def MOTOR_PER_DEAD (i : Nat) : Fld := ⟨0x8e02000008 + i * 0x1000, 32, 12, 1000⟩
def MOTOR_PER_MINPW (i : Nat) : Fld := ⟨0x8e02000008 + i * 0x1000, 44, 10, 100⟩
def MOTOR_CMP_ACTIVE (i : Nat) : Fld := ⟨0x8e02000010 + i * 0x1000, 0, 60, 0⟩
def MOTOR_SHADOW_PENDING (i : Nat) : Fld := ⟨0x8e02000018 + i * 0x1000, 0, 60, 0⟩
def MOTOR_SHADOW_READY (i : Nat) : Fld := ⟨0x8e02000018 + i * 0x1000, 60, 1, 0⟩
def MOTOR_CTL_MODES (i : Nat) : Fld := ⟨0x8e02000020 + i * 0x1000, 0, 6, 21⟩
def MOTOR_CTL_OE (i : Nat) : Fld := ⟨0x8e02000020 + i * 0x1000, 8, 1, 0⟩
def MOTOR_CTL_OCTRIP (i : Nat) : Fld := ⟨0x8e02000020 + i * 0x1000, 9, 1, 0⟩
def MOTOR_CTL_GATEDROP (i : Nat) : Fld := ⟨0x8e02000020 + i * 0x1000, 10, 1, 0⟩
def MOTOR_CTL_OEREF (i : Nat) : Fld := ⟨0x8e02000020 + i * 0x1000, 11, 1, 0⟩
def MOTOR_CTL_CFGERR (i : Nat) : Fld := ⟨0x8e02000020 + i * 0x1000, 12, 1, 0⟩
def MOTOR_ADC_SAMPLE (i : Nat) : Fld := ⟨0x8e02000028 + i * 0x1000, 0, 2, 3⟩
def MOTOR_ADC_DELAY (i : Nat) : Fld := ⟨0x8e02000028 + i * 0x1000, 2, 12, 0⟩
def MOTOR_ADC_OVS (i : Nat) : Fld := ⟨0x8e02000028 + i * 0x1000, 14, 2, 0⟩
def MOTOR_ADC_OCLIM (i : Nat) : Fld := ⟨0x8e02000028 + i * 0x1000, 16, 16, 0⟩
def MOTOR_ADC_PEVT (i : Nat) : Fld := ⟨0x8e02000028 + i * 0x1000, 32, 2, 0⟩
def MOTOR_IVAL_CUR (i : Nat) : Fld := ⟨0x8e02000030 + i * 0x1000, 0, 48, 0⟩
def MOTOR_IVAL_SEQ (i : Nat) : Fld := ⟨0x8e02000030 + i * 0x1000, 48, 16, 0⟩
def MOTOR_STAT_OCTRIPS (i : Nat) : Fld := ⟨0x8e02000038 + i * 0x1000, 0, 16, 0⟩
def MOTOR_STAT_GATEDROPS (i : Nat) : Fld := ⟨0x8e02000038 + i * 0x1000, 16, 16, 0⟩
def MOTOR_STAT_RUNFULL (i : Nat) : Fld := ⟨0x8e02000038 + i * 0x1000, 32, 16, 0⟩
def MOTOR_STAT_SKIPS (i : Nat) : Fld := ⟨0x8e02000038 + i * 0x1000, 48, 16, 0⟩
def GPIO_CFG_OE (i : Nat) : Fld := ⟨0x8e04000000 + i * 0x10, 0, 1, 0⟩
def GPIO_CFG_OD (i : Nat) : Fld := ⟨0x8e04000000 + i * 0x10, 1, 1, 0⟩
def GPIO_CFG_DRIVE (i : Nat) : Fld := ⟨0x8e04000000 + i * 0x10, 2, 2, 1⟩
def GPIO_CFG_FILT (i : Nat) : Fld := ⟨0x8e04000000 + i * 0x10, 4, 8, 0⟩
def GPIO_CFG_EDGE (i : Nat) : Fld := ⟨0x8e04000000 + i * 0x10, 12, 2, 0⟩
def GPIO_CFG_INV (i : Nat) : Fld := ⟨0x8e04000000 + i * 0x10, 14, 1, 0⟩
def GPIO_CFG_SRC (i : Nat) : Fld := ⟨0x8e04000000 + i * 0x10, 15, 1, 0⟩
def GPIO_CFG_GATEDROP (i : Nat) : Fld := ⟨0x8e04000000 + i * 0x10, 16, 1, 0⟩
def GPIO_CFG_OEREF (i : Nat) : Fld := ⟨0x8e04000000 + i * 0x10, 17, 1, 0⟩
def GPIO_IN_LEVEL (i : Nat) : Fld := ⟨0x8e04004000 + i * 8, 0, 64, 0⟩
def GPIO_OUT_LATCH (i : Nat) : Fld := ⟨0x8e04004100 + i * 8, 0, 64, 0⟩
def GPIO_GATEMAP_GATED (i : Nat) : Fld := ⟨0x8e04004200 + i * 8, 0, 64, 0xFFFFFFFFFFFFFFFF⟩
def GPIO_STAT_OWNEDWR : Fld := ⟨0x8e04004300, 0, 16, 0⟩
def GPIO_STAT_GATEDROPS : Fld := ⟨0x8e04004300, 16, 16, 0⟩
def TIMER_CFG_MODE (i : Nat) : Fld := ⟨0x8e1d000000 + i * 0x40, 0, 3, 0⟩
def TIMER_CFG_PIN (i : Nat) : Fld := ⟨0x8e1d000000 + i * 0x40, 3, 9, 511⟩
def TIMER_CFG_DIRPIN (i : Nat) : Fld := ⟨0x8e1d000000 + i * 0x40, 12, 9, 511⟩
def TIMER_CFG_POL (i : Nat) : Fld := ⟨0x8e1d000000 + i * 0x40, 21, 1, 0⟩
def TIMER_PER_PER (i : Nat) : Fld := ⟨0x8e1d000008 + i * 0x40, 0, 32, 0⟩
def TIMER_PER_WIDTH (i : Nat) : Fld := ⟨0x8e1d000008 + i * 0x40, 32, 32, 0⟩
def TIMER_STEP_PEND (i : Nat) : Fld := ⟨0x8e1d000010 + i * 0x40, 0, 32, 0⟩
def TIMER_STEP_DIRSU (i : Nat) : Fld := ⟨0x8e1d000010 + i * 0x40, 32, 16, 1000⟩
def TIMER_POS_POS (i : Nat) : Fld := ⟨0x8e1d000018 + i * 0x40, 0, 64, 0⟩
def TIMER_STAT_EXPIRIES (i : Nat) : Fld := ⟨0x8e1d000020 + i * 0x40, 0, 32, 0⟩
def TIMER_STAT_PAUSED (i : Nat) : Fld := ⟨0x8e1d000020 + i * 0x40, 32, 1, 0⟩
def TIMER_STAT_PINCONF (i : Nat) : Fld := ⟨0x8e1d000020 + i * 0x40, 33, 1, 0⟩
def TAPE_CFG_MODE (i : Nat) : Fld := ⟨0x8e0a000000 + i * 0x2000, 0, 2, 0⟩
def TAPE_CFG_CODE (i : Nat) : Fld := ⟨0x8e0a000000 + i * 0x2000, 2, 1, 0⟩
def TAPE_CFG_RAW (i : Nat) : Fld := ⟨0x8e0a000000 + i * 0x2000, 3, 1, 0⟩
def TAPE_CFG_BLOCK (i : Nat) : Fld := ⟨0x8e0a000000 + i * 0x2000, 4, 1, 0⟩
def TAPE_CFG_SPRPOL (i : Nat) : Fld := ⟨0x8e0a000000 + i * 0x2000, 5, 1, 0⟩
def TAPE_CFG_RUNMODE (i : Nat) : Fld := ⟨0x8e0a000000 + i * 0x2000, 6, 1, 0⟩
def TAPE_CFG_STOPERR (i : Nat) : Fld := ⟨0x8e0a000000 + i * 0x2000, 7, 1, 0⟩
def TAPE_CFG_STOPMARGIN (i : Nat) : Fld := ⟨0x8e0a000000 + i * 0x2000, 8, 8, 16⟩
def TAPE_CFG_SETTLE (i : Nat) : Fld := ⟨0x8e0a000000 + i * 0x2000, 16, 14, 500⟩
def TAPE_CFG_CPS (i : Nat) : Fld := ⟨0x8e0a000000 + i * 0x2000, 32, 14, 300⟩
def TAPE_CFG_SETUP (i : Nat) : Fld := ⟨0x8e0a000000 + i * 0x2000, 46, 8, 20⟩
def TAPE_CFG_SPW (i : Nat) : Fld := ⟨0x8e0a000000 + i * 0x2000, 54, 8, 50⟩
def TAPE_CTL_GO (i : Nat) : Fld := ⟨0x8e0a000008 + i * 0x2000, 0, 1, 0⟩
def TAPE_CTL_LOADTAB (i : Nat) : Fld := ⟨0x8e0a000008 + i * 0x2000, 1, 1, 0⟩
def TAPE_CTL_OEREF (i : Nat) : Fld := ⟨0x8e0a000008 + i * 0x2000, 2, 1, 0⟩
def TAPE_STAT_CHARS (i : Nat) : Fld := ⟨0x8e0a000010 + i * 0x2000, 0, 16, 0⟩
def TAPE_STAT_PARERR (i : Nat) : Fld := ⟨0x8e0a000010 + i * 0x2000, 16, 16, 0⟩
def TAPE_STAT_LOST (i : Nat) : Fld := ⟨0x8e0a000010 + i * 0x2000, 32, 16, 0⟩
def TAPE_STAT_RUNIN (i : Nat) : Fld := ⟨0x8e0a000010 + i * 0x2000, 48, 1, 0⟩
def TAPE_STAT_BADCHAR (i : Nat) : Fld := ⟨0x8e0a000010 + i * 0x2000, 49, 15, 0⟩
def TAPE_DEC_CODE (i j : Nat) : Fld := ⟨0x8e0a000800 + i * 0x2000 + j * 8, 0, 8, isoDec j % 256⟩
def TAPE_DEC_SKIP (i j : Nat) : Fld := ⟨0x8e0a000800 + i * 0x2000 + j * 8, 8, 1, isoDec j / 256 % 2⟩
def TAPE_DEC_EOB (i j : Nat) : Fld := ⟨0x8e0a000800 + i * 0x2000 + j * 8, 9, 1, isoDec j / 512 % 2⟩
def TAPE_DEC_VALID (i j : Nat) : Fld := ⟨0x8e0a000800 + i * 0x2000 + j * 8, 10, 1, isoDec j / 1024 % 2⟩
def TAPE_ENC_HOLES (i j : Nat) : Fld := ⟨0x8e0a001000 + i * 0x2000 + j * 8, 0, 8, isoEnc j % 256⟩
def TAPE_ENC_VALID (i j : Nat) : Fld := ⟨0x8e0a001000 + i * 0x2000 + j * 8, 8, 1, isoEnc j / 256 % 2⟩
def UST_BIND_RX (i : Nat) : Fld := ⟨0x8e15030000 + i * 8, 0, 12, 0⟩
def UST_BIND_RXEN (i : Nat) : Fld := ⟨0x8e15030000 + i * 8, 12, 1, 0⟩
def UST_BIND_TXBASE (i : Nat) : Fld := ⟨0x8e15030000 + i * 8, 16, 12, 0⟩
def UST_BIND_NTX (i : Nat) : Fld := ⟨0x8e15030000 + i * 8, 28, 3, 0⟩
def UST_BIND_TXEN (i : Nat) : Fld := ⟨0x8e15030000 + i * 8, 31, 1, 0⟩
def UST_BIND_ERR (i : Nat) : Fld := ⟨0x8e15030000 + i * 8, 32, 1, 0⟩
def ETH_CFG_PROMISC (i : Nat) : Fld := ⟨0x8e07000000 + i * 0x1000, 0, 1, 0⟩
def ETH_CFG_PAUSEEN (i : Nat) : Fld := ⟨0x8e07000000 + i * 0x1000, 1, 1, 0⟩
def ETH_CFG_LATEPOL (i : Nat) : Fld := ⟨0x8e07000000 + i * 0x1000, 2, 1, 0⟩
def ETH_CFG_MAXLEN (i : Nat) : Fld := ⟨0x8e07000000 + i * 0x1000, 3, 11, 1522⟩
def ETH_CFG_GATEEN (i : Nat) : Fld := ⟨0x8e07000000 + i * 0x1000, 14, 1, 0⟩
def ETH_CFG_FPE (i : Nat) : Fld := ⟨0x8e07000000 + i * 0x1000, 15, 8, 0⟩
def ETH_CFG_VERIFY (i : Nat) : Fld := ⟨0x8e07000000 + i * 0x1000, 23, 1, 0⟩
def ETH_CFG_FRAGSZ (i : Nat) : Fld := ⟨0x8e07000000 + i * 0x1000, 24, 2, 0⟩
def ETH_MAC_ADDR (i : Nat) : Fld := ⟨0x8e07000008 + i * 0x1000, 0, 48, 0⟩
def ETH_HASH_BITS (i : Nat) : Fld := ⟨0x8e07000010 + i * 0x1000, 0, 64, 0⟩
def ETH_LAT_RXLAT (i : Nat) : Fld := ⟨0x8e07000018 + i * 0x1000, 0, 16, 0⟩
def ETH_LAT_TXLAT (i : Nat) : Fld := ⟨0x8e07000018 + i * 0x1000, 16, 16, 0⟩
def ETH_STAT_LINK (i : Nat) : Fld := ⟨0x8e07000020 + i * 0x1000, 0, 1, 0⟩
def ETH_STAT_SPEED (i : Nat) : Fld := ⟨0x8e07000020 + i * 0x1000, 1, 2, 0⟩
def ETH_STAT_VERIFIED (i : Nat) : Fld := ⟨0x8e07000020 + i * 0x1000, 3, 1, 0⟩
def ETH_STAT_RXERR (i : Nat) : Fld := ⟨0x8e07000020 + i * 0x1000, 16, 16, 0⟩
def ETH_STAT_RXDROP (i : Nat) : Fld := ⟨0x8e07000020 + i * 0x1000, 32, 16, 0⟩
def ETH_STAT_TXERR (i : Nat) : Fld := ⟨0x8e07000020 + i * 0x1000, 48, 16, 0⟩
def ETH_CNT_TOOLONG (i : Nat) : Fld := ⟨0x8e07000028 + i * 0x1000, 0, 16, 0⟩
def ETH_CNT_LATE (i : Nat) : Fld := ⟨0x8e07000028 + i * 0x1000, 16, 16, 0⟩
def ETH_CNT_TSLOST (i : Nat) : Fld := ⟨0x8e07000028 + i * 0x1000, 32, 16, 0⟩
def ETH_TXTS_TAG (i : Nat) : Fld := ⟨0x8e07000030 + i * 0x1000, 0, 16, 0⟩
def ETH_TXTS_VALID (i : Nat) : Fld := ⟨0x8e07000030 + i * 0x1000, 16, 1, 0⟩
def ETH_TXTSTIME_TIME (i : Nat) : Fld := ⟨0x8e07000038 + i * 0x1000, 0, 64, 0⟩
def ETH_GCLCTL_CYCLE (i : Nat) : Fld := ⟨0x8e07000040 + i * 0x1000, 0, 32, 0⟩
def ETH_GCLCTL_LEN (i : Nat) : Fld := ⟨0x8e07000040 + i * 0x1000, 32, 8, 0⟩
def ETH_GCLCTL_CHG (i : Nat) : Fld := ⟨0x8e07000040 + i * 0x1000, 40, 1, 0⟩
def ETH_GCLBASE_BASE (i : Nat) : Fld := ⟨0x8e07000048 + i * 0x1000, 0, 64, 0⟩
def ETH_GCLCHG_CHGTIME (i : Nat) : Fld := ⟨0x8e07000050 + i * 0x1000, 0, 64, 0⟩
def ETH_GCLOPER_INDEX (i : Nat) : Fld := ⟨0x8e07000058 + i * 0x1000, 0, 8, 0⟩
def ETH_GCLOPER_GATES (i : Nat) : Fld := ⟨0x8e07000058 + i * 0x1000, 8, 8, 255⟩
def ETH_GCL_GATES (i j : Nat) : Fld := ⟨0x8e07000800 + i * 0x1000 + j * 8, 0, 8, 255⟩
def ETH_GCL_INTERVAL (i j : Nat) : Fld := ⟨0x8e07000800 + i * 0x1000 + j * 8, 8, 32, 0⟩
def ETH_GCL_HOLD (i j : Nat) : Fld := ⟨0x8e07000800 + i * 0x1000 + j * 8, 40, 1, 0⟩
def TIME_NOW_NS : Fld := ⟨0x8e07010000, 0, 64, 0⟩
def TIME_RATE_TRIM : Fld := ⟨0x8e07010008, 0, 40, 0⟩
def TIME_STEP_NS : Fld := ⟨0x8e07010010, 0, 64, 0⟩
def TIME_STAT_LOCKED : Fld := ⟨0x8e07010018, 0, 1, 0⟩
def TIME_STAT_STEPREF : Fld := ⟨0x8e07010018, 1, 1, 0⟩
def TIME_STAT_DOMAIN : Fld := ⟨0x8e07010018, 8, 8, 0⟩
def ETH_MDIO_PHYAD : Fld := ⟨0x8e07010100, 0, 5, 0⟩
def ETH_MDIO_REGAD : Fld := ⟨0x8e07010100, 5, 5, 0⟩
def ETH_MDIO_CFT : Fld := ⟨0x8e07010100, 10, 1, 0⟩
def ETH_MDIO_OP : Fld := ⟨0x8e07010100, 11, 2, 0⟩
def ETH_MDIO_BUSY : Fld := ⟨0x8e07010100, 13, 1, 0⟩
def ETH_MDIO_DATA : Fld := ⟨0x8e07010100, 16, 16, 0⟩
def CAN_BT_BRP (i : Nat) : Fld := ⟨0x8e08000000 + i * 0x1000, 0, 10, 9⟩
def CAN_BT_SEGA (i : Nat) : Fld := ⟨0x8e08000000 + i * 0x1000, 10, 8, 5⟩
def CAN_BT_SEGB (i : Nat) : Fld := ⟨0x8e08000000 + i * 0x1000, 18, 7, 2⟩
def CAN_BT_SJW (i : Nat) : Fld := ⟨0x8e08000000 + i * 0x1000, 25, 7, 2⟩
def CAN_BT_DBRP (i : Nat) : Fld := ⟨0x8e08000000 + i * 0x1000, 32, 5, 0⟩
def CAN_BT_DSEGA (i : Nat) : Fld := ⟨0x8e08000000 + i * 0x1000, 37, 6, 7⟩
def CAN_BT_DSEGB (i : Nat) : Fld := ⟨0x8e08000000 + i * 0x1000, 43, 5, 2⟩
def CAN_BT_TDCO (i : Nat) : Fld := ⟨0x8e08000000 + i * 0x1000, 48, 8, 0⟩
def CAN_CFG_MODE (i : Nat) : Fld := ⟨0x8e08000008 + i * 0x1000, 0, 2, 0⟩
def CAN_CFG_FD (i : Nat) : Fld := ⟨0x8e08000008 + i * 0x1000, 2, 1, 0⟩
def CAN_CFG_AUTOREC (i : Nat) : Fld := ⟨0x8e08000008 + i * 0x1000, 3, 1, 1⟩
def CAN_CFG_ONESHOT (i : Nat) : Fld := ⟨0x8e08000008 + i * 0x1000, 4, 1, 0⟩
def CAN_CFG_SELFRX (i : Nat) : Fld := ⟨0x8e08000008 + i * 0x1000, 5, 1, 0⟩
def CAN_CFG_LATEPOL (i : Nat) : Fld := ⟨0x8e08000008 + i * 0x1000, 6, 1, 0⟩
def CAN_STAT_STATE (i : Nat) : Fld := ⟨0x8e08000010 + i * 0x1000, 0, 2, 0⟩
def CAN_STAT_REC (i : Nat) : Fld := ⟨0x8e08000010 + i * 0x1000, 2, 8, 0⟩
def CAN_STAT_TEC (i : Nat) : Fld := ⟨0x8e08000010 + i * 0x1000, 10, 8, 0⟩
def CAN_STAT_RXDROP (i : Nat) : Fld := ⟨0x8e08000010 + i * 0x1000, 32, 16, 0⟩
def CAN_STAT_TXERR (i : Nat) : Fld := ⟨0x8e08000010 + i * 0x1000, 48, 16, 0⟩
def CAN_FLT_ID (i j : Nat) : Fld := ⟨0x8e08000100 + i * 0x1000 + j * 8, 0, 29, 0⟩
def CAN_FLT_MASK (i j : Nat) : Fld := ⟨0x8e08000100 + i * 0x1000 + j * 8, 29, 29, 0⟩
def CAN_FLT_IDE (i j : Nat) : Fld := ⟨0x8e08000100 + i * 0x1000 + j * 8, 58, 1, 0⟩
def CAN_FLT_EN (i j : Nat) : Fld := ⟨0x8e08000100 + i * 0x1000 + j * 8, 59, 1, 0⟩
def UART_CFG_DIV (i : Nat) : Fld := ⟨0x8e09000000 + i * 0x100, 0, 28, 111111⟩
def UART_CFG_OVSEIGHT (i : Nat) : Fld := ⟨0x8e09000000 + i * 0x100, 28, 1, 0⟩
def UART_CFG_PARITY (i : Nat) : Fld := ⟨0x8e09000000 + i * 0x100, 29, 2, 0⟩
def UART_CFG_STOPTWO (i : Nat) : Fld := ⟨0x8e09000000 + i * 0x100, 31, 1, 0⟩
def UART_CFG_SEVEN (i : Nat) : Fld := ⟨0x8e09000000 + i * 0x100, 32, 1, 0⟩
def UART_CFG_LINE (i : Nat) : Fld := ⟨0x8e09000000 + i * 0x100, 33, 2, 0⟩
def UART_CFG_ECHO (i : Nat) : Fld := ⟨0x8e09000000 + i * 0x100, 35, 1, 0⟩
def UART_CFG_LATEPOL (i : Nat) : Fld := ⟨0x8e09000000 + i * 0x100, 36, 1, 0⟩
def UART_MSG_MAXLEN (i : Nat) : Fld := ⟨0x8e09000008 + i * 0x100, 0, 16, 256⟩
def UART_MSG_IDLE (i : Nat) : Fld := ⟨0x8e09000008 + i * 0x100, 16, 8, 36⟩
def UART_MSG_DELIM (i : Nat) : Fld := ⟨0x8e09000008 + i * 0x100, 24, 8, 10⟩
def UART_MSG_DELEN (i : Nat) : Fld := ⟨0x8e09000008 + i * 0x100, 32, 1, 0⟩
def UART_MSG_DEG (i : Nat) : Fld := ⟨0x8e09000008 + i * 0x100, 33, 8, 1⟩
def UART_STAT_FE (i : Nat) : Fld := ⟨0x8e09000010 + i * 0x100, 0, 16, 0⟩
def UART_STAT_PE (i : Nat) : Fld := ⟨0x8e09000010 + i * 0x100, 16, 16, 0⟩
def UART_STAT_DROPS (i : Nat) : Fld := ⟨0x8e09000010 + i * 0x100, 32, 16, 0⟩
def UART_STAT_TXERR (i : Nat) : Fld := ⟨0x8e09000010 + i * 0x100, 48, 16, 0⟩
def PCIE_LINK_SPEED : Fld := ⟨0x8e0b000000, 0, 3, 0⟩
def PCIE_LINK_WIDTH : Fld := ⟨0x8e0b000000, 3, 3, 0⟩
def PCIE_LINK_UP : Fld := ⟨0x8e0b000000, 6, 1, 0⟩
def PCIE_DOORBELL_D : Fld := ⟨0x8e0b000008, 0, 4, 0⟩
def PCIE_DOORBELL_VALUE : Fld := ⟨0x8e0b000008, 32, 32, 0⟩
def PCIE_MSIX_VECTOR : Fld := ⟨0x8e0b000010, 0, 6, 0⟩
def PCIE_WIN_EN (i : Nat) : Fld := ⟨0x8e0b000100 + i * 8, 0, 1, 0⟩
def PCIE_WIN_BASE (i : Nat) : Fld := ⟨0x8e0b000100 + i * 8, 27, 13, 0⟩
def PCIE_CH_HTD_RING (i : Nat) : Fld := ⟨0x8e0b001000 + i * 0x40, 0, 64, 0⟩
def PCIE_CH_HTDCTL_LOGSIZE (i : Nat) : Fld := ⟨0x8e0b001008 + i * 0x40, 0, 5, 4⟩
def PCIE_CH_HTDCTL_IRQ (i : Nat) : Fld := ⟨0x8e0b001008 + i * 0x40, 5, 1, 0⟩
def PCIE_CH_HTDCTL_TAIL (i : Nat) : Fld := ⟨0x8e0b001008 + i * 0x40, 16, 16, 0⟩
def PCIE_CH_HTDCTL_HEAD (i : Nat) : Fld := ⟨0x8e0b001008 + i * 0x40, 32, 16, 0⟩
def PCIE_CH_DTH_RING (i : Nat) : Fld := ⟨0x8e0b001010 + i * 0x40, 0, 64, 0⟩
def PCIE_CH_DTHCTL_LOGSIZE (i : Nat) : Fld := ⟨0x8e0b001018 + i * 0x40, 0, 5, 4⟩
def PCIE_CH_DTHCTL_IRQ (i : Nat) : Fld := ⟨0x8e0b001018 + i * 0x40, 5, 1, 0⟩
def PCIE_CH_DTHCTL_TAIL (i : Nat) : Fld := ⟨0x8e0b001018 + i * 0x40, 16, 16, 0⟩
def PCIE_CH_DTHCTL_HEAD (i : Nat) : Fld := ⟨0x8e0b001018 + i * 0x40, 32, 16, 0⟩
def USB_CFG_CONNECT : Fld := ⟨0x8e0c000000, 0, 1, 0⟩
def USB_CFG_HSEN : Fld := ⟨0x8e0c000000, 1, 1, 1⟩
def USB_STAT_STATE : Fld := ⟨0x8e0c000008, 0, 2, 0⟩
def USB_STAT_HS : Fld := ⟨0x8e0c000008, 2, 1, 0⟩
def USB_STAT_ADDR : Fld := ⟨0x8e0c000008, 3, 7, 0⟩
def USB_STAT_VBUS : Fld := ⟨0x8e0c000008, 10, 1, 0⟩
def STOR_CFG_EWIDTH : Fld := ⟨0x8e0d000000, 0, 2, 0⟩
def STOR_CFG_ETIMING : Fld := ⟨0x8e0d000000, 2, 2, 0⟩
def STOR_CFG_XOCTAL : Fld := ⟨0x8e0d000000, 4, 1, 0⟩
def SVC_CFG_ADDR : Fld := ⟨0x8e0e000000, 0, 7, 0x58⟩
def SVC_CFG_WAKENAK : Fld := ⟨0x8e0e000000, 7, 1, 0⟩
def SVC_CFG_PECREQ : Fld := ⟨0x8e0e000000, 8, 1, 0⟩
def SVC_STAT_CMDS : Fld := ⟨0x8e0e000008, 0, 16, 0⟩
def SVC_STAT_NAKS : Fld := ⟨0x8e0e000008, 16, 16, 0⟩
def SVC_STAT_WOKE : Fld := ⟨0x8e0e000008, 32, 1, 0⟩
def PMB_RAIL_ADDR (i : Nat) : Fld := ⟨0x8e0f000000 + i * 8, 0, 7, 0⟩
def PMB_RAIL_PAGE (i : Nat) : Fld := ⟨0x8e0f000000 + i * 8, 7, 8, 0⟩
def PMB_RAIL_KIND (i : Nat) : Fld := ⟨0x8e0f000000 + i * 8, 15, 4, 0⟩
def PMB_RAIL_EN (i : Nat) : Fld := ⟨0x8e0f000000 + i * 8, 19, 1, 0⟩
def PMB_CMD_CODE : Fld := ⟨0x8e0f000100, 0, 8, 0⟩
def PMB_CMD_RAIL : Fld := ⟨0x8e0f000100, 8, 4, 0⟩
def PMB_CMD_OP : Fld := ⟨0x8e0f000100, 12, 2, 0⟩
def PMB_CMD_DATA : Fld := ⟨0x8e0f000100, 16, 16, 0⟩
def PMB_CMD_GO : Fld := ⟨0x8e0f000100, 32, 1, 0⟩
def PMB_CMD_RESULT : Fld := ⟨0x8e0f000100, 33, 3, 0⟩
def PMB_ALERT_RAILS : Fld := ⟨0x8e0f000108, 0, 16, 0⟩
def SURVEY_CTL_START : Fld := ⟨0x8e10000000, 0, 1, 0⟩
def SURVEY_CTL_STOP : Fld := ⟨0x8e10000000, 1, 1, 0⟩
def SURVEY_CTL_CLEAR : Fld := ⟨0x8e10000000, 2, 1, 0⟩
def SURVEY_CTL_NPLAN : Fld := ⟨0x8e10000000, 8, 7, 0⟩
def SURVEY_STAT_STATE : Fld := ⟨0x8e10000008, 0, 2, 0⟩
def SURVEY_STAT_ERR : Fld := ⟨0x8e10000008, 2, 4, 0⟩
def SURVEY_STAT_CFGREF : Fld := ⟨0x8e10000008, 6, 1, 0⟩
def SURVEY_STAT_PLANIDX : Fld := ⟨0x8e10000008, 8, 6, 0⟩
def SURVEY_STAT_ENTRIES : Fld := ⟨0x8e10000008, 16, 14, 0⟩
def SURVEY_STAT_NOTOK : Fld := ⟨0x8e10000008, 32, 16, 0⟩
def SURVEY_NOTE_CTX : Fld := ⟨0x8e10000010, 0, 8, 0⟩
def SURVEY_NOTE_IA : Fld := ⟨0x8e10000010, 8, 20, 0⟩
def SURVEY_NOTE_PORT : Fld := ⟨0x8e10000010, 28, 2, 0⟩
def SURVEY_NOTE_EN : Fld := ⟨0x8e10000010, 30, 1, 0⟩
def SURVEY_WVDC_MV : Fld := ⟨0x8e10000018, 0, 32, 0⟩
def SURVEY_WATCH_MAINSEN : Fld := ⟨0x8e10000020, 0, 1, 0⟩
def SURVEY_WATCH_MAINSIN : Fld := ⟨0x8e10000020, 1, 4, 0⟩
def SURVEY_WATCH_FLO : Fld := ⟨0x8e10000020, 16, 16, 5000⟩
def SURVEY_WATCH_FHI : Fld := ⟨0x8e10000020, 32, 16, 6000⟩
def SURVEY_MAINSVAL_FREQ : Fld := ⟨0x8e10000028, 0, 32, 0⟩
def SURVEY_MAINSVAL_OUT : Fld := ⟨0x8e10000028, 32, 1, 0⟩
def SURVEY_PLAN_KIND (i : Nat) : Fld := ⟨0x8e10000400 + i * 8, 0, 4, 0⟩
def SURVEY_PLAN_GROUP (i : Nat) : Fld := ⟨0x8e10000400 + i * 8, 4, 4, 0⟩
def SURVEY_PLAN_FIRST (i : Nat) : Fld := ⟨0x8e10000400 + i * 8, 8, 12, 0⟩
def SURVEY_PLAN_COUNT (i : Nat) : Fld := ⟨0x8e10000400 + i * 8, 20, 12, 0⟩
def SURVEY_PLAN_PARAM (i : Nat) : Fld := ⟨0x8e10000400 + i * 8, 32, 32, 0⟩
def SURVEY_RAIL_LO (i : Nat) : Fld := ⟨0x8e10000800 + i * 8, 0, 16, 0⟩
def SURVEY_RAIL_HI (i : Nat) : Fld := ⟨0x8e10000800 + i * 8, 16, 16, 65535⟩
def SURVEY_RAIL_VALUE (i : Nat) : Fld := ⟨0x8e10000800 + i * 8, 32, 16, 0⟩
def SURVEY_RAIL_OUT (i : Nat) : Fld := ⟨0x8e10000800 + i * 8, 48, 1, 0⟩
def SURVEY_RAIL_DIR (i : Nat) : Fld := ⟨0x8e10000800 + i * 8, 49, 1, 0⟩
def SURVEY_TEMP_TJ (i : Nat) : Fld := ⟨0x8e10000900 + i * 8, 0, 16, 0⟩
def SAFE_ID_ROMVER : Fld := ⟨0x8e16000000, 0, 16, 0⟩
def SAFE_STATE_STATE : Fld := ⟨0x8e16000008, 0, 3, 0⟩
def SAFE_STATE_LOADING : Fld := ⟨0x8e16000008, 3, 1, 0⟩
def SAFE_STATE_CONFIRM : Fld := ⟨0x8e16000008, 4, 2, 0⟩
def SAFE_STATE_KEYFAULT : Fld := ⟨0x8e16000008, 6, 1, 0⟩
def SAFE_STATE_HOLD : Fld := ⟨0x8e16000008, 7, 1, 0⟩
def SAFE_STATE_ALIVELOST : Fld := ⟨0x8e16000008, 8, 1, 0⟩
def SAFE_STATE_RSTHOLD : Fld := ⟨0x8e16000008, 9, 1, 0⟩
def SAFE_STATE_HBLOST : Fld := ⟨0x8e16000008, 10, 1, 0⟩
def SAFE_STATE_FAULTCODE : Fld := ⟨0x8e16000008, 16, 8, 0⟩
def SAFE_STATE_ISLRESETS : Fld := ⟨0x8e16000008, 24, 16, 0⟩
def SAFE_STATE_LASTRST : Fld := ⟨0x8e16000008, 40, 2, 0⟩
def SAFE_PSET_CRC : Fld := ⟨0x8e16000010, 0, 32, 0⟩
def SAFE_PSET_SETNO : Fld := ⟨0x8e16000010, 32, 32, 0⟩
def SAFE_MACHID_ID : Fld := ⟨0x8e16000018, 0, 64, 0⟩
def SAFE_OUT_STOREL : Fld := ⟨0x8e16000020, 0, 16, 0⟩
def SAFE_OUT_BRKREL : Fld := ⟨0x8e16000020, 16, 8, 0⟩
def SAFE_OUT_GATEOPEN : Fld := ⟨0x8e16000020, 24, 17, 0⟩
def SAFE_OUTERR_STOERR : Fld := ⟨0x8e16000028, 0, 16, 0⟩
def SAFE_OUTERR_BRKERR : Fld := ⟨0x8e16000028, 16, 8, 0⟩
def SAFE_IN_OK : Fld := ⟨0x8e16000030, 0, 32, 0⟩
def SAFE_IN_FAULT : Fld := ⟨0x8e16000030, 32, 32, 0⟩
def SAFE_SUPPLY_CORE : Fld := ⟨0x8e16000038, 0, 16, 0⟩
def SAFE_SUPPLY_IO : Fld := ⟨0x8e16000038, 16, 16, 0⟩
def SAFE_LINK_RSEQ : Fld := ⟨0x8e16000040, 0, 16, 0⟩
def SAFE_LINK_SSEQ : Fld := ⟨0x8e16000040, 16, 16, 0⟩
def SAFE_LINK_REFUSED : Fld := ⟨0x8e16000040, 32, 16, 0⟩
def SAFE_LINK_SDROP : Fld := ⟨0x8e16000040, 48, 16, 0⟩
def SAFE_CH_FUNC_STO (i : Nat) : Fld := ⟨0x8e16000100 + i * 0x20, 0, 1, 1⟩
def SAFE_CH_FUNC_SS1 (i : Nat) : Fld := ⟨0x8e16000100 + i * 0x20, 1, 1, 0⟩
def SAFE_CH_FUNC_SS2 (i : Nat) : Fld := ⟨0x8e16000100 + i * 0x20, 2, 1, 0⟩
def SAFE_CH_FUNC_SOS (i : Nat) : Fld := ⟨0x8e16000100 + i * 0x20, 3, 1, 0⟩
def SAFE_CH_FUNC_SLS (i : Nat) : Fld := ⟨0x8e16000100 + i * 0x20, 4, 3, 4⟩
def SAFE_CH_FUNC_SDI (i : Nat) : Fld := ⟨0x8e16000100 + i * 0x20, 7, 1, 0⟩
def SAFE_CH_FUNC_SDIDIR (i : Nat) : Fld := ⟨0x8e16000100 + i * 0x20, 8, 1, 0⟩
def SAFE_CH_FUNC_UNREF (i : Nat) : Fld := ⟨0x8e16000100 + i * 0x20, 9, 1, 0⟩
def SAFE_CH_FUNC_RSTPEND (i : Nat) : Fld := ⟨0x8e16000100 + i * 0x20, 10, 1, 0⟩
def SAFE_CH_FUNC_TESTDUE (i : Nat) : Fld := ⟨0x8e16000100 + i * 0x20, 11, 1, 0⟩
def SAFE_CH_FUNC_PAIRFAULT (i : Nat) : Fld := ⟨0x8e16000100 + i * 0x20, 12, 1, 0⟩
def SAFE_CH_FUNC_CAUSE (i : Nat) : Fld := ⟨0x8e16000100 + i * 0x20, 16, 8, 0⟩
def SAFE_CH_POS_COUNT (i : Nat) : Fld := ⟨0x8e16000108 + i * 0x20, 0, 64, 0⟩
def SAFE_CH_SPEED_SPEED (i : Nat) : Fld := ⟨0x8e16000110 + i * 0x20, 0, 32, 0⟩
def SAFE_CH_SPEED_XDIFF (i : Nat) : Fld := ⟨0x8e16000110 + i * 0x20, 32, 32, 0⟩
def ERR_STATUS_SRC (d : Nat) : Fld := ⟨0x8E00000000 + d * 0x1000000000 + 0x7000000, 0, 64, 0⟩
def ERR_COUNT_EVENTS (d i : Nat) : Fld := ⟨0x8E00000000 + d * 0x1000000000 + 0x7000100 + i * 8, 0, 16, 0⟩
def ERR_COUNT_CONSEQ (d i : Nat) : Fld := ⟨0x8E00000000 + d * 0x1000000000 + 0x7000100 + i * 8, 16, 16, 0⟩
def FAULT_SUMMARY_DIES : Fld := ⟨0x8e11000000, 0, 8, 0⟩
def FAULT_SUMMARY_ALIVESTOP : Fld := ⟨0x8e11000000, 8, 1, 1⟩
def FAULT_SUMMARY_SELFFAIL : Fld := ⟨0x8e11000000, 9, 1, 0⟩
def FAULT_SUMMARY_CLKFAIL : Fld := ⟨0x8e11000000, 10, 1, 0⟩
def FAULT_SUMMARY_STOPWHY : Fld := ⟨0x8e11000000, 11, 2, 0⟩
def FAULT_ALIVE_PERIOD : Fld := ⟨0x8e11000008, 0, 10, 100⟩
def FAULT_ALIVE_START : Fld := ⟨0x8e11000008, 10, 1, 0⟩
def FAULT_RAISE_DETAIL : Fld := ⟨0x8e11000010, 0, 16, 0⟩
def FAULT_RAISE_GO : Fld := ⟨0x8e11000010, 16, 1, 0⟩
def FAULT_INJECT_SRC : Fld := ⟨0x8e11000018, 0, 6, 0⟩
def FAULT_INJECT_DIE : Fld := ⟨0x8e11000018, 6, 3, 0⟩
def FAULT_INJECT_GO : Fld := ⟨0x8e11000018, 9, 1, 0⟩
def FAULT_LOGCTL_NEXT : Fld := ⟨0x8e11000020, 0, 8, 0⟩
def FAULT_LOGCTL_WRAPPED : Fld := ⟨0x8e11000020, 8, 1, 0⟩
def FAULT_LOGCTL_CLEAR : Fld := ⟨0x8e11000020, 9, 1, 0⟩
def FAULT_LOGCTL_SEQ : Fld := ⟨0x8e11000020, 32, 32, 0⟩
def FAULT_DIESTAT_SRC (i : Nat) : Fld := ⟨0x8e11000100 + i * 8, 0, 64, 0⟩
def FAULT_FIRST_WORD (i : Nat) : Fld := ⟨0x8e11000200 + i * 8, 0, 64, 0⟩
def FAULT_LOG_WORD (i j : Nat) : Fld := ⟨0x8e11020000 + i * 0x20 + j * 8, 0, 64, 0⟩
def FAULT_MAP_CLASS (i : Nat) : Fld := ⟨0x8e11000800 + i * 8, 0, 6, i % 64⟩
def FAULT_MAP_MASK (i : Nat) : Fld := ⟨0x8e11000800 + i * 8, 6, 1, 0⟩
def FAULT_CLASS_CFG_BASE (i : Nat) : Fld := ⟨0x8e11002000 + i * 0x20, 0, 1, (classDefault i).base⟩
def FAULT_CLASS_CFG_N (i : Nat) : Fld := ⟨0x8e11002000 + i * 0x20, 1, 8, (classDefault i).n⟩
def FAULT_CLASS_CFG_RINFO (i : Nat) : Fld := ⟨0x8e11002000 + i * 0x20, 9, 3, 7⟩
def FAULT_CLASS_CFG_RMINOR (i : Nat) : Fld := ⟨0x8e11002000 + i * 0x20, 12, 3, 0⟩
def FAULT_CLASS_CFG_RSEVERE (i : Nat) : Fld := ⟨0x8e11002000 + i * 0x20, 15, 3, (classDefault i).rsevere⟩
def FAULT_CLASS_CFG_ESCMAX (i : Nat) : Fld := ⟨0x8e11002000 + i * 0x20, 18, 3, 4⟩
def FAULT_CLASS_CFG_SCOPE (i : Nat) : Fld := ⟨0x8e11002000 + i * 0x20, 21, 2, 0⟩
def FAULT_CLASS_CFG_SHADOW (i : Nat) : Fld := ⟨0x8e11002000 + i * 0x20, 23, 16, 50⟩
def FAULT_CLASS_CFG_ACKTMO (i : Nat) : Fld := ⟨0x8e11002000 + i * 0x20, 39, 20, 1000⟩
def FAULT_CLASS_WIN_W (i : Nat) : Fld := ⟨0x8e11002008 + i * 0x20, 0, 32, (classDefault i).w⟩
def FAULT_CLASS_ACK_ACK (i : Nat) : Fld := ⟨0x8e11002010 + i * 0x20, 0, 1, 0⟩
def FAULT_CLASS_STAT_PEND (i : Nat) : Fld := ⟨0x8e11002018 + i * 0x20, 0, 3, 7⟩
def FAULT_CLASS_STAT_SEVERES (i : Nat) : Fld := ⟨0x8e11002018 + i * 0x20, 16, 16, 0⟩
def FAULT_CLASS_STAT_ESCS (i : Nat) : Fld := ⟨0x8e11002018 + i * 0x20, 32, 16, 0⟩
def FAULT_CLASS_STAT_FAILS (i : Nat) : Fld := ⟨0x8e11002018 + i * 0x20, 48, 16, 0⟩
def MODE_CUR_MODE : Fld := ⟨0x8e13000008, 0, 4, 0⟩
def MODE_CUR_PREV : Fld := ⟨0x8e13000008, 4, 4, 0⟩
def MODE_CUR_WHY : Fld := ⟨0x8e13000008, 8, 4, 0⟩
def MODE_CUR_ISOL : Fld := ⟨0x8e13000008, 12, 1, 0⟩
def MODE_REQ_MODE : Fld := ⟨0x8e13000010, 0, 4, 0⟩
def MODE_STAT_REFUSED : Fld := ⟨0x8e13000018, 0, 1, 0⟩
def MODE_STAT_REASON : Fld := ⟨0x8e13000018, 1, 3, 0⟩
def MODE_STAT_LASTREQ : Fld := ⟨0x8e13000018, 4, 4, 0⟩
def MODE_STAT_CHANGING : Fld := ⟨0x8e13000018, 8, 1, 0⟩
def MODE_CTL_WARM : Fld := ⟨0x8e13000020, 0, 1, 0⟩
def MODE_RSTCAUSE_LAST : Fld := ⟨0x8e13000028, 0, 4, 0⟩
def MODE_RSTCAUSE_RAILFAIL : Fld := ⟨0x8e13000028, 4, 5, 0⟩
def MODE_RSTCAUSE_WARMS : Fld := ⟨0x8e13000028, 16, 16, 0⟩
def MODE_RSTCAUSE_PINS : Fld := ⟨0x8e13000028, 32, 16, 0⟩
def MODE_DIERST_DIE : Fld := ⟨0x8e13000030, 0, 3, 0⟩
def MODE_DIERST_ISOLATE : Fld := ⟨0x8e13000030, 3, 1, 0⟩
def MODE_DIERST_GO : Fld := ⟨0x8e13000030, 4, 1, 0⟩
def MODE_TUFTRST_DIE : Fld := ⟨0x8e13000038, 0, 3, 0⟩
def MODE_TUFTRST_TUFT : Fld := ⟨0x8e13000038, 3, 3, 0⟩
def MODE_TUFTRST_GO : Fld := ⟨0x8e13000038, 6, 1, 0⟩
def MODE_CTXRST_CTX : Fld := ⟨0x8e13000040, 0, 8, 0⟩
def MODE_CTXRST_GO : Fld := ⟨0x8e13000040, 8, 1, 0⟩
def MODE_CTXRST_BUSY : Fld := ⟨0x8e13000040, 9, 1, 0⟩
def MODE_STBY_DIES : Fld := ⟨0x8e13000048, 1, 5, 31⟩
def MODE_STBY_WAKEN : Fld := ⟨0x8e13000048, 6, 1, 1⟩
def MODE_STBY_SVCEN : Fld := ⟨0x8e13000048, 7, 1, 1⟩
def MODE_STBY_LASTWAKE : Fld := ⟨0x8e13000048, 8, 2, 0⟩
def MODE_DIE_STATE (i : Nat) : Fld := ⟨0x8e13000100 + i * 8, 0, 3, 1⟩
def MODE_DIE_REQ (i : Nat) : Fld := ⟨0x8e13000100 + i * 8, 3, 2, 0⟩
def MODE_DIE_WAKEPEND (i : Nat) : Fld := ⟨0x8e13000100 + i * 8, 5, 1, 0⟩
def MODE_DIE_WAKES (i : Nat) : Fld := ⟨0x8e13000100 + i * 8, 16, 16, 0⟩
def MODE_DIE_ISOLS (i : Nat) : Fld := ⟨0x8e13000100 + i * 8, 32, 16, 0⟩
def PWR_REQ_LEVEL (d : Nat) : Fld := ⟨0x8E00000000 + d * 0x1000000000 + 0x6000000, 0, 3, 2⟩
def PWR_STAT_CUR (d : Nat) : Fld := ⟨0x8E00000000 + d * 0x1000000000 + 0x6000008, 0, 3, 2⟩
def PWR_STAT_TARGET (d : Nat) : Fld := ⟨0x8E00000000 + d * 0x1000000000 + 0x6000008, 3, 3, 2⟩
def PWR_STAT_CHANGING (d : Nat) : Fld := ⟨0x8E00000000 + d * 0x1000000000 + 0x6000008, 6, 1, 0⟩
def PWR_STAT_PEND (d : Nat) : Fld := ⟨0x8E00000000 + d * 0x1000000000 + 0x6000008, 7, 3, 0⟩
def PWR_STAT_PENDV (d : Nat) : Fld := ⟨0x8E00000000 + d * 0x1000000000 + 0x6000008, 10, 1, 0⟩
def PWR_STAT_REQ_REPLACED (d : Nat) : Fld := ⟨0x8E00000000 + d * 0x1000000000 + 0x6000008, 11, 1, 0⟩
def PWR_STAT_CAP (d : Nat) : Fld := ⟨0x8E00000000 + d * 0x1000000000 + 0x6000008, 12, 3, 7⟩
def PWR_STAT_VFAIL (d : Nat) : Fld := ⟨0x8E00000000 + d * 0x1000000000 + 0x6000008, 15, 1, 0⟩
def PWR_STAT_CHANGES (d : Nat) : Fld := ⟨0x8E00000000 + d * 0x1000000000 + 0x6000008, 16, 16, 0⟩
def PWR_STAT_REPLACES (d : Nat) : Fld := ⟨0x8E00000000 + d * 0x1000000000 + 0x6000008, 32, 16, 0⟩
def PWR_CFG_VSETTLE (d : Nat) : Fld := ⟨0x8E00000000 + d * 0x1000000000 + 0x6000010, 0, 10, 50⟩
def PWR_THERM_TJ (d : Nat) : Fld := ⟨0x8E00000000 + d * 0x1000000000 + 0x6000018, 0, 12, 0⟩
def PWR_THERM_CAPS (d : Nat) : Fld := ⟨0x8E00000000 + d * 0x1000000000 + 0x6000018, 16, 16, 0⟩
def SEC_STAT_LEVEL : Fld := ⟨0x8e14000000, 0, 3, 0⟩
def SEC_STAT_PATH : Fld := ⟨0x8e14000000, 3, 2, 0⟩
def SEC_STAT_SESSION : Fld := ⟨0x8e14000000, 5, 1, 0⟩
def SEC_STAT_FAILS : Fld := ⟨0x8e14000000, 6, 3, 0⟩
def SEC_STAT_LOCKOUT : Fld := ⟨0x8e14000000, 9, 1, 0⟩
def SEC_STAT_LOCKREM : Fld := ⟨0x8e14000000, 10, 12, 0⟩
def SEC_STAT_LIFEFAIL : Fld := ⟨0x8e14000000, 22, 7, 0⟩
def SEC_STAT_DBGOFF : Fld := ⟨0x8e14000000, 29, 1, 0⟩
def SEC_BOOT_SRC : Fld := ⟨0x8e14000008, 0, 2, 0⟩
def SEC_BOOT_SLOT : Fld := ⟨0x8e14000008, 2, 1, 0⟩
def SEC_BOOT_BFAILED : Fld := ⟨0x8e14000008, 3, 1, 0⟩
def SEC_BOOT_FAIL : Fld := ⟨0x8e14000008, 4, 4, 0⟩
def SEC_BOOT_SVN : Fld := ⟨0x8e14000008, 8, 7, 0⟩
def SEC_BOOT_VERSION : Fld := ⟨0x8e14000008, 16, 32, 0⟩
def SEC_BOOT_COUNT : Fld := ⟨0x8e14000008, 48, 16, 0⟩
def SEC_MEAS_HASH (i : Nat) : Fld := ⟨0x8e14000040 + i * 8, 0, 64, 0⟩
def SEC_GMEAS_HASH (i : Nat) : Fld := ⟨0x8e14000080 + i * 8, 0, 64, 0⟩
def SEC_MBOX_DATA (i : Nat) : Fld := ⟨0x8e14000100 + i * 8, 0, 64, 0⟩
def SEC_MBCTL_CODE : Fld := ⟨0x8e14000140, 0, 8, 0⟩
def SEC_MBCTL_LEN : Fld := ⟨0x8e14000140, 8, 6, 0⟩
def SEC_MBCTL_GO : Fld := ⟨0x8e14000140, 14, 1, 0⟩
def SEC_MBCTL_STATUS : Fld := ⟨0x8e14000140, 15, 8, 0⟩
def SEC_VFY_ADDR : Fld := ⟨0x8e14000200, 0, 40, 0⟩
def SEC_VFYLEN_LEN : Fld := ⟨0x8e14000208, 0, 40, 0⟩
def SEC_VFYKEY_KEYADDR : Fld := ⟨0x8e14000210, 0, 40, 0⟩
def SEC_VFYKEY_KEYIDX : Fld := ⟨0x8e14000210, 40, 2, 0⟩
def SEC_VFYKEY_GO : Fld := ⟨0x8e14000210, 42, 1, 0⟩
def SEC_VFYKEY_BUSY : Fld := ⟨0x8e14000210, 43, 1, 0⟩
def SEC_VFYKEY_RESULT : Fld := ⟨0x8e14000210, 44, 4, 0⟩
def OTP_WORD_VALUE (i : Nat) : Fld := ⟨0x8e1c000000 + i * 8, 0, 64, 0⟩
def OTP_PROG_WORD : Fld := ⟨0x8e1c001000, 0, 7, 0⟩
def OTP_PROG_GO : Fld := ⟨0x8e1c001000, 7, 1, 0⟩
def OTP_PROG_BUSY : Fld := ⟨0x8e1c001000, 8, 1, 0⟩
def OTP_PROG_ERR : Fld := ⟨0x8e1c001000, 9, 1, 0⟩
def OTP_PROGDATA_DATA : Fld := ⟨0x8e1c001008, 0, 64, 0⟩
def TUFT_LCREC_WORD (d i j : Nat) : Fld := ⟨0x8E00000000 + d * 0x1000000000 + 0x10000 + i * 0x100000 + j * 8, 0, 64, 0⟩
def SURVEY_RECORD_WORD (i j : Nat) : Fld := ⟨0x8e10100000 + i * 0x20 + j * 8, 0, 64, 0⟩

end Sys2Proof.Machine.F
end

