-- ==== Sys2Proof/Machine/State.lean ====
section
/-! DEFINITION. The state of the device as plain data: everything the spec gives it, and the queue of waiting commands.
INVENTORY.md lists each piece with the rule that names it and its reset value. Every register of the register tables lives
in Main.regs, field by field; what the tables show of an engine's own state is computed from that state when it is read
(Views.lean). -/

namespace Sys2Proof.Machine

/-! ### Identity of the part, time, memory -/

/-- The three parts of R1. -/
inductive Part
  | d2 | d4 | d8
  deriving DecidableEq, Repr

/-- What is fixed in the package: the part (R1, R5), the fuses (R544) and the straps. -/
structure Hw where
  part : Part
  otp : List (Nat × Nat)
  bootStraps : BitVec 2
  svcStraps : BitVec 2
  deriving DecidableEq, Repr

/-- Device wall time (reference 1, R192): whole nanoseconds and a fraction in units of 2^-40 ns (R421), and the
whole seconds whose passing has been announced (R413). -/
structure Wall where
  ns : Nat
  frac : Nat
  sec : Nat
  deriving DecidableEq, Repr

/-- What a bank may hold until a handover has ended (R261): a request, the element of a flume, an access of a path from outside. -/
inductive HeldBy
  | request (r : MemReq)
  | element (die idx : Nat)
  | outside (p : Path)
  deriving DecidableEq, Repr

/-- Memory of the dies. cells holds the bytes that differ from what an unlisted address reads as, in rising order (log 2);
ce and ue the words (byte address of the word) that carry a correctable or an uncorrectable error (R258, R268); istr the
I-structure words that are not EMPTY, with 1 for FULL and 2 for DEFERRED (R137); lost the banks (64 × die + bank) whose
contents were lost in OFF, and rewritten the words written since (R264); inj the error injection armed at a memory controller
(R292); change the bank power changes under way (R264); scrub the next word of each patrol scrub (R269); held what a bank's handover has held, with
the bank (64 × die + bank), in the order of arrival (R261). -/
structure MemSt where
  cells : List Host.Cell
  ce : List Nat
  ue : List Nat
  istr : List (Nat × Nat)
  lost : List Nat
  rewritten : List Nat
  inj : List (Nat × Nat)
  change : List (Nat × Nat)
  scrub : List (Nat × Nat)
  held : List (Nat × HeldBy) := []
  deriving DecidableEq, Repr

/-! ### Tokens and tufts -/

/-- An event on its way from its source to the event router (R56): source, capture word, wall time of the capture. -/
structure Capture where
  src : Nat
  word : Nat
  time : Nat
  deriving DecidableEq, Repr

/-- A token that has reached a tuft (R43). -/
structure Arrival where
  die : Fin 8
  tuft : Fin 8
  tok : Token
  deriving DecidableEq, Repr

/-- Tokens between routers and PEs: in flight to a router, arrived at a tuft, operand sets ready to be dispatched in order of
age (R239), events captured, and the token that the event router holds for a source (R56). -/
structure TokSt where
  inflight : List Token
  arrived : List Arrival
  ready : List Firing
  captured : List Capture
  held : List (Nat × Token)
  deriving DecidableEq, Repr

/-- An entry of the matching store or of a spill buffer (R57, R65). err is 1 for a correctable and 2 for an uncorrectable
error in it (R59, R82). -/
structure MsEntry where
  die : Fin 8
  tuft : Fin 8
  ctx : BitVec 8
  frame : BitVec 24
  ia : BitVec 20
  side : Bool
  left : Option Opnd
  right : Option Opnd
  third : Option Opnd
  prio : BitVec 4
  age : Nat
  err : Nat
  deriving DecidableEq, Repr

/-- A soakaway probe that is outstanding, with the later tokens of the same key that wait for it (R63, R67). -/
structure Probe where
  die : Fin 8
  tuft : Fin 8
  tok : Token
  waiting : List Token
  deriving DecidableEq, Repr

/-- An activation record that is VALID (R98, R123). -/
structure LoopRec where
  die : Fin 8
  tuft : Fin 8
  idx : Nat
  call : Bool
  side : Bool
  ctx : BitVec 8
  block : BitVec 8
  k : Nat
  credits : Nat
  xcnt : Nat
  xdone : Nat
  ended : Bool
  remain : Nat
  link : BitVec 54
  outer : BitVec 24
  held : Option Firing
  deriving DecidableEq, Repr

/-- A divider of a PE pair with a divide in progress and its queue (R118). -/
structure Divider where
  die : Fin 8
  tuft : Fin 8
  pair : Fin 4
  cur : Firing
  queue : List Firing
  deriving DecidableEq, Repr

/-- The kind of an instruction slot (R87). -/
inductive SlotKind
  | empty | instr | lit | cont
  deriving DecidableEq, Repr

/-- An instruction slot whose kind or content is not EMPTY and 0 (R85, R87). -/
structure ImSlot where
  die : Fin 8
  tuft : Fin 8
  idx : Nat
  kind : SlotKind
  content : Word
  deriving DecidableEq, Repr

/-- Whose TLB an entry is in (R276): a tuft's, or the one that the flumes of a die share. -/
inductive TlbOwner
  | tuft (die : Fin 8) (t : Fin 8)
  | flumes (die : Fin 8)
  deriving DecidableEq, Repr

/-- A TLB entry (R276). part is true for the partner root. -/
structure TlbEntry where
  owner : TlbOwner
  ctx : BitVec 8
  part : Bool
  big : Bool
  vpn : Nat
  pa : Nat
  r : Bool
  w : Bool
  is_ : Bool
  deriving DecidableEq, Repr

/-- An entry of a tuft's walk cache (R276): the table that VA[47:36] (level 1) or VA[47:25] (level 2) leads to. -/
structure WalkEntry where
  die : Fin 8
  tuft : Fin 8
  ctx : BitVec 8
  part : Bool
  level : Nat
  tag : Nat
  base : Nat
  deriving DecidableEq, Repr

/-- Flags, operation count and trap count of an FP epoch in one tuft, not yet reported (R184, R185). -/
structure TuftEpoch where
  die : Fin 8
  tuft : Fin 8
  ctx : BitVec 8
  side : Bool
  epoch : Nat
  flags : BitVec 6
  ops : Nat
  traps : Nat
  deriving DecidableEq, Repr

/-- A token held in a weir buffer (R206): the wall time of its entry, and what its first evaluation found: none before it, and
afterwards the sign of d, true for negative (R207). -/
structure WeirTok where
  die : Fin 8
  tuft : Fin 8
  tok : Token
  entered : Nat
  seen : Option Bool
  deriving DecidableEq, Repr

/-- What a tuft holds of the reference bus (R26, R27): bad frames in a row, whether releases are held, and the positions,
directions and commit counts (R226) of the last good frame; seq is the sequence number that it expects next, none before its
first frame. -/
structure TuftBus where
  die : Fin 8
  tuft : Fin 8
  bad : Nat
  hold : Bool
  seq : Option Nat
  pos : List Int
  dirn : List Bool
  counts : List Nat
  deriving DecidableEq, Repr

/-- A change of a context's soakaway occupancy that is on its way to the tufts (R68): up or down, its wall time, the tufts (as 8 × die + tuft)
that it has not reached. -/
structure OccNews where
  ctx : BitVec 8
  up : Bool
  at_ : Nat
  tufts : List Nat
  deriving DecidableEq, Repr

/-- The state of the tufts of all compute dies. occ is each tuft's copy of each context's soakaway occupancy, by 256 × (8 × die + tuft) +
context, and occNews the changes under way to the copies (R68). ages is the insertion count of each matching store by 8 × die + tuft (R65);
inj the error injection armed for it (R82); partner the regions that hold a partner copy, as 64 × die + 8 × tuft + region
(R246); halted the tufts whose dispatch a debugger has halted, as 8 × die + tuft (R552); taken the blocks (256 × context + block) that were
paired at a takeover, and survived the soakaway slots, with their context, that have been written since (R248). -/
structure TuftSt where
  ms : List MsEntry
  ages : List (Nat × Nat)
  inj : List (Nat × Nat)
  spill : List MsEntry
  probes : List Probe
  recs : List LoopRec
  divs : List Divider
  imem : List ImSlot
  partner : List Nat
  tlb : List TlbEntry
  wcache : List WalkEntry
  epochs : List TuftEpoch
  weir : List WeirTok
  bus : List TuftBus
  halted : List Nat
  occ : List (Nat × Nat)
  occNews : List OccNews
  taken : List Nat := []
  survived : List (Nat × Nat) := []
  deriving DecidableEq, Repr

/-! ### Requests, translation, I-structures, paired contexts, epochs, parking -/

/-- A deferred ILOAD in its die's deferral table (R139), in the order in which it was recorded. -/
structure DeferEntry where
  die : Fin 8
  word : Nat
  ret : Ret
  flags : BitVec 3
  deriving DecidableEq, Repr

/-- The result with which an effect-once request was answered, for its second copy (R127, R247). -/
structure Answer where
  first : Option Opnd
  second : Option Opnd
  deriving DecidableEq, Repr

/-- A comparator entry (R247): the request's key and operands, the side that came first, its answer once there is one, the
second copy's destinations when it came before the answer, when the window closes, and whether it has closed. -/
structure CmpEntry where
  ctx : BitVec 8
  frame : BitVec 24
  ia : BitVec 20
  opc : Nat
  left : Opnd
  right : Opnd
  third : Opnd
  first : Bool
  answer : Option Answer
  second : Option Ret
  deadline : Nat
  expired : Bool
  deriving DecidableEq, Repr

/-- An epoch that is closing (R184): its number, its FBAR, what has been reported, the tufts still to report, and those of them at which
the change to the next epoch has arrived. -/
structure Closing where
  epoch : Nat
  fbar : Ret
  flags : BitVec 6
  traps : Nat
  ops : Nat
  waitFor : List Nat
  seen : List Nat := []
  deriving DecidableEq, Repr

/-- The epoch unit for one side of a context (R183, R184): current epoch, closing epochs (oldest first), FBARs held because
three are closing, and the masks that FSETF has recorded for the current epoch (R180). -/
structure EpochUnit where
  ctx : BitVec 8
  side : Bool
  cur : Nat
  closing : List Closing
  waiting : List Ret
  masks : BitVec 6 := 0
  deriving DecidableEq, Repr

/-- An unresolved FP_SUBNORMAL handle, the tuft that raised it, and the SIDE and epoch of its firing (R178, R179). -/
structure FpTrap where
  handle : BitVec 32
  die : Fin 8
  tuft : Fin 8
  ctx : BitVec 8
  side : Bool
  epoch : Nat
  deriving DecidableEq, Repr

/-- What a parking slot holds (R352). -/
inductive Work
  | operation (f : Firing)
  | token (t : Token)
  | flume (die : Fin 8) (idx : Nat)
  deriving DecidableEq, Repr

/-- An occupied parking slot as the parking unit knows it (R352, R353). -/
structure ParkSlot where
  ctx : BitVec 8
  idx : Nat
  gen : Nat
  code : Nat
  detail : Nat
  work : Work
  deriving DecidableEq, Repr

/-- Parking unit: occupied slots, the GEN of every slot ever filled (by 32768 × context + index), the fault count SEQ of each
context (R354), and the end of the handler boost of HWIN (R238) in wall ns for each context that has one. -/
structure ParkSt where
  slots : List ParkSlot
  gens : List (Nat × Nat)
  seqs : List (Nat × Nat)
  boost : List (Nat × Nat)
  deriving DecidableEq, Repr

/-- What the deadlock detector has seen of a context since the last tick (R243, R251): what waited at its start (none before the
first tick), a moment with a waiting token, one without any or at which one had appeared or disappeared, one with a firing or
ready entry, one with a weir token, one with a sluice wait, one with a flume completion pending. -/
structure TickFlags where
  ctx : BitVec 8
  start : Option (List Nat)
  waits : Bool
  noWait : Bool
  fired : Bool
  weir : Bool
  sluice : Bool
  flume : Bool
  deriving DecidableEq, Repr

/-- A TLBINV that waits until the accesses and walks that were under way for its entries have been performed (R163, R277). -/
structure TlbInv where
  f : Firing
  reqs : List MemReq
  walks : List Firing
  deriving DecidableEq, Repr

/-- Requests in flight and the units behind them. walks are the operations that wait for a page walk (R276). cmpWait holds
the requests that wait for a comparator entry (R247). -/
structure ReqSt where
  reqs : List MemReq
  walks : List Firing
  tlbInvs : List TlbInv
  defer : List DeferEntry
  cmp : List CmpEntry
  cmpWait : List Firing
  units : List EpochUnit
  fpTraps : List FpTrap
  fpctlCopy : List (Nat × Nat)
  park : ParkSt
  ticks : List TickFlags
  deriving DecidableEq, Repr

/-! ### Fault agents and the collector's inbox (R500) -/

/-- An event on its way from a die's fault agent to the collector: source number, raising die, named die, detail, whether
its block reports it as SEVERE at once, and the wall time at which it was raised (R503). -/
structure FaultEvent where
  src : Nat
  die : Fin 8
  named : Nat
  detail : Nat
  severe : Bool
  at_ : Nat
  deriving DecidableEq, Repr

/-! ### Sluices (R335 to R346) -/

/-- A waiter in the pool of the sluice unit (R338), in order of arrival: its request, its sluice and origin, when it joined and
when it times out (none: never, R340), both in wall ns. -/
structure Waiter where
  sluice : Nat
  origin : Nat
  f : Firing
  joined : Nat
  deadline : Option Nat
  deriving DecidableEq, Repr

/-! ### Units and runnels (R310 to R323, R365) -/

/-- A unit with an entry in the unit state table (R365). -/
inductive UnitId
  | runnel (die idx : Nat)
  | flume (die idx : Nat)
  | channel (n : Nat)
  | sluice (n : Nat)
  | iface (u : Nat)
  deriving DecidableEq, Repr

/-- The enables: the units that hold themselves enabled, and the accepted changes that they have not yet applied, in order
(R365). -/
structure UstSt where
  live : List UnitId
  changes : List (UnitId × Bool)
  deriving DecidableEq, Repr

/-- A committed packet (R314, R315): its serial, its words with their TYPEs, how many of them have been received, the time since
when it can be taken (its commit, or for a unit the departure of the packet before it, R418) and the time of its commit (R323). -/
structure Packet where
  serial : Nat
  words : List Opnd
  got : Nat
  since : Nat := 0
  at_ : Nat := 0
  deriving DecidableEq, Repr

/-- The open packet of a runnel (R142): its serial, the index of its next word, the words stored, whether it has been doomed or
aborted, the operation that opened it (none for a unit), and the neighbouring dies through which its requests reached the runnel's die (R330). -/
structure OpenPkt where
  serial : Nat
  next : Nat
  words : List Opnd
  doomed : Bool
  aborted : Bool
  by_ : Option Ret
  via : List Nat
  deriving DecidableEq, Repr

/-- What the runnel engine holds of a runnel: visible packets in commit order, the open packet, held requests in order of
arrival (R141, R320), and the packets outstanding under push delivery (R318). The serial of the next packet stands in
RUNNEL.SEQ.SER. Of the two counts that cross a runnel with a unit endpoint (R322) it holds how far the synchronised one stands behind:
for each slot freed that the producer side has not seen the time in ps by which it will (R323), oldest first, and how many of the last
packets the consumer side has not seen. -/
structure Runnel where
  die : Nat
  idx : Nat
  pkts : List Packet
  open_ : Option OpenPkt
  held : List Firing
  out : Nat
  frees : List Nat := []
  commitLag : Nat := 0
  deriving DecidableEq, Repr


/-! ### Flumes (R279 to R287) -/

/-- A flume descriptor (R280). -/
structure FlumeDesc where
  src : Nat
  dst : Nat
  len : Nat
  rows : Nat
  sstride : Int
  dstride : Int
  chain : Bool
  sphys : Bool
  dphys : Bool
  fill : Bool
  descend : Bool
  nphys : Bool
  next : Nat
  deriving DecidableEq, Repr

/-- A flume that runs or is parked, beyond its registers: where its FLUMEDONE goes (R154), whether it translates through the
partner root (R279), the descriptor in force (none while a chained one is still to be read), its park handle, 0 while it runs, the PRIO of
its FLISSUE (R352), and the bytes that its descriptor has overwritten, by their plain physical addresses, with what they held (R282). -/
structure FlumeSt where
  die : Nat
  idx : Nat
  ret : Ret
  part : Bool
  desc : Option FlumeDesc
  handle : BitVec 32
  prio : BitVec 4 := 0
  saved : List (Nat × Nat) := []
  deriving DecidableEq, Repr

/-! ### Dredges (R293 to R308) -/

/-- What a dredge is doing, or does next (R294, R297). -/
inductive DrPhase
  | copy
  | elem (k : Nat)
  | restore
  | gap (until_ : Nat)
  | pause (k until_ : Nat)
  deriving DecidableEq, Repr

/-- A dredge run beyond its registers: what was started (R293, R294), the strip under test with the number of times that it has
been abandoned in a row, the first strip not yet started, the abandoned strips that are to be tested again (R300), the error
with which the run ends after the current strip, and the banks to be repaired before it moves on (R303). boot marks the
boot test of all banks (R307), cut a strip whose test a power request has cut short (R299), later the strip abandoned just before a
repair, to be tested again after the next one (R300). -/
structure DredgeSt where
  die : Nat
  alg : Nat
  destr : Bool
  dram : Bool
  boot : Bool
  bank : Nat
  first : Nat
  count : Nat
  phase : DrPhase
  cur : Nat
  tries : Nat
  next : Nat
  again : List (Nat × Nat)
  ending : Option Nat
  repair : List Nat
  cut : Bool := false
  later : Option (Nat × Nat) := none
  deriving DecidableEq, Repr


/-! ### Culverts (R324 to R332) -/

/-- One end of a culvert beyond its registers: SEQ of the next flit that it sends, its replay buffer (R326), SEQ of the next flit
that it expects, the flits received and not yet acknowledged, the replays in a row of the oldest flit that its partner has
not received, whether the partner has requested a replay and whether one is under way, the trainings that have failed in a
row, whether it has trained before, and whether the link has been declared down since its last good training (R328, R331). -/
structure CulvEnd where
  die : Nat
  port : Nat
  seq : Nat
  buf : List (Nat × Flit)
  rx : Nat
  unacked : Nat
  fails : Nat
  asked : Bool
  replaying : Bool
  trains : Nat
  trained : Bool
  declared : Bool
  deriving DecidableEq, Repr

/-! ### References, the reference bus, the output scheduler, changeover (R192 to R230) -/

/-- A reference (R192 to R205). pos is its position in 2^-16 units, which does not wrap: a read of it shows 64 bits (log 230); p0 and x0 its anchor and x its reading (R194); src the last
value of its source, for unwrapping; far the furthest reading in the direction of travel, dir true for increasing position
(R200); rem the remainder carried by KIND VIRTUAL in 2^-16 of a 2^-16 unit; edges, lastEdge, lastAdv and periods the history
of edges (R198); steps the edges since the last reversal or enable, up to 2, and stand whether it stands (R202); samp and samp2 the last two samples with their times (R199); vneg the sign
of the last non-zero VEL, if there was one (R200); lastWin the shifted position up to which crossing events have been raised (R204); farWin the
furthest window in the rule's direction since it was enabled, and over whether EXCUR lies above REVLIM (R205). -/
structure RefSt where
  r : Nat
  pos : Int
  p0 : Int
  x0 : Int
  x : Int
  src : Int
  far : Int
  dir : Bool
  rem : Int
  edges : Nat
  steps : Nat
  lastEdge : Nat
  lastAdv : Option Nat
  periods : List Nat
  stand : Bool
  samp : Option (Int × Nat)
  samp2 : Option (Int × Nat)
  vneg : Option Bool
  lastWin : Int
  farWin : Int
  over_ : Bool
  deriving DecidableEq, Repr

/-- A reference-bus frame (R26, R226): sequence number, positions, directions, commit count of each changeover slot. -/
structure BusFrame where
  seq : Nat
  pos : List Int
  dirn : List Bool
  counts : List Nat
  deriving DecidableEq, Repr

/-- A pending or designate entry of the output scheduler (R217 to R219, R224): channel, reference, stamp, value, the context
that wrote it, the changeover slot it waits for as a designate entry, whether it has been evaluated since acceptance or since
its reference was enabled, and the sign of d then (R207). -/
structure OutEntry where
  ch : Nat
  ref : Nat
  stamp : Nat
  value : Nat
  ctx : Nat
  slot : Option Nat
  seen : Option Bool
  deriving DecidableEq, Repr

/-- An entry of a changeover descriptor (R221, R222). -/
structure ChgEntry where
  kind : Nat
  target : Nat
  value : Nat
  deriving DecidableEq, Repr

/-- A changeover slot beyond its registers: the entries read, the index at which staging found the descriptor unreadable, the
wall time at which it became ARMED, the sign of d then (R207), and what its last commit swapped: the placement entries, the contexts with the
RUN that each had before, and the event sources with the route that each had before (R226). -/
structure ChgSlot where
  k : Nat
  entries : List ChgEntry
  bad : Option Nat
  armedAt : Nat
  seen : Bool
  moved : List Nat
  runs : List (Nat × Nat) := []
  routes : List (Nat × Nat) := []
  deriving DecidableEq, Repr

/-- References, the last frame sent, the scheduler's entries in order of acceptance, the changeover slots, and the number of
commits of each slot modulo 4 (R226). -/
structure RefsSt where
  refs : List RefSt
  frame : BusFrame
  outs : List OutEntry
  slots : List ChgSlot
  commits : List Nat
  deriving DecidableEq, Repr


/-! ### Ports of the field die (R372 to R397) -/

/-- An SSI frame in progress (R379): its sample time. -/
structure SsiFrame where
  start : Nat
  deriving DecidableEq, Repr

/-- An axis receiver that a survey stimulus makes deaf (R442): port and receiver, the wall time until which it is deaf once the stimulus has
ended, and the level that it reads now. -/
structure Deaf where
  port : Nat
  rx : Nat
  till : Option Nat
  level : Bool
  deriving DecidableEq, Repr

/-- An axis port beyond its registers: the raw count (R375), the levels of A, B and Z after INV (R373), the quarter periods of
SINCOS mode and the fine position last formed (R378), which receivers are lost as a mask (R377), the SSI frame in progress and the time until which no new
frame starts, the last SSI word once there was one, the time of the last periodic trigger (R379), and whether the SSI clock is enabled (R400). -/
structure AxisSt where
  n : Nat
  raw : Int
  a : Bool
  b : Bool
  z : Bool
  quarters : Int
  sc : Int
  lost : Nat
  ssi : Option SsiFrame
  ssiFree : Nat
  ssiWord : Option Nat
  ssiLast : Option Nat
  clk : Bool := false
  deriving DecidableEq, Repr

/-- A resolver interface beyond its registers: its angle has been held since EN was 0 or LOS was 1 (R381), and the wall time at which its
excitation started at phase 0 (R400). -/
structure ResSt where
  i : Nat
  held : Bool
  start : Nat := 0
  deriving DecidableEq, Repr

/-- The mains detector of an analog input: the wall time of the last crossing (R382). -/
structure MainsSt where
  j : Nat
  last : Nat
  deriving DecidableEq, Repr

/-- A DAC channel beyond its latch: the wall time of the last conversion start, and the write that is held (R384). -/
structure DacSt where
  n : Nat
  start : Option Nat
  held : Option Nat
  deriving DecidableEq, Repr

/-- A phase of a motor port (R386): its ideal signal and the wall time of its last change, whether the output pulse that this
change begins is suppressed (shorter than MINPW), and the wall time at which its mode last changed. -/
structure PhaseSt where
  on : Bool
  since : Nat
  short : Bool
  modeAt : Nat
  deriving DecidableEq, Repr

/-- A motor port beyond its registers (R385 to R389): carrier periods counted, the wall time of the last carrier zero and whether the
carrier has passed its top since, the shadow of the control word (word 3), the wall
times at which the shadow words were written and not yet loaded (by word number), the three phases, whether the outputs
follow the control word (from the first carrier zero after the enable, R400), whether a trip holds them inactive (R389),
whether a group of samples is in progress, its samples and the wall time of its first, and whether the survey engine drives the outputs or
has left them inactive (R450, R452). -/
structure MotorSt where
  m : Nat
  periods : Nat
  zero : Nat
  topped : Bool
  ctl : Nat
  written : List (Nat × Nat)
  phases : List PhaseSt
  follow : Bool
  tripped : Bool
  group : Bool
  samples : List (Int × Int × Int)
  first : Nat
  drv : Bool := false
  deriving DecidableEq, Repr

/-- A general timer beyond its registers (R393, R394): running, the wall time at which the current period or wait began, the
values that take effect with the next period, the wall time at which the pulse in progress ends, the direction of travel, the wall time at which
DIRPIN takes it, and the earliest wall time of the next step pulse. -/
structure TimerSt where
  t : Nat
  run : Bool
  start : Nat
  wait : Nat
  newPer : Option Nat
  newWidth : Option Nat
  pulseEnd : Nat
  up : Bool
  turn : Nat
  ready : Nat
  deriving DecidableEq, Repr

/-- A tape port beyond its registers (R395, R396): level of RDY, and in EMULATE mode the holes presented with the wall time of
their presentation, and whether a rise of RUN waits for them to end. -/
structure TapeSt where
  p : Nat
  rdy : Bool
  holes : Option (Nat × Nat)
  want : Bool := false
  deriving DecidableEq, Repr

/-- The ports, and the gate lines from the safety island (R28, R474): the DACs, motor ports and GPIOs whose gate is open, as
masks. -/
structure PortSt where
  axes : List AxisSt
  ress : List ResSt
  mains : List MainsSt
  dacs : List DacSt
  motors : List MotorSt
  timers : List TimerSt
  tapes : List TapeSt
  openDac : Nat
  openMot : Nat
  openGpio : Nat
  deriving DecidableEq, Repr

/-! ### Communication (R409 to R432). What a port puts on its medium last is kept as wire. -/

/-- A gate control list with its base and cycle (R419): gate bits, interval in ns and HOLD of each entry. -/
structure Gcl where
  base : Nat
  cycle : Nat
  entries : List (Nat × Nat × Bool)
  deriving DecidableEq, Repr

/-- A frame that the MAC transmits (R420): its packet, its class, whether it goes as preemptable, the bytes of it that earlier fragments
have carried, and the time at which the preamble of the present fragment began. -/
structure EthTx where
  ws : List Nat
  cls : Nat
  pre : Bool
  done : Nat
  start : Nat
  deriving DecidableEq, Repr

/-- An Ethernet port beyond its registers: the transmit timestamps with their TAGs (R417), the latched list and the time at
which it is adopted, the operational list, whether a hold request is in force (R419, R420), the end of a PAUSE (R415), the frame in
transmission, the one that is preempted and the time until which the medium is occupied (R420), and the time since which gating runs as
it does. -/
structure EthSt where
  p : Nat
  txts : List (Nat × Nat)
  latched : Option (Gcl × Nat)
  oper : Gcl
  hold : Bool
  pause : Nat
  wire : List Nat
  tx : Option EthTx := none
  paused : Option EthTx := none
  busy : Nat := 0
  since : Nat := 0
  deriving DecidableEq, Repr

/-- A CAN controller beyond its registers (R423). -/
structure CanSt where
  c : Nat
  wire : List Nat
  deriving DecidableEq, Repr

/-- A UART beyond its registers (R425): the bytes of the message being received, how many characters have come since the last
boundary, time of the first start bit, its error flags (FE 1, PE 2, BREAK 4), whether it is being discarded, a boundary that
has been reached (0 none, else END plus 1), the end of the last character received, the times at which the characters of the packet in
transmission start, its end and the time until which DE is asserted. -/
structure UartSt where
  n : Nat
  bytes : List Nat
  count : Nat
  first : Nat
  flags : Nat
  dropping : Bool
  bound : Nat
  last : Nat := 0
  starts : List Nat := []
  txEnd : Nat
  deEnd : Nat
  wire : List Nat
  deriving DecidableEq, Repr

/-- A storage command in progress (R429). -/
structure StorCmd where
  op : Nat
  part : Nat
  tag : Nat
  dev : Nat
  pa : Nat
  len : Nat
  deriving DecidableEq, Repr

/-- A storage unit: the command in progress, a completion word that waits for room. -/
structure StorSt where
  u : Nat
  cmd : Option StorCmd
  done : Option Nat
  wire : List Nat
  deriving DecidableEq, Repr

/-- The last access from outside and its answer (R414; log 165). -/
structure ExtRes where
  path : Path
  status : Nat
  data : List Nat
  deriving DecidableEq, Repr

/-- The communication units: MDIO operation in progress (R434), the last ring entry written back with its host address and the last MSI-X
vector sent to the host (R427), whether the service target acknowledged the address that last woke the
device (R431), the last bulk IN transfers (R428), the result that the service target holds for its Block Read
(R430), and the PMBus transaction in progress (R432). -/
structure CommSt where
  eths : List EthSt
  cans : List CanSt
  uarts : List UartSt
  mdio : Nat
  ring : Option (Nat × RingEnt)
  vector : Option Nat
  usb : List (List Nat)
  stors : List StorSt
  svc : List Nat
  ext : Option ExtRes
  svcAck : Bool := false
  deriving DecidableEq, Repr


/-! ### Survey (R439 to R462) -/

/-- A supply rail under watch (R458): outside its window, and since when it has been back inside. -/
structure RailSt where
  r : Nat
  back : Option Nat
  deriving DecidableEq, Repr

/-- A WINDING pair in progress (R451, R452): CNT of the watched axis at its start, the step (0 the first rise, 1 the hold, 2 the second rise,
3 measured) and the wall time at which it began, the ideal signal of the pair's first phase with the wall time of its last change, whether the pulse that
followed is suppressed, and whether the watched axis has moved. -/
structure Wind where
  cnt : Int
  step : Nat
  since : Nat
  on : Bool
  at_ : Nat
  short : Bool
  moved : Bool
  deriving DecidableEq, Repr

/-- The survey engine beyond its registers: objects of the current plan entry that are done, the phase pair of the motor port under
test (R450), SEQ of the next entry (R461), whether stimulus is refused for the rest of the run (R444), the WINDING
pair that is being driven (R451), the rails that have left their windows and not yet been
back for 1 ms, whether the mains frequency is outside its window (R458), and the receivers that a stimulus makes deaf (R442). -/
structure SurvSt where
  done : Nat
  pair : Nat
  seq : Nat
  stimOff : Bool
  wind : Option Wind
  rails : List RailSt
  mains : Bool
  deaf : List Deaf := []
  deriving DecidableEq, Repr


/-! ### Modes, resets, power, boot and security (R518 to R557) -/

/-- A performance-level change in progress on a compute die (R532): its target, whether it goes up, its phase (0 VOUT_COMMAND, 1 settle,
2 READ_VOUT, 3 frequency step) with the wall time at which the phase began, and how often the wait and the read have been repeated. -/
structure PwrChg where
  die : Nat
  to_ : Nat
  up : Bool
  phase : Nat
  at_ : Nat
  reps : Nat
  deriving DecidableEq, Repr

/-- The mode, reset and power controller beyond its registers. pow is the sequencer (0 all rails up and running, 1 power-on sequence, 2
waiting 1 s after a rail failure, 3 held by RESET_N, 4 links training in the power-on sequence, 5 VSAFE absent, 6 links training after RESET_N),
and powAt the wall time since which, or since which the next rail is being enabled; rails the entries of the OTP rail table whose rails are up,
in the order in which they were enabled (R528, R544); warm that the dies of a warm reset have not all joined or failed to (R527, R529);
isol the dies whose isolation has not ended (R526); dorm the dies whose dormant request is held (R535, R537); back the mode in which
STANDBY was entered, during entry, STANDBY and wake (R538, R539); wake a wake source that waits for the end of entry (R540); waking
that a wake is under way; chgs the performance-level changes; busq the dies whose PMBus transactions are under way or waiting, in order of
request (R532); hot the dies that have counted THERMAL_FAULT and not cooled since, and warmCap that the field die has counted
THERMAL_CAP and not cooled since (R534). -/
structure SysSt where
  pow : Nat
  powAt : Nat
  rails : List Nat
  warm : Bool
  isol : List Nat
  dorm : List Nat
  back : Option Nat
  wake : Option Nat
  waking : Bool
  chgs : List PwrChg
  busq : List Nat
  hot : List Nat
  warmCap : Bool
  deriving DecidableEq, Repr

/-- An outstanding challenge (R551): path, level, the 16 bytes of the nonce, wall time. -/
structure Nonce where
  path : Nat
  level : Nat
  bytes : List Nat
  at_ : Nat
  deriving DecidableEq, Repr

/-- The boot in progress (R545): source, slots still to be tried with the current one first, wall time of entry into BOOT, and the
length of the image that has been staged, once there is one. -/
structure BootSt where
  src : Nat
  slots : List Nat
  at_ : Nat
  staged : Option Nat
  apply : Option (List Nat × Nat) := none
  deriving DecidableEq, Repr

/-- A graph verification in progress (R555): image address, length, key address, key index. -/
structure VfySt where
  addr : Nat
  len : Nat
  key : Nat
  idx : Nat
  deriving DecidableEq, Repr

/-- The boot and security block beyond its registers: wall time of the last activity of the session's path, the outstanding nonce, the
end of the lockout in wall ns (R550), the boot, the verification, and the OTP word being programmed with the ones. -/
structure SecSt where
  last : Nat
  nonce : Option Nonce
  lockEnd : Option Nat
  boot : Option BootSt
  vfy : Option VfySt
  otp : Option (Nat × Nat)
  deriving DecidableEq, Repr


/-- An open count of the collector (R503): die and source, events so far, wall time of the first. -/
structure CountSt where
  die : Nat
  src : Nat
  n : Nat
  at_ : Nat
  deriving DecidableEq, Repr

/-- A reaction with what triggered it: SEQ of its log entry, class, source, raising and named die, detail, severity, level, start. -/
structure React where
  seq : Nat
  cls : Nat
  src : Nat
  die : Nat
  named : Nat
  detail : Nat
  sev : Nat
  level : Nat
  at_ : Nat
  deriving DecidableEq, Repr

/-- An open shadow (R509): SEQ and level of the reaction, scope (1 SOURCE, 2 DIE, 3 DEVICE), source, raising and named die of the trigger, and
the wall time at which it ends, none while the reaction is in progress. -/
structure Shadow where
  seq : Nat
  level : Nat
  scope : Nat
  src : Nat
  die : Nat
  named : Nat
  until_ : Option Nat
  deriving DecidableEq, Repr

/-- The collector and the agents: the status word of each die's agent, the events that have been sent, and what the field die
last read of the SAFE block (STATE, HOLD, inputs in FAULT, CAUSE of each channel; R501); open counts; the running acknowledgement
timers with the reaction that each class awaits (R507); reactions in progress (R508); open shadows; the level of ALIVE_OUT and the wall time
of its last change (R510); the wall time of the last self-check and the dies whose echo has not been judged (R511). -/
structure CollSt where
  agents : List (Nat × Nat)
  inbox : List FaultEvent
  polled : List Nat
  counts : List CountSt
  acks : List React
  reacts : List React
  shadows : List Shadow
  alive : Bool
  aliveAt : Nat
  checkAt : Nat
  echoes : List Nat
  deriving DecidableEq, Repr


/-! ### The safety island (R463 to R498). Its time is counted in safety cycles of 100 µs. -/

/-- A safe input (R468): the levels of its channels, for how many samples of 10 µs each has held, for how many samples the channels
have agreed or disagreed, whether it is OK and was at the last cycle, whether it demands by its levels, and FAULT. -/
structure SafeIn where
  a : Bool
  b : Bool
  da : Nat
  db : Nat
  dx : Nat
  ok : Bool
  wasOk : Bool
  demand : Bool
  fault : Bool
  acted : Bool
  deriving DecidableEq, Repr

/-- A running SS1 or SS2 (R477): cycle of its entry, speed at entry, whether only TRAMP ends it (SS1-t), whether HOLD began it. -/
structure StopRun where
  entry : Nat
  v0 : Nat
  timed : Bool
  hold : Bool
  deriving DecidableEq, Repr

/-- A drive channel (R475 to R480): STO asserted and the cycle at which it last changed, the running functions, the counter at the
entry of SOS and who selected it, the SLS limit that requests have selected, SDI (reverse only, furthest point), referenced,
RSTPEND, TESTDUE, PAIRFAULT, CAUSE; its two safe counters, their values at the last
reference, and the counters of the last cycles, newest first. -/
structure SafeCh where
  sto : Bool
  since : Nat
  ss1 : Option StopRun
  ss2 : Option StopRun
  sos : Option Int
  sosReq : Bool
  sosIn : Bool
  sls : Nat
  sdi : Option (Bool × Int)
  ref : Bool
  rstpend : Bool
  testdue : Bool
  pairfault : Bool
  cause : Nat
  c0 : Int
  c1 : Int
  r0 : Int
  r1 : Int
  hist : List (Int × Int)
  deriving DecidableEq, Repr

/-- The load buffer of a parameter set (R492): the words written, the cycle of PSET_BEGIN, and how far the key switch has come
since (0, 1 NORMAL seen, 2 CONFIRM after it, R493). -/
structure SetLoad where
  words : List (Nat × Nat)
  since : Nat
  key : Nat
  deriving DecidableEq, Repr

/-- A test pulse that runs (R469): its output, the samples since its falling edge, and the channels (bit 2n for A of input n, 2n + 1 for B)
that have read low in time and high again after it. -/
structure TpRun where
  k : Nat
  n : Nat
  low : Nat
  high : Nat
  deriving DecidableEq, Repr

/-- The island. st is STATE (R465); t counts cycles since VSAFE power-on; opn is set while a safety cycle takes requests and budget
counts those it may still take (R464); pset holds the 206 words of the active set; brk the brake pairs (released, cycle of the last
change); gates the open gate groups; stoErr and brkErr the readback errors; hold and the three losses of R467, obs whether one
held in the last cycle; key, keyBad and keyFault the key switch (R472); resetAt the cycles of the resets after FAULT and locked
whether it stays in INIT (R496); rseq and sseq the SEQs of requests and status packets (R483, R487); verify the sets under
verification, oldest first, each with the SEQ to answer; nvKey, nvHash and nvSetNo the island NV (R463, R492); outq the packets to be committed;
pub what the last STATUS packet showed of STATE, HOLD and FUNC; reads what the words of the cycle's request packets meet; dem the targets that
requests of this cycle demanded (0 channel, 1 brake pair, 2 group; R464); tp the test pulse that runs, tpNext the output whose turn it is and
tpAt the cycle in which the last one began (R469); rx the A and B levels at the island's receivers of the axis ports (R476). -/
structure Island where
  on : Bool
  st : Nat
  t : Nat
  opn : Bool
  budget : Nat
  pset : Option (List Nat)
  ins : List SafeIn
  chs : List SafeCh
  brk : List (Bool × Nat)
  gates : Nat
  stoErr : Nat
  brkErr : Nat
  hold : Bool
  alive : Bool
  rst : Bool
  hb : Bool
  obs : Bool
  aliveAt : Nat
  hbAt : Nat
  key : Nat
  keyBad : Nat
  keyFault : Bool
  core : Nat
  io : Nat
  fault : Nat
  resets : Nat
  lastRst : Nat
  resetAt : List Nat
  locked : Bool
  rseq : Option Nat
  sseq : Nat
  refused : Nat
  sdrop : Nat
  load : Option SetLoad
  verify : List (SetLoad × Nat)
  nvKey : List Nat
  nvHash : List Nat
  nvSetNo : Nat
  outq : List (List Nat)
  pub : List Nat
  statAt : Nat
  reads : List (List Ecc)
  dem : List (Nat × Nat)
  tp : Option TpRun
  tpNext : Nat
  tpAt : Nat
  rx : List (Bool × Bool)
  deriving DecidableEq, Repr

/-- A safe input after island reset. -/
def SafeIn.zero : SafeIn :=
  { a := false, b := false, da := 0, db := 0, dx := 0, ok := false, wasOk := false, demand := false, fault := false,
    acted := false }

/-- A drive channel after island reset (R465, R476, R499). -/
def SafeCh.zero : SafeCh :=
  { sto := true, since := 0, ss1 := none, ss2 := none, sos := none, sosReq := false, sosIn := false, sls := 4, sdi := none,
    ref := false, rstpend := false, testdue := false, pairfault := false, cause := 0, c0 := 0, c1 := 0, r0 := 0,
    r1 := 0, hist := [] }

/-- The island at VSAFE power-on, with blank island NV (log 110). -/
def Island.zero : Island :=
  { on := true, st := 0, t := 0, opn := false, budget := 0, pset := none, ins := List.replicate 32 SafeIn.zero,
    chs := List.replicate 16 SafeCh.zero, brk := List.replicate 8 (false, 0), gates := 0, stoErr := 0, brkErr := 0, hold := false,
    alive := false, rst := false, hb := false, obs := false, aliveAt := 0, hbAt := 0, key := 0, keyBad := 0, keyFault := false,
    core := 0, io := 0, fault := 0, resets := 0, lastRst := 0, resetAt := [], locked := false, rseq := none, sseq := 0,
    refused := 0, sdrop := 0, load := none, verify := [], nvKey := [], nvHash := [], nvSetNo := 0, outq := [], pub := [],
    statAt := 0, reads := [], dem := [], tp := none, tpNext := 0, tpAt := 0, rx := List.replicate 64 (false, false) }

/-! ### The whole state -/

/-- The main domains: field die, compute dies and memory dies. regs is the register file (field by field, under the bit
address of the field, in rising order, no entry equal to its reset value); fresh counts the free values taken. -/
structure Main where
  hw : Hw
  regs : List (Nat × Nat)
  wall : Wall
  fresh : Nat
  mem : MemSt
  tok : TokSt
  tuft : TuftSt
  req : ReqSt
  placing : List Nat
  waiters : List Waiter
  runnels : List Runnel
  ust : UstSt
  flumes : List FlumeSt
  dredges : List DredgeSt
  culvs : List CulvEnd
  ref : RefsSt
  port : PortSt
  comm : CommSt
  surv : SurvSt
  sys : SysSt
  sec : SecSt
  coll : CollSt
  deriving DecidableEq, Repr

/-- The device: the commands that are waiting, first in first out; the main domains; the safety island on VSAFE. -/
structure State where
  pending : List Instr
  main : Main
  isl : Island
  deriving DecidableEq, Repr

/-- Why the block stops. The manual gives every command an effect, so nothing stops the block. -/
inductive Fault
  /-- A command names a unit, port or object that the part does not have (R1, R2). No command raises it: such a command changes nothing
  (log 15). Safe: no claim about the hardware follows from it. -/
  | noSuchUnit
  deriving DecidableEq, Repr

/-- Why the model gives a command no meaning. -/
inductive Refusal
  /-- A row of the table without a meaning. No arm of the dispatch raises it: every row has its meaning. Safe. -/
  | notModelled (mnemonic : String)
  deriving DecidableEq, Repr

/-- The main domains right after reset. Every register of the tables is at its reset value (an empty register file); the part
is a D8 with blank fuses and straps 0 (log 1); wall time starts at 0 (R421); memory lists nothing (log 2). -/
def Main.reset : Main where
  hw := { part := .d8, otp := [], bootStraps := 0, svcStraps := 0 }
  regs := []
  wall := { ns := 0, frac := 0, sec := 0 }
  fresh := 0
  mem := { cells := [], ce := [], ue := [], istr := [], lost := [], rewritten := [], inj := [], change := [], scrub := [] }
  tok := { inflight := [], arrived := [], ready := [], captured := [], held := [] }
  tuft := { ms := [], ages := [], inj := [], spill := [], probes := [], recs := [], divs := [], imem := [], partner := [], tlb := [], wcache := [],
            epochs := [], weir := [], bus := [], halted := [], occ := [], occNews := [] }
  req := { reqs := [], walks := [], tlbInvs := [], defer := [], cmp := [], cmpWait := [], units := [], fpTraps := [], fpctlCopy := [],
           park := { slots := [], gens := [], seqs := [], boost := [] }, ticks := [] }
  placing := []
  waiters := []
  runnels := []
  ust := { live := [], changes := [] }
  flumes := []
  dredges := []
  culvs := []
  ref := { refs := [], frame := { seq := 0, pos := [], dirn := [], counts := [0, 0, 0, 0] }, outs := [], slots := [], commits := [0, 0, 0, 0] }
  port := { axes := [], ress := [], mains := [], dacs := [], motors := [], timers := [], tapes := [], openDac := 0, openMot := 0, openGpio := 0 }
  comm := { eths := [], cans := [], uarts := [], mdio := 0, ring := none, vector := none, usb := [[], []], stors := [], svc := [], ext := none }
  surv := { done := 0, pair := 0, seq := 0, stimOff := false, wind := none, rails := [], mains := false }
  sys := { pow := 1, powAt := 0, rails := [], warm := false, isol := [], dorm := [], back := none, wake := none, waking := false, chgs := [], busq := [], hot := [], warmCap := false }
  sec := { last := 0, nonce := none, lockEnd := none, boot := none, vfy := none, otp := none }
  coll := { agents := [], inbox := [], polled := [], counts := [], acks := [], reacts := [], shadows := [], alive := false, aliveAt := 0, checkAt := 0, echoes := [] }

/-- The machine right after reset, with no command waiting. -/
def State.reset : State where
  pending := []
  main := Main.reset
  isl := Island.zero

end Sys2Proof.Machine
end

