-- ==== Sys2Proof/Machine/Ops.lean ====
section
/-! DEFINITION. The named operations over the register file, contexts, tokens, events and fault sources that every family
uses. -/

namespace Sys2Proof.Machine

/-! ### Bit fields -/

/-- Bits [lo+w-1:lo] of x. -/
def bitsOf (x lo w : Nat) : Nat := x / 2 ^ lo % 2 ^ w

/-- A natural number as a 64-bit word. -/
def w64 (x : Nat) : Word := BitVec.ofNat 64 x

/-- A signed reading of the low w bits of x. -/
def sgn (w x : Nat) : Int :=
  let y := x % 2 ^ w
  if y < 2 ^ (w - 1) then (y : Int) else (y : Int) - 2 ^ w

/-- The w-bit two's complement image of an integer. -/
def uns (w : Nat) (x : Int) : Nat := (x % (2 ^ w : Nat)).toNat

/-- Saturating sum in w bits. -/
def satAdd (w a b : Nat) : Nat := Nat.min (a + b) (2 ^ w - 1)

/-- 1 for true, 0 for false. -/
def b2n (b : Bool) : Nat := if b then 1 else 0

/-! ### Sparse maps from natural numbers, in rising order of the keys -/

/-- The value under key k, or d. -/
def nmGet : List (Nat × Nat) → Nat → Nat → Nat
  | [], _, d => d
  | p :: t, k, d => if p.1 = k then p.2 else nmGet t k d

/-- Insert or replace, keeping the keys in rising order. -/
def nmIns : List (Nat × Nat) → Nat → Nat → List (Nat × Nat)
  | [], k, v => [(k, v)]
  | p :: t, k, v =>
    if k < p.1 then (k, v) :: p :: t
    else if p.1 = k then (k, v) :: t
    else p :: nmIns t k v

/-- Remove a key. -/
def nmDel (l : List (Nat × Nat)) (k : Nat) : List (Nat × Nat) := l.filter (fun p => p.1 != k)

/-- Store v under k where an unlisted key means d. -/
def nmPut (l : List (Nat × Nat)) (k v d : Nat) : List (Nat × Nat) :=
  if v = d then nmDel l k else nmIns l k v

/-! ### The register file -/

/-- The value of a field (R11). -/
def Main.get (m : Main) (f : Fld) : Nat := nmGet m.regs f.key f.rst

/-- Write a field, in its width. -/
def Main.set (m : Main) (f : Fld) (v : Nat) : Main :=
  { m with regs := nmPut m.regs f.key (v % 2 ^ f.w) f.rst }

/-- A one-bit field as a truth value. -/
def Main.flag (m : Main) (f : Fld) : Bool := m.get f != 0

/-- Add to a saturating counter. -/
def Main.bumpBy (m : Main) (f : Fld) (n : Nat) : Main := m.set f (satAdd f.w (m.get f) n)

/-- Count one event in a saturating counter. -/
def Main.bump (m : Main) (f : Fld) : Main := m.bumpBy f 1

/-- Follow a highest value (a PEAK field, R13). -/
def Main.peak (m : Main) (f : Fld) (v : Nat) : Main := m.set f (Nat.max (m.get f) (Nat.min v (2 ^ f.w - 1)))

/-- Write a field when a condition holds. -/
def Main.setIf (m : Main) (c : Bool) (f : Fld) (v : Nat) : Main := if c then m.set f v else m

/-! ### The part (R1, R5, R17) -/

/-- R1: whether a die position is populated. -/
def Part.populated (p : Part) (d : Nat) : Bool :=
  match p with
  | .d2 => d ≤ 1
  | .d4 => d ≤ 2 || d == 6
  | .d8 => d ≤ 7

/-- R5: MODE.IDENT.DIEMAP. -/
def Part.diemap : Part → Nat
  | .d2 => 0x03
  | .d4 => 0x47
  | .d8 => 0xFF

/-- R5: MODE.IDENT.PART. -/
def Part.code : Part → Nat
  | .d2 => 2
  | .d4 => 4
  | .d8 => 8

/-- R1: a populated die position. -/
def Main.pop (m : Main) (d : Nat) : Bool := m.hw.part.populated d

/-- A populated compute die. -/
def Main.compute (m : Main) (d : Nat) : Bool := decide (1 ≤ d ∧ d ≤ 5) && m.pop d

/-- The populated compute dies, in rising order. -/
def Main.computeDies (m : Main) : List Nat := [1, 2, 3, 4, 5].filter m.pop

/-- MODE.DIE[d].STATE: 0 ABSENT, 1 ACTIVE, 2 ISOLATED, 3 ENTERING, 4 DORMANT, 5 JOINING, 6 RESETTING (R542). -/
def Main.dieState (m : Main) (d : Nat) : Nat := if m.pop d then m.get (F.MODE_DIE_STATE d) else 0

/-- A die that does work: ACTIVE, or ENTERING dormant and still finishing (R535). -/
def Main.dieLive (m : Main) (d : Nat) : Bool :=
  d == 0 || m.dieState d == 1 || m.dieState d == 3

/-- R215: the output channels. -/
def chanOk (c : Nat) : Bool :=
  decide (c < 0x40) || decide (0x100 ≤ c ∧ c < 0x140) || decide (0x200 ≤ c ∧ c < 0x3C0) || decide (0x400 ≤ c ∧ c < 0x440)

/-- Die index of a number. -/
def fin8 (n : Nat) : Fin 8 := Fin.ofNat 8 n

/-- Wall time in whole nanoseconds. -/
def Main.now (m : Main) : Nat := m.wall.ns

/-! ### The ways between the dies (R22, R24) -/

/-- R22: a compute die attaches to a memory die. -/
def Part.attaches (p : Part) (d mem : Nat) : Bool :=
  match p with
  | .d2 => false
  | .d4 => decide (mem = 6 ∧ 1 ≤ d ∧ d ≤ 2)
  | .d8 => decide ((mem = 6 ∧ 1 ≤ d ∧ d ≤ 3) ∨ (mem = 7 ∧ 3 ≤ d ∧ d ≤ 5))

/-- R21: the port of a memory die (1 PEERA, 2 PEERB, 3 PEERC) behind which a compute die lies. -/
def Part.peer (p : Part) (mem d : Nat) : Nat :=
  match p with
  | .d4 => if d = 1 then 1 else 3
  | _ => if mem = 6 then d else d - 2

/-- R21, R22: the die and port at the other end of a port. Ports of a compute die as in R334; of a memory die 0 UPLINK, 1 to 3
PEERA to PEERC. -/
def Part.partnerPort (p : Part) (d port : Nat) : Option (Nat × Nat) :=
  if !p.populated d then none
  else if d = 0 then if 1 ≤ port ∧ port ≤ 7 ∧ p.populated port then some (port, 0) else none
  else if port = 0 then some (0, d)
  else if d ≤ 5 then
    match port with
    | 1 => match p with
      | .d2 => none
      | .d4 => if d = 1 then some (2, 2) else none
      | .d8 => some (d % 5 + 1, 2)
    | 2 => match p with
      | .d2 => none
      | .d4 => if d = 2 then some (1, 1) else none
      | .d8 => some ((d + 3) % 5 + 1, 1)
    | 3 => if p.attaches d 6 then some (6, p.peer 6 d) else none
    | 4 => if p.attaches d 7 then some (7, p.peer 7 d) else none
    | _ => none
  else ([1, 2, 3, 4, 5].find? (fun c => p.attaches c d && p.peer d c == port)).map (fun c => (c, if d = 6 then 3 else 4))

/-- R22: the neighbours of a compute die in the ring. -/
def Part.ring (p : Part) (d : Nat) : List Nat :=
  match p with
  | .d2 => []
  | .d4 => if d = 1 then [2] else [1]
  | .d8 => [d % 5 + 1, (d + 3) % 5 + 1]

/-- R24: the paths from one compute die to another, in order of preference, as the dies they pass. -/
def Part.corePaths (p : Part) (s d : Nat) : List (List Nat) :=
  (match p with
    | .d8 =>
      let up := (d + 5 - s) % 5
      let go := fun (k : Nat) => (List.range (k + 1)).map (fun j => (s - 1 + j) % 5 + 1)
      let back := fun (k : Nat) => (List.range (k + 1)).map (fun j => (s + 4 - j) % 5 + 1)
      if up ≤ 2 then [go up, back (5 - up)] else [back (5 - up), go up]
    | _ => [[s, d]]) ++ [[s, 0, d]]

/-- R24: the paths from a compute die to a memory die: directly, or through a ring neighbour that attaches to it; where the compute die does
not attach to it, through the nearest that does, the lower-numbered of two, or else through the field die. -/
def Part.memPaths (p : Part) (s mem : Nat) : List (List Nat) :=
  let near := (p.ring s).filter (fun n => p.attaches n mem)
  if p.attaches s mem then [s, mem] :: near.map (fun n => [s, n, mem])
  else match near with
    | [] => [[s, 0, mem]]
    | n :: ns => [[s, ns.foldl Nat.min n, mem], [s, 0, mem]]

/-- R24: the paths from one die to another, in order of preference, as the dies they pass. -/
def Part.paths (p : Part) (s d : Nat) : List (List Nat) :=
  if s = d then [[s]]
  else if s = 0 then [0, d] :: (if d ≤ 5 then (p.ring d).map (fun n => [0, n, d]) else [])
  else if d = 0 then [s, 0] :: (if s ≤ 5 then (p.ring s).map (fun n => [s, n, 0]) else [])
  else if 6 ≤ d ∧ 6 ≤ s then [[s, 0, d]]
  else if 6 ≤ d then p.memPaths s d
  else if 6 ≤ s then (p.memPaths d s).map List.reverse
  else p.corePaths s d

/-- The state of the culvert between two dies (R22, R334), as its field die end, its compute die end or its lower ring end shows it. -/
def Main.culvState (m : Main) (a b : Nat) : Nat :=
  if a = 0 then m.get (F.CULV_STAT_STATE 0 b)
  else if b = 0 then m.get (F.CULV_STAT_STATE 0 a)
  else if 6 ≤ b then m.get (F.CULV_STAT_STATE a (3 + (b - 6)))
  else if 6 ≤ a then m.get (F.CULV_STAT_STATE b (3 + (a - 6)))
  else if b = a % 5 + 1 then m.get (F.CULV_STAT_STATE a 1) else m.get (F.CULV_STAT_STATE a 2)

/-- R24: a culvert that carries traffic. A link that has not come up yet counts as down. -/
def Main.culvUp (m : Main) (a b : Nat) : Bool := m.culvState a b == 2 || m.culvState a b == 3

/-- Every culvert of a path is up. -/
def Main.pathUp (m : Main) : List Nat → Bool
  | a :: b :: t => m.culvUp a b && m.pathUp (b :: t)
  | _ => true

/-- R24: the path that traffic takes now: the preferred one unless it is down and another is up. -/
def Main.path (m : Main) (s d : Nat) : List Nat :=
  let ps := m.hw.part.paths s d
  (ps.find? m.pathUp).getD (ps.headD [s, d])

/-- A path on which some culvert has been declared down (R328), or has been left down (R332). -/
def Main.pathCut (m : Main) : List Nat → Bool
  | a :: b :: t => m.culvState a b == 5 || m.culvState a b == 4 || m.pathCut (b :: t)
  | _ => false

/-- A path on which some culvert is DOWN: its partner could not be reached (R332), or it has failed to train three times (R331). -/
def Main.pathDown (m : Main) : List Nat → Bool
  | a :: b :: t => m.culvState a b == 4 || m.pathDown (b :: t)
  | _ => false

/-- R24, R34: every path from one die to another has a culvert that is down: a request waits at its die (log 195). -/
def Main.cutOff (m : Main) (s d : Nat) : Bool := (m.hw.part.paths s d).all m.pathCut

/-- R34, R332: a die counts as lost for another one: every path to it, from that one or from the field die, has a culvert that is DOWN. -/
def Main.lostFrom (m : Main) (s d : Nat) : Bool :=
  s != d && d != 0 && ((m.hw.part.paths 0 d).all m.pathDown || (m.hw.part.paths s d).all m.pathDown)

/-- A die that the requests of another one reach: the field die, or a compute die that does work and is not lost (R4, R34, R35). -/
def Main.reaches (m : Main) (s d : Nat) : Bool := d == 0 || (m.compute d && m.dieLive d && !m.lostFrom s d)

/-! ### Fault sources and events -/

/-- An event on a block's error line: the agent latches the source in the die's status word and sends the event to the
collector (R500). severe is set when the block reports it as SEVERE at once. -/
def Main.raiseEvent (m : Main) (src die named detail : Nat) (severe : Bool) : Main :=
  let w := nmGet m.coll.agents die 0
  let w' := if w / 2 ^ src % 2 = 1 then w else w + 2 ^ src
  let m := { m with coll := { m.coll with
    agents := nmPut m.coll.agents die w' 0,
    inbox := m.coll.inbox ++ [{ src := src, die := fin8 die, named := named, detail := detail, severe := severe, at_ := m.now }] } }
  if 1 ≤ die ∧ die ≤ 5 then m.bump (F.ERR_COUNT_EVENTS die src) else m

/-- The sources that their blocks always report as SEVERE (R500, "direct"). -/
def directSrc (src : Nat) : Bool := [0, 1, 2, 4, 15, 24].contains src

/-- An event on a block's error line, as SEVERE where R500 marks its source as direct. -/
def Main.raiseSrc (m : Main) (src die named detail : Nat) : Main := m.raiseEvent src die named detail (directSrc src)

/-- A source event is captured with its capture word and its wall time (R55, R56). -/
def Main.event (m : Main) (src word : Nat) : Main :=
  { m with tok := { m.tok with captured := m.tok.captured ++ [{ src := src, word := word % 2 ^ 32, time := m.now }] } }

/-- A free value: the next value of the opaque stream of Config, and the counter advanced. -/
def Main.takeFree (m : Main) : Nat × Main := (Config.freeValue m.fresh, { m with fresh := m.fresh + 1 })

/-- A quotient for which the spec names no rounding: exact where it is an integer, otherwise one of its two neighbours, which one being
a free value (log 47). -/
def Main.takeQuot (m : Main) (num : Int) (den : Nat) : Int × Main :=
  if num % den = 0 then (num / den, m) else (num / den + (m.takeFree.1 % 2 : Nat), m.takeFree.2)

/-! ### Contexts -/

/-- STATE.RUN: 0 FREE, 1 ACTIVE, 2 SUSPENDED, 3 BROKEN (R79). -/
def Main.run (m : Main) (c : Nat) : Nat := m.get (F.CTXTAB_STATE_RUN c)

/-- R226 step 3: RUN of a context as a tuft schedules by it: until the frame that shows a slot's commit has reached the tuft, what it was before
that commit. -/
def Main.tuftRun (m : Main) (die tuft : Fin 8) (c : Nat) : Nat :=
  let counts := ((m.tuft.bus.find? (fun b => b.die == die && b.tuft == tuft)).map (fun b => b.counts)).getD [0, 0, 0, 0]
  let behind := m.ref.slots.filter (fun s => counts.getD s.k 0 != m.ref.commits.getD s.k 0)
  match (behind.map (fun s => s.runs)).flatten.find? (fun r => r.1 == c) with
  | some r => if m.run c = 1 ∨ m.run c = 2 then r.2 else m.run c
  | none => m.run c

/-- A FREE or BROKEN context (R52). -/
def Main.dead (m : Main) (c : Nat) : Bool := m.run c == 0 || m.run c == 3

/-- An unresolved park handle of the context exists (R238). -/
def Main.hasParked (m : Main) (c : Nat) : Bool := m.req.park.slots.any (fun p => p.ctx.toNat == c)

/-- SCHED.HBOOST (R238). -/
def Main.hboost (m : Main) (c : Nat) : Bool :=
  m.hasParked c || decide (m.now < nmGet m.req.park.boost c 0)

/-- The priority of a context without what it inherits (R238). -/
def Main.ownPrio (m : Main) (c : Nat) : Nat :=
  Nat.max (m.get (F.CTXTAB_SCHED_BASE c)) (if m.hboost c then m.get (F.CTXTAB_HANDLER_HPRIO c) else 0)

/-- The contexts that wait on a sluice that context c holds (R241). A register master's identity lends nothing (R339). -/
def Main.waitersOn (m : Main) (c : Nat) : List Nat :=
  (m.waiters.filter (fun w =>
    m.flag (F.SLUICE_HOLDER_HELD w.sluice) && m.get (F.SLUICE_HOLDER_CTX w.sluice) == c &&
    decide (m.get (F.SLUICE_HOLDER_ORIGIN w.sluice) < 0xF0))).map (fun w => w.f.ctx.toNat)

/-- All contexts that lend priority to those in front, directly or down a chain of holders (R241). -/
def Main.lenders (m : Main) : Nat → List Nat → List Nat → List Nat
  | 0, _, acc => acc
  | _, [], acc => acc
  | n + 1, c :: rest, acc =>
    let new := (m.waitersOn c).filter (fun w => !acc.contains w)
    m.lenders n (rest ++ new.eraseDups) (acc ++ new.eraseDups)

/-- SCHED.INH (R241). -/
def Main.inh (m : Main) (c : Nat) : Nat :=
  ((m.lenders (m.waiters.length + 1) [c] []).map m.ownPrio).foldl Nat.max 0

/-- SCHED.EFF: the effective priority (R238). -/
def Main.eff (m : Main) (c : Nat) : Nat := Nat.max (m.ownPrio c) (m.inh c)

/-- A context is throttled while SOAK_FULL or PARK.LOW is 1 (R73). -/
def Main.throttled (m : Main) (c : Nat) : Bool :=
  m.flag (F.CTXTAB_STATE_SOAK_FULL c) || m.flag (F.CTXTAB_PARK_LOW c)

/-- STATE.SOLE (R53). -/
def Main.sole (m : Main) (c : Nat) : Bool := m.flag (F.CTXTAB_STATE_SOLE c)

/-- R214, R220: a context that becomes FREE or BROKEN loses its tokens in the weirs and its entries in the output scheduler, which
count as cancelled. -/
def Main.ctxGone (m : Main) (c : Nat) : Main :=
  let m := (m.ref.outs.filter (fun o => o.ctx == c)).foldl (fun m o => m.bump (F.OUTSCHED_STAT_CANCELLED o.ch)) m
  { m with ref := { m.ref with outs := m.ref.outs.filter (fun o => o.ctx != c) },
           tuft := { m.tuft with weir := m.tuft.weir.filter (fun w => w.tok.ctx.toNat != c) } }

/-- R79, R236: STATE.RUN of a context changes. The quiet count is 0 while the context is not ACTIVE (R243). -/
def Main.setRun (m : Main) (c v : Nat) : Main :=
  (m.set (F.CTXTAB_STATE_RUN c) v).setIf (v != 1) (F.CTXTAB_DLSTAT_QUIET c) 0

/-- An ACTIVE or SUSPENDED context becomes BROKEN (R235): RUN and the first cause, and fault source CTX_BROKEN (R77). -/
def Main.breakCtx (m : Main) (c cause die : Nat) : Main :=
  if m.dead c then m
  else
    (((m.ctxGone c).setRun c 3).set (F.CTXTAB_STATE_CAUSE c) cause).raiseSrc 25 0
      (if 1 ≤ cause ∧ cause ≤ 3 then die else 0) (c + cause * 256)

/-! ### The soakaway occupancy (R68) -/

/-- The key of a tuft's copy of a context's occupancy. -/
def occKey (tuft c : Nat) : Nat := 256 * tuft + c

/-- A tuft's copy of a context's soakaway occupancy. tuft is 8 × die + tuft. -/
def Main.occCopy (m : Main) (tuft c : Nat) : Nat := nmGet m.tuft.occ (occKey tuft c) 0

/-- A tuft's copy follows a change. -/
def Main.occStep (m : Main) (tuft c : Nat) (up : Bool) : Main :=
  let n := m.occCopy tuft c
  { m with tuft := { m.tuft with occ := nmPut m.tuft.occ (occKey tuft c) (if up then n + 1 else n - 1) 0 } }

/-- R68: a tuft changes its copy of a context's occupancy; CTXTAB.SOAKOCC.OCC follows, and the change sets out to the other tufts (log 190). -/
def Main.occChange (m : Main) (tuft c : Nat) (up : Bool) : Main :=
  let n := m.get (F.CTXTAB_SOAKOCC_OCC c)
  let m := (m.occStep tuft c up).set (F.CTXTAB_SOAKOCC_OCC c) (if up then n + 1 else n - 1)
  let others := (m.computeDies.map (fun d => (List.range 8).map (fun t => 8 * d + t))).flatten.filter (fun k => k != tuft)
  { m with tuft := { m.tuft with occNews := m.tuft.occNews ++ [{ ctx := BitVec.ofNat 8 c, up := up, at_ := m.now, tufts := others }] } }

/-- A change of a context's occupancy reaches a tuft. -/
def Main.occReach (m : Main) (tuft : Nat) (n : OccNews) : Main :=
  let m := m.occStep tuft n.ctx.toNat n.up
  let rest := n.tufts.filter (fun k => k != tuft)
  let news := (m.tuft.occNews.set (m.tuft.occNews.idxOf n) { n with tufts := rest }).filter (fun x => !x.tufts.isEmpty)
  { m with tuft := { m.tuft with occNews := news } }

/-- R68: the changes that have reached a tuft by now: surely those of 200 ns ago and more, and of the later ones, in their order, as many as a
free value says (log 190). -/
def Main.occArrive (m : Main) (tuft c : Nat) : Main :=
  let mine := m.tuft.occNews.filter (fun n => n.ctx.toNat == c && n.tufts.contains tuft)
  let sure := (mine.filter (fun n => decide (n.at_ + 200 ≤ m.now))).length
  if mine.isEmpty then m
  else
    let r := m.takeFree
    (mine.take (sure + r.1 % (mine.length - sure + 1))).foldl (fun m n => m.occReach tuft n) r.2

/-- R74: a context reset sets the occupancy to 0 everywhere. -/
def Main.occClear (m : Main) (c : Nat) : Main :=
  { m with tuft := { m.tuft with occ := m.tuft.occ.filter (fun p => p.1 % 256 != c),
                                 occNews := m.tuft.occNews.filter (fun n => n.ctx.toNat != c) } }

/-! ### Placement -/

/-- The placement copy that the router of die d holds for a block (R51). The field die router's copy stands under d = 0. -/
def Main.place (m : Main) (d ctx blk : Nat) : Nat := m.get (F.ROUTER_PLACE_ENTRY d (256 * ctx + blk))

/-- Fields of a placement entry (R49): valid, die, tuft, slot of the primary; paired, die, tuft, slot of the partner. -/
def plValid (e : Nat) : Bool := bitsOf e 0 1 != 0
def plPaired (e : Nat) : Bool := bitsOf e 10 1 != 0
/-- The die, tuft and region of the copy that SIDE selects (R52). -/
def plDie (e : Nat) (side : Bool) : Nat := if side then bitsOf e 11 3 else bitsOf e 1 3
def plTuft (e : Nat) (side : Bool) : Nat := if side then bitsOf e 14 3 else bitsOf e 4 3
def plSlot (e : Nat) (side : Bool) : Nat := if side then bitsOf e 17 3 else bitsOf e 7 3

/-! ### Tokens -/

/-- Put a token on its way to a router (R52). -/
def Main.send (m : Main) (t : Token) : Main :=
  { m with tok := { m.tok with inflight := m.tok.inflight ++ [t] } }

/-- The PRIO that a new token of a context carries (R40). -/
def Main.newPrio (m : Main) (c : BitVec 8) : BitVec 4 := BitVec.ofNat 4 (m.eff c.toNat)

/-- Whether the block of an instruction of a context is paired, as the router of a die holds it. -/
def Main.pairedBlock (m : Main) (die : Fin 8) (ctx : BitVec 8) (ia : BitVec 20) : Bool :=
  plPaired (m.place die.val ctx.toNat (ia.extractLsb' 12 8).toNat)

/-- A result token (R45, R91) of the instruction at src: CTX and SIDE of the firing, WSEL and STAMP 0. One that a paired block makes is its copy's
own token, which R53 does not copy. -/
def Main.mkToken (m : Main) (die tuft : Fin 8) (ctx : BitVec 8) (src : BitVec 20) (side : Bool) (frame : BitVec 24) (dest : BitVec 22)
    (o : Opnd) : Token :=
  { value := o.value, ia := dest.extractLsb' 2 20, port := dest.extractLsb' 0 2, typ := o.typ, wsel := 0, ctx := ctx,
    frame := frame, stamp := 0, prio := m.newPrio ctx, side := side, odie := die, otuft := tuft, pass := false,
    replay := none, copied := m.pairedBlock die ctx src }

/-- Send one result token to a destination, unless it is no destination (R86). -/
def Main.sendTo (m : Main) (die tuft : Fin 8) (ctx : BitVec 8) (src : BitVec 20) (side : Bool) (frame : BitVec 24) (dest : BitVec 22)
    (o : Opnd) : Main :=
  if dest = noDest then m else m.send (m.mkToken die tuft ctx src side frame dest o)

/-- Send a result to DEST0 and one to DEST1 of a return address, in the frames of TAGOP (R91, R92). -/
def Main.sendRet (m : Main) (r : Ret) (o0 o1 : Option Opnd) : Main :=
  let m := match o0 with
    | some o => m.sendTo r.die r.tuft r.ctx r.ia r.side (tagFrame r.tagop true r.frame) r.dest0 o
    | none => m
  match o1 with
  | some o => m.sendTo r.die r.tuft r.ctx r.ia r.side (tagFrame r.tagop false r.frame) r.dest1 o
  | none => m

/-- TYPE values (R42). -/
def tyInt : BitVec 4 := 0
def tyFp64 : BitVec 4 := 1
def tyFp32 : BitVec 4 := 2
def tyPtr : BitVec 4 := 3
def tyBool : BitVec 4 := 4
def tyEmpty : BitVec 4 := 5
def tyEvent : BitVec 4 := 6
def tyFault : BitVec 4 := 7
def tyFptrap : BitVec 4 := 8
def tyControl : BitVec 4 := 9
def tySluice : BitVec 4 := 10
def tyFlume : BitVec 4 := 11

/-- An operand of a type from a number. -/
def opnd (t : BitVec 4) (x : Nat) : Opnd := { value := w64 x, typ := t }

/-- BOOL of a truth value (R42). -/
def opBool (b : Bool) : Opnd := opnd tyBool (b2n b)

/-- R127: the answer to an effect-once request goes to the copy that asked, and to the other copy if it has asked too; if it
has not, it is kept for it. -/
def Main.reply (m : Main) (r : Ret) (o0 o1 : Option Opnd) : Main :=
  let m1 := m.sendRet r o0 o1
  if !r.once then m1
  else
    let isIt := fun (e : CmpEntry) => e.ctx == r.ctx && e.frame == r.frame && e.ia == r.ia && e.answer == none
    match m1.req.cmp.find? isIt with
    | none => m1
    | some e =>
      let rest := m1.req.cmp.erase e
      match e.second with
      | some r2 => { m1 with req := { m1.req with cmp := rest } }.sendRet r2 o0 o1
      | none => { m1 with req := { m1.req with
          cmp := rest ++ [{ e with answer := some { first := o0, second := o1 } }] } }

/-- The return address of a firing (R124): none for a copy that has been lost (R248). -/
def Firing.ret (f : Firing) : Ret :=
  let i := IWord.ofWord f.word
  let i := if f.lost then { i with dest0 := noDest, dest1 := noDest } else i
  { die := f.die, tuft := f.tuft, ctx := f.ctx, frame := f.frame, ia := f.ia, once := false, side := f.side,
    dest0 := i.dest0, dest1 := i.dest1, tagop := i.tagop }

/-- RPSTAT (R129): STATUS and the handle concerned. -/
def rpstat (status : Nat) (handle : BitVec 32) : Opnd := opnd tyControl (0x14 + status * 256 + handle.toNat * 4096)

/-- An FP_SUBNORMAL handle is resolved (R179). -/
def Main.dropTrap (m : Main) (h : BitVec 32) : Main :=
  { m with req := { m.req with fpTraps := m.req.fpTraps.filter (fun t => t.handle != h) } }

/-- The resolving operation behind a replayed operation or token gets its RPSTAT (R158, R359, R360). -/
def Main.rpDone (m : Main) (r : Option Replay) (status : Nat) : Main :=
  match r with
  | none => m
  | some r => (m.dropTrap r.handle).reply r.by_ (some (rpstat status r.handle)) (some (rpstat status r.handle))

/-! ### Deadlock observation (R243) -/

/-- No observation yet. -/
def TickFlags.zero (c : BitVec 8) : TickFlags :=
  { ctx := c, start := none, waits := false, noWait := false, fired := false, weir := false, sluice := false, flume := false }

/-- What has been observed of a context since the last tick. -/
def Main.tickOf (m : Main) (c : BitVec 8) : TickFlags :=
  (m.req.ticks.find? (fun t => t.ctx == c)).getD (TickFlags.zero c)

/-- Record an observation of a context for the current tick. -/
def Main.note (m : Main) (t : TickFlags) : Main :=
  { m with req := { m.req with ticks := m.req.ticks.filter (fun x => x.ctx != t.ctx) ++ [t] } }

/-- An operation of the context fired (R243). -/
def Main.noteFired (m : Main) (c : BitVec 8) : Main := m.note { m.tickOf c with fired := true }

/-- A number that tells one firing of a context from its others. -/
def Firing.tag (f : Firing) : Nat := f.ia.toNat + 2 ^ 20 * f.frame.toNat + 2 ^ 44 * b2n f.side

/-- The waiting tokens of a context outside its store and soakaway, each by a number of its own: parked tokens and operations (R361), held LOOPNEXT firings, held
runnel requests, deferred reads, closing epochs and waiting FBARs (R75, R113, R128, R184, R243). -/
def Main.waitTags (m : Main) (c : Nat) : List Nat :=
  (m.req.park.slots.filter (fun p => p.ctx.toNat == c && match p.work with
    | .flume _ _ => false
    | _ => true)).map (fun p => 6 * (p.idx + 2 ^ 15 * p.gen)) ++
  (m.tuft.recs.filter (fun r => r.ctx.toNat == c && r.held.isSome)).map (fun r => 6 * (r.idx + 2 ^ 12 * (8 * r.die.val + r.tuft.val)) + 1) ++
  (m.runnels.map (fun r => (r.held.filter (fun f => f.ctx.toNat == c)).map (fun f => 6 * f.tag + 2))).flatten ++
  (m.req.defer.filter (fun d => d.ret.ctx.toNat == c)).map (fun d => 6 * (d.ret.ia.toNat + 2 ^ 20 * d.ret.frame.toNat + 2 ^ 44 * d.word) + 3) ++
  ((m.req.units.filter (fun u => u.ctx.toNat == c)).map (fun u => u.closing.map (fun k => 6 * (2 * k.epoch + b2n u.side) + 4) ++
    u.waiting.map (fun r => 6 * (2 * r.frame.toNat + b2n u.side) + 5))).flatten

/-- The waiting tokens of a context in its store and soakaway: store entries other than ready ones, and valid soakaway slots (R75, R243). -/
def Main.waitStore (m : Main) (c : Nat) : Nat :=
  (m.tuft.ms.filter (fun e => e.ctx.toNat == c)).length + m.get (F.CTXTAB_SOAKOCC_OCC c)

/-- The waiting tokens of a context (R75, R113, R128, R184, R243). -/
def Main.waitCount (m : Main) (c : Nat) : Nat := m.waitStore c + (m.waitTags c).length

/-- What waits of a context now, for comparison with another moment of the tick. -/
def Main.waitNow (m : Main) (c : Nat) : List Nat := m.waitStore c :: m.waitTags c

/-- Whether the same waits at two moments. -/
def sameWait (v w : List Nat) : Bool := v.head? == w.head? && v.tail.isPerm w.tail

/-- R243: the present moment seen from a context: a waiting token; none, or others than when the tick began; a weir token, a sluice wait, a
flume completion pending. -/
def Main.observe (m : Main) (c : BitVec 8) : Main :=
  let t := m.tickOf c
  let moved := match t.start with
    | some w => !sameWait w (m.waitNow c.toNat)
    | none => true
  m.note { t with
    waits := t.waits || m.waitCount c.toNat != 0,
    noWait := t.noWait || m.waitCount c.toNat == 0 || moved,
    weir := t.weir || m.tuft.weir.any (fun w => w.tok.ctx == c),
    sluice := t.sluice || m.waiters.any (fun w => w.f.ctx == c),
    flume := t.flume || m.flumes.any (fun x => x.ret.ctx == c) }

/-- Work of a FREE or BROKEN context is discarded and counted as R52 counts tokens (R357), at the router of its die. -/
def Main.discard (m : Main) (die : Nat) : Main :=
  if die = 0 then m.bump F.FROUTER_STATS_DISCARDS else m.bump (F.ROUTER_STATS_DISCARDS die)

end Sys2Proof.Machine
end

