-- ==== Sys2Proof/Machine/Mem.lean ====
section
/-! DEFINITION. Physical memory: the address map (R253, R254), what an unlisted byte reads as, byte and word access in little-
endian order, ownership (R259, R260), bank power (R264), error handling (R258, R266, R268), aliases (R133). -/

namespace Sys2Proof.Machine

/-! ### The address map -/

/-- Where a physical address lies (R253, R254). Aliases: 0 plain, 1 bit-set, 2 bit-clear, 3 byte-lane rotate. -/
inductive Region
  | dram (die off : Nat)
  | scratch (die bank off alias_ : Nat)
  | fsram (off alias_ : Nat)
  | regs (die off : Nat)
  | none_ (die : Nat)
  deriving DecidableEq, Repr

/-- R253, R254, R255. An unassigned address below the die windows names no die; it is reported with die 0 (log 9). -/
def regionOf (pa : Nat) : Region :=
  if pa < 0x200000000 then .dram (6 + pa / 0x100000000) (pa % 0x100000000)
  else if pa < 0x8000000000 then .none_ 0
  else
    let p := (pa - 0x8000000000) / 0x1000000000 % 8
    let off := (pa - 0x8000000000) % 0x1000000000
    let al := off / 0x100000000
    let rel := off % 0x100000000
    if al = 0xE then .regs p rel
    else if al < 4 then
      if p = 0 then (if rel < 0x800000 then .fsram rel al else .none_ p)
      else if p ≤ 5 then (if rel < 0x4000000 then .scratch p (rel / 0x100000) (rel % 0x100000) al else .none_ p)
      else .none_ p
    else .none_ p

/-- The plain address of the byte that an address in an alias window names (R254). -/
def plainPa (pa : Nat) : Nat :=
  if pa < 0x8000000000 then pa
  else
    let p := (pa - 0x8000000000) / 0x1000000000
    let off := (pa - 0x8000000000) % 0x1000000000
    0x8000000000 + p * 0x1000000000 + (if off / 0x100000000 < 4 then off % 0x100000000 else off)

/-- The die that a region lies on. -/
def Region.die : Region → Nat
  | .dram d _ => d
  | .scratch d _ _ _ => d
  | .fsram _ _ => 0
  | .regs d _ => d
  | .none_ d => d

/-! ### Bytes -/

/-- What a byte of memory that nothing has written reads as. DESIGN CHOICE (log 2): 0. -/
def unwritten : Byte := 0

/-- The byte at an address. -/
def cellGet : List Host.Cell → Nat → Byte
  | [], _ => unwritten
  | c :: t, a => if c.1 = a then c.2 else cellGet t a

/-- Insert or replace a byte, keeping addresses rising. -/
def cellIns : List Host.Cell → Nat → Byte → List Host.Cell
  | [], a, b => [(a, b)]
  | c :: t, a, b =>
    if a < c.1 then (a, b) :: c :: t
    else if c.1 = a then (a, b) :: t
    else c :: cellIns t a b

/-- Write a byte, keeping the canonical form: a byte equal to what an unlisted address reads as is not listed. -/
def cellPut (l : List Host.Cell) (a : Nat) (b : Byte) : List Host.Cell :=
  if b = unwritten then l.filter (fun c => c.1 != a) else cellIns l a b

/-- n bytes from address a in little-endian order (R39). -/
def bytesGet (l : List Host.Cell) (a : Nat) : Nat → Nat
  | 0 => 0
  | n + 1 => (cellGet l a).toNat + 256 * bytesGet l (a + 1) n

/-- Write the low n bytes of v at address a in little-endian order. -/
def bytesPut (l : List Host.Cell) (a v : Nat) : Nat → List Host.Cell
  | 0 => l
  | n + 1 => bytesPut (cellPut l a (BitVec.ofNat 8 v)) (a + 1) (v / 256) n

/-- The canonical form: addresses strictly rising, and no entry equal to what an unlisted address reads as. -/
def cellsWf : List Host.Cell → Bool
  | [] => true
  | [c] => c.2 != unwritten
  | c :: d :: t => c.2 != unwritten && decide (c.1 < d.1) && cellsWf (d :: t)

/-- The form of memory that every operation keeps. -/
def Memory.wf (m : MemSt) : Bool := cellsWf m.cells

/-- The bytes of memory at a physical address, whatever alias it is named through. -/
def Main.peek (m : Main) (pa n : Nat) : Nat := bytesGet m.mem.cells (plainPa pa) n

/-- Put bytes into memory. -/
def Main.poke (m : Main) (pa v n : Nat) : Main :=
  { m with mem := { m.mem with cells := bytesPut m.mem.cells (plainPa pa) v n } }

/-! ### Words and their codes -/

/-- The address of the 64-bit word that holds a byte. -/
def wordOf (pa : Nat) : Nat := plainPa pa / 8 * 8

/-- 64 × die + bank of a scratch address, or none. -/
def bankOf (pa : Nat) : Option Nat :=
  match regionOf pa with
  | .scratch d b _ _ => some (64 * d + b)
  | _ => none

/-- R258, R264, R268: a word whose read meets an uncorrectable error. -/
def Main.wordUe (m : Main) (wa : Nat) : Bool :=
  m.mem.ue.contains wa ||
  match bankOf wa with
  | some k => m.mem.lost.contains k && !m.mem.rewritten.contains wa
  | none => false

/-- R258, R268: a corrected word is counted and written back. scrub tells a read of the patrol scrub (R269). -/
def Main.countCe (m : Main) (wa : Nat) (scrub : Bool) : Main :=
  let m := { m with mem := { m.mem with ce := m.mem.ce.filter (· != wa) } }
  match regionOf wa with
  | .dram d _ =>
    (((m.bump (F.MEMCTL_ECC_CE d)).set (F.MEMCTL_CEADDR_ADDR d) (wa / 8)).set (F.MEMCTL_CEADDR_VALID d) 1).raiseSrc 13 d d
      (b2n scrub)
  | .scratch d b off _ =>
    ((m.bump (F.BANK_ERR_CE d b)).set (F.BANK_ERR_LASTWORD d b) (off / 8)).raiseSrc 11 d d b
  | .fsram _ _ => m.raiseSrc 11 0 0 127
  | _ => m

/-- R258, R268: an uncorrectable word is counted. src is UEADDR.SRC: 0 read, 1 scrub, 2 partial write. -/
def Main.countUe (m : Main) (wa src : Nat) : Main :=
  match regionOf wa with
  | .dram d _ =>
    ((((m.bump (F.MEMCTL_ECC_UE d)).set (F.MEMCTL_UEADDR_ADDR d) (wa / 8)).set (F.MEMCTL_UEADDR_SRC d) src).set
      (F.MEMCTL_UEADDR_VALID d) 1).raiseSrc 14 d d src
  | .scratch d b off _ =>
    ((m.bump (F.BANK_ERR_UE d b)).set (F.BANK_ERR_LASTWORD d b) (off / 8)).raiseSrc 12 d d b
  | .fsram _ _ => m.raiseSrc 12 0 0 127
  | _ => m

/-- The words that n bytes from pa touch, in rising order. -/
def wordsOf (pa n : Nat) : List Nat :=
  if n = 0 then [] else
  (List.range ((wordOf (pa + n - 1) - wordOf pa) / 8 + 1)).map (fun i => wordOf pa + 8 * i)

/-- Read n bytes with the errors of R258 and R268: none when a word is uncorrectable. -/
def Main.readMem (m : Main) (pa n : Nat) : Option Nat × Main :=
  let ws := wordsOf pa n
  match ws.find? m.wordUe with
  | some wa => (none, m.countUe wa 0)
  | none =>
    let m' := (ws.filter m.mem.ce.contains).foldl (fun m wa => m.countCe wa false) m
    (some (m.peek pa n), m')

/-- R292: an error injection armed at the controller of a word goes into it when it is written. -/
def Main.injectAt (m : Main) (wa : Nat) : Main :=
  match regionOf wa with
  | .dram d _ =>
    let mem := m.mem
    match nmGet mem.inj d 0 with
    | 0 => m
    | 1 => { m with mem := { mem with inj := nmDel mem.inj d, ce := mem.ce ++ [wa] } }
    | _ => { m with mem := { mem with inj := nmDel mem.inj d, ue := mem.ue ++ [wa] } }
  | _ => m

/-- R264, R268: what a write of a whole word does to the word's code. -/
def Main.freshWord (m : Main) (wa : Nat) : Main :=
  let mem := m.mem
  let lostHere := match bankOf wa with
    | some k => mem.lost.contains k && !mem.rewritten.contains wa
    | none => false
  Main.injectAt { m with mem := { mem with ce := mem.ce.filter (· != wa), ue := mem.ue.filter (· != wa),
                                           rewritten := if lostHere then mem.rewritten ++ [wa] else mem.rewritten } } wa

/-- Write n bytes: none when a word that is only partly written is uncorrectable (R258, R268). -/
def Main.writeMem (m : Main) (pa v n : Nat) : Bool × Main :=
  let whole := decide (n = 8 ∧ pa % 8 = 0)
  if whole then (true, (m.poke pa v 8).freshWord (wordOf pa))
  else
    match (wordsOf pa n).find? m.wordUe with
    | some wa => (false, m.countUe wa 2)
    | none =>
      let m' := (wordsOf pa n).foldl (fun m wa =>
        { m with mem := { m.mem with ce := m.mem.ce.filter (· != wa) } }) m
      (true, ((wordsOf pa n).take 1).foldl Main.injectAt (m'.poke pa v n))

/-! ### Who may access what -/

/-- Who makes an access (R259): the context whose identity it carries, the die it comes from, the flume that makes it as
64 × die + index if any, whether it is a host-window, service-path or debug access (no context), whether such a path
holds DEBUG or above (R266), and whether it is a LOAD, ILOAD or PLOAD of a context. -/
structure AccId where
  ctx : Nat
  die : Nat
  flume : Option Nat
  external : Bool
  debug : Bool
  load : Bool := false
  deriving DecidableEq, Repr

/-- What an access meets at its target before it is performed: it may go on, it must wait for the target (a handover that
drains, a bank that wakes, a controller in training), or it fails with a fault code and detail (R348). -/
inductive Gate
  | go
  | wait
  | fail (code detail : Nat)
  deriving DecidableEq, Repr

/-- R301: a destructive run has the bank. -/
def Main.drHas (m : Main) (d b : Nat) : Bool :=
  m.dredges.any (fun x => x.die == d && x.destr && !x.dram && (x.boot || x.bank == b))

/-- R259: whether the owner of a bank admits an access. -/
def Main.admits (m : Main) (d b : Nat) (id : AccId) (write : Bool) : Bool :=
  !m.drHas d b &&
  let kind := m.get (F.BANK_OWN_KIND d b)
  let who := m.get (F.BANK_OWN_ID d b)
  ((match kind with
    | 1 => !id.external && who == id.ctx
    | 2 => match id.flume with
      | some n => who == n / 64 * 32 + n % 32
      | none => false
    | 4 => !id.external && id.die != d && who % 8 == id.die
    | _ => false) ||
  (m.flag (F.BANK_OWN_SHRD d b) && id.load && !write))

/-- R4, R24, R255, R260, R261, R264, R266: the checks of a physical memory access at its target, once a path leads there. -/
def Main.gate (m : Main) (id : AccId) (pa : Nat) (write : Bool) : Gate :=
  match regionOf pa with
  | .none_ d => .fail 0x43 d
  | .regs d _ => .fail 0x41 (4 + 0 * d)
  | .fsram off _ =>
    if off < 0x100000 ∧ id.ctx ≠ 255 ∧ ¬ id.debug then .fail 0x41 8 else if m.cutOff id.die 0 then .wait else .go
  | .dram d _ =>
    if !m.pop d || !m.dieLive d || m.lostFrom id.die d then .fail 0x43 d
    else if m.flag (F.MEMCTL_STAT_READY d) && !m.cutOff id.die d then .go else .wait
  | .scratch d b _ _ =>
    if !m.compute d || !m.reaches id.die d then .fail 0x43 d
    else if m.cutOff id.die d then .wait
    else if m.get (F.BANK_PWR_STATE d b) = 2 then .fail 0x43 d
    else if m.get (F.BANK_PWR_STATE d b) = 1 ∧ ¬ m.flag (F.BANK_PWR_AUTOWAKE d b) then .fail 0x43 d
    else if !m.admits d b id write && !id.external then .fail 0x44 (d + 8 * b)
    else if m.get (F.BANK_PWR_STATE d b) ≠ 0 then .wait
    else if !m.flag (F.BANK_OWN_DONE d b) then .wait
    else .go

/-- R4, R260: a failing gate is counted: OFF_ACCESS at the target, or NOTOWNED at the bank. -/
def Main.countGate (m : Main) (id : AccId) (pa code : Nat) : Main :=
  if code = 0x43 then
    let d := (regionOf pa).die
    m.raiseSrc 6 (if m.compute id.die && m.dieLive id.die then id.die else 0) d (d + 8 * b2n id.external)
  else match code, regionOf pa with
    | 0x44, .scratch d b _ _ => m.bump (F.BANK_STAT_NOTOWNED d b)
    | _, _ => m

/-- R264: an access that waits at a bank in RET with AUTOWAKE wakes it: the bank is WAKING until BANK_POWER_CHANGE_DONE. A request for OFF that
is waiting takes effect after that. -/
def Main.wakeFor (m : Main) (pa : Nat) : Main :=
  match regionOf pa with
  | .scratch d b _ _ =>
    if m.get (F.BANK_PWR_STATE d b) = 1 ∧ m.flag (F.BANK_PWR_AUTOWAKE d b) = true then
      let k := 64 * d + b
      let change := if nmGet m.mem.change k 0 = 2 then m.mem.change else nmIns m.mem.change k 0
      Main.set { m with mem := { m.mem with change := change } } (F.BANK_PWR_STATE d b) 3
    else m
  | _ => m

/-- R261: the handover of the bank of an address has not ended. -/
def Main.draining (m : Main) (pa : Nat) : Bool :=
  match regionOf pa with
  | .scratch d b _ _ => !m.flag (F.BANK_OWN_DONE d b)
  | _ => false

/-- Whether what a bank holds still asks for it: the request is outstanding, the flume runs. -/
def Main.stillAsks (m : Main) (w : HeldBy) : Bool :=
  match w with
  | .request r => m.req.reqs.contains r
  | .element d i => m.flumes.any (fun x => x.die == d && x.idx == i && x.handle == 0)
  | .outside _ => true

/-- R261: what a bank releases next, of what it has held. -/
def Main.heldFirst (m : Main) (pa : Nat) : Option HeldBy :=
  (m.mem.held.find? (fun x => bankOf pa == some x.1 && m.stillAsks x.2)).map (fun x => x.2)

/-- R261: another access is released before that of w. -/
def Main.heldAhead (m : Main) (pa : Nat) (w : HeldBy) : Bool := (m.heldFirst pa).any (fun x => x != w)

/-- R261: an access is held at a bank, behind those that the bank holds already. -/
def Main.holdBank (m : Main) (pa : Nat) (w : HeldBy) : Main :=
  match bankOf pa with
  | none => m
  | some b => if m.mem.held.contains (b, w) then m else { m with mem := { m.mem with held := m.mem.held ++ [(b, w)] } }

/-- An access is held nowhere any more. -/
def Main.unhold (m : Main) (w : HeldBy) : Main := { m with mem := { m.mem with held := m.mem.held.filter (fun x => x.2 != w) } }

/-- R261, R264: an access waits at an address: held by a handover or behind what that has held, or for a bank that wakes. -/
def Main.waitAt (m : Main) (pa : Nat) (w : HeldBy) : Main :=
  if m.draining pa || m.heldAhead pa w then m.holdBank pa w else m.wakeFor pa

/-- R262, R263: a bank counts a wait of port B, or a write that port B has lost. -/
def Main.countPort (m : Main) (pa : Nat) (lost : Bool) : Main :=
  match regionOf pa with
  | .scratch d b _ _ => m.bump (if lost then F.BANK_STAT_WLOST d b else F.BANK_STAT_CONFL d b)
  | _ => m

/-- R262: an access through port B waited a cycle for port A, or did not. -/
def Main.portWait (m : Main) (pa : Nat) (waits : Bool) : Main := if waits then m.countPort pa false else m

/-- R262: a walk read, or an access of the soakaway, of a parking area or to a descriptor, by a die or by a flume: where it goes through port B of
a bank it has waited a cycle or not, which is a free value (log 197). -/
def Main.freeWait (m : Main) (die : Nat) (flume : Bool) (pa : Nat) : Main :=
  match regionOf pa with
  | .scratch d _ _ _ => if flume || d != die then m.takeFree.2.portWait pa (m.takeFree.1 % 2 == 1) else m
  | _ => m

/-- The outcome of an access. -/
inductive MemOut
  | ok (value : Nat)
  | wait
  | fail (code detail : Nat)
  deriving DecidableEq, Repr

/-- Read n bytes at a physical address with every check. -/
def Main.loadPhys (m : Main) (id : AccId) (pa n : Nat) : MemOut × Main :=
  match m.gate id pa false with
  | .wait => (.wait, m)
  | .fail c d => (.fail c d, m.countGate id pa c)
  | .go =>
    match m.readMem pa n with
    | (some v, m') => (.ok v, m')
    | (none, m') => (.fail 0x45 (regionOf pa).die, m')

/-- R133: what a write through an alias window stores, given the old contents. -/
def aliasValue (pa old v n : Nat) : Nat :=
  match regionOf pa with
  | .scratch _ _ _ 1 => old ||| (v % 256 ^ n)
  | .fsram _ 1 => old ||| (v % 256 ^ n)
  | .scratch _ _ _ 2 => old &&& (256 ^ n - 1 - v % 256 ^ n)
  | .fsram _ 2 => old &&& (256 ^ n - 1 - v % 256 ^ n)
  | _ => v

/-- A bit-set or bit-clear window (R254). -/
def bitAlias (pa : Nat) : Bool :=
  match regionOf pa with
  | .scratch _ _ _ a => a == 1 || a == 2
  | .fsram _ a => a == 1 || a == 2
  | _ => false

/-- Write n bytes that are admitted. A bit-set or bit-clear window reads the old contents, with the errors of a read, and changes them
(R133, R258). -/
def Main.storeNow (m : Main) (pa v n : Nat) : MemOut × Main :=
  let put := fun (m : Main) (x : Nat) => match m.writeMem pa x n with
    | (true, m) => (MemOut.ok 0, m)
    | (false, m) => (MemOut.fail 0x45 (regionOf pa).die, m)
  if bitAlias pa then
    match m.readMem pa n with
    | (some old, m) => put m (aliasValue pa old v n)
    | (none, m) => (.fail 0x45 (regionOf pa).die, m)
  else put m v

/-- Write n bytes at a physical address with every check. -/
def Main.storePhys (m : Main) (id : AccId) (pa v n : Nat) : MemOut × Main :=
  match m.gate id pa true with
  | .wait => (.wait, m)
  | .fail c d => (.fail c d, m.countGate id pa c)
  | .go => m.storeNow pa v n

/-- The identity of a context's access from a die. -/
def ctxId (ctx die : Nat) : AccId := { ctx := ctx, die := die, flume := none, external := false, debug := false }

/-- A write that the device itself makes: one that must wait at its target (R261, R264) is held there and then performed, and the state shown
is the one in which it has been (log 198). -/
def Main.storeHeld (m : Main) (id : AccId) (pa v n : Nat) : MemOut × Main :=
  match m.storePhys id pa v n with
  | (.wait, m) => (m.wakeFor pa).storeNow pa v n
  | r => r

/-- Write a list of 64-bit words at rising addresses; true when all were performed. -/
def Main.storeWords (m : Main) (id : AccId) (pa : Nat) : List Nat → Bool × Main
  | [] => (true, m)
  | w :: ws =>
    match m.storeHeld id pa w 8 with
    | (.ok _, m') => (m'.freeWait id.die false pa).storeWords id (pa + 8) ws
    | (_, m') => (false, m')

end Sys2Proof.Machine
end

