-- ==== Sys2Proof/Machine/Fault.lean ====
section
/-! DEFINITION. Raising a fault (R347 to R358): the parking slot, the ring record, the fault token, the handler, and what a
fault does to its context. Every family raises its faults through these operations. -/

namespace Sys2Proof.Machine

/-- Fault codes (R348). -/
def fcBadTag : Nat := 0x10
def fcNoPlacement : Nat := 0x11
def fcBadPort : Nat := 0x12
def fcDuplicate : Nat := 0x13
def fcDieDormant : Nat := 0x14
def fcDieIsolated : Nat := 0x15
def fcMatchEcc : Nat := 0x16
def fcSoakLost : Nat := 0x17
def fcSoakFull : Nat := 0x18
def fcTuftReset : Nat := 0x19
def fcBadTarget : Nat := 0x20
def fcImemEcc : Nat := 0x21
def fcBadInstr : Nat := 0x22
def fcBadOperand : Nat := 0x23
def fcPriv : Nat := 0x24
def fcLoopNorec : Nat := 0x25
def fcLoopStale : Nat := 0x26
def fcLoopOrder : Nat := 0x27
def fcLoopBadarg : Nat := 0x28
def fcIntOverflow : Nat := 0x30
def fcIntDivzero : Nat := 0x31
def fcFpSubnormal : Nat := 0x38
def fcTranslation : Nat := 0x40
def fcProtection : Nat := 0x41
def fcMisaligned : Nat := 0x42
def fcPoweredOff : Nat := 0x43
def fcBankNotOwned : Nat := 0x44
def fcMemUe : Nat := 0x45
def fcWlost : Nat := 0x46
def fcAliasAtomic : Nat := 0x47
def fcIstructType : Nat := 0x48
def fcIstructNodefer : Nat := 0x49
def fcIstructRewrite : Nat := 0x4A
def fcIstructBusy : Nat := 0x4B
def fcIstructLost : Nat := 0x4C
def fcRunnelAccess : Nat := 0x50
def fcUnitDisabled : Nat := 0x51
def fcPktOpen : Nat := 0x52
def fcPktStale : Nat := 0x53
def fcPktOversize : Nat := 0x54
def fcPktEcc : Nat := 0x55
def fcPktLinkdown : Nat := 0x56
def fcWeirTimeout : Nat := 0x60
def fcWeirFull : Nat := 0x61
def fcOutNotOwned : Nat := 0x62
def fcOutFull : Nat := 0x63
def fcSluiceNotHeld : Nat := 0x70
def fcSluicePoolfull : Nat := 0x71
def fcFlumeBusy : Nat := 0x72
def fcFlumeDesc : Nat := 0x73
def fcFlumeLost : Nat := 0x74
def fcDeadlock : Nat := 0x80
def fcParkLow : Nat := 0x81

/-- Causes of BROKEN (R79, R235, R370). -/
def causeTuftReset : Nat := 1
def causeDieReset : Nat := 2
def causeDieIsolated : Nat := 3
def causeMatchEcc : Nat := 4
def causeSoakLost : Nat := 5
def causeUnhandled : Nat := 6
def causeDeadlock : Nat := 7
def causeSoftware : Nat := 8
def causeParkFull : Nat := 9
def causeParkLost : Nat := 10

/-- R348: the codes marked Breaks, with the cause each records (R79). For TUFT_RESET, detail bit 6 tells a die reset. -/
def breaksCause (code detail : Nat) : Option Nat :=
  if code = fcDieIsolated then some causeDieIsolated
  else if code = fcMatchEcc then some causeMatchEcc
  else if code = fcSoakLost then some causeSoakLost
  else if code = fcTuftReset then some (if bitsOf detail 6 1 = 1 then causeDieReset else causeTuftReset)
  else none

/-- R351, R370: log2 of the slots of a parking area. -/
def Main.parkLog (m : Main) (c : Nat) : Nat := Nat.max 7 (m.get (F.CTXTAB_PARK_SIZE c))

/-- The number of parking slots, the fault ring left out (R351). -/
def Main.parkSlots (m : Main) (c : Nat) : Nat := 2 ^ m.parkLog c - 64

/-- The physical address of slot idx of a parking area (R351). -/
def Main.parkPa (m : Main) (c idx : Nat) : Nat := m.get (F.CTXTAB_PARK_BASE c) * 4096 + idx * 64

/-- The occupied parking slots of a context. -/
def Main.parkedOf (m : Main) (c : Nat) : List ParkSlot := m.req.park.slots.filter (fun p => p.ctx.toNat == c)

/-- PARK.FREE (R370) follows the occupied slots. -/
def Main.parkFree (m : Main) (c : Nat) : Nat := m.parkSlots c - (m.parkedOf c).length

/-- The first free index from a list of candidates. -/
def firstFree (used : List Nat) : Nat → Nat → Option Nat
  | 0, _ => none
  | n + 1, i => if used.contains i then firstFree used n (i + 1) else some i

/-- R353: the lowest free parking slot (log 6). -/
def Main.freeSlot (m : Main) (c : Nat) : Option Nat :=
  let used := (m.parkedOf c).map (fun p => p.idx)
  if used.length ≥ m.parkSlots c then none else firstFree used (used.length + 1) 64

/-- R353: a park handle. -/
def mkHandle (gen ctx idx : Nat) : BitVec 32 := BitVec.ofNat 32 (gen % 512 * 2 ^ 23 + ctx % 256 * 2 ^ 15 + idx % 2 ^ 15)

/-- R352: the words of a parking slot. A FLUME slot holds only the header, with the IA, SIDE and PRIO of the flume's FLISSUE, DETAIL, OBJECT
and TIME. -/
def slotWords (gen code detail object time : Nat) (ia : BitVec 20) (side : Bool) (prio : BitVec 4) (w : Work) : List Nat :=
  let head := fun (kind ia port side prio pres : Nat) =>
    kind + gen % 512 * 2 ^ 4 + code % 2 ^ 16 * 2 ^ 16 + ia * 2 ^ 32 + port * 2 ^ 52 + side * 2 ^ 54 + prio * 2 ^ 55 +
      pres * 2 ^ 59
  let mid := fun (frame tl tr tt wsel : Nat) =>
    frame + tl * 2 ^ 24 + tr * 2 ^ 28 + tt * 2 ^ 32 + wsel * 2 ^ 36 + detail % 2 ^ 16 * 2 ^ 48
  match w with
  | .operation f =>
    let pl := f.pres.getLsbD 0
    let pr := f.pres.getLsbD 1
    let pt := f.pres.getLsbD 2
    let tv := fun (b : Bool) (o : Opnd) => if b then o.typ.toNat else 0
    let vv := fun (b : Bool) (o : Opnd) => if b then o.value.toNat else 0
    [head 1 f.ia.toNat 0 (b2n f.side) f.prio.toNat f.pres.toNat,
     mid f.frame.toNat (tv pl f.left) (tv pr f.right) (tv pt f.third) 0, 0,
     vv pl f.left, vv pr f.right, vv pt f.third, object % 2 ^ 64, time % 2 ^ 64]
  | .token t =>
    [head 2 t.ia.toNat t.port.toNat (b2n t.side) t.prio.toNat 1, mid t.frame.toNat t.typ.toNat 0 0 t.wsel.toNat,
     t.stamp.toNat, t.value.toNat, 0, 0, object % 2 ^ 64, time % 2 ^ 64]
  | .flume _ _ => [head 3 ia.toNat 0 (b2n side) prio.toNat 0, mid 0 0 0 0 0, 0, 0, 0, 0, object % 2 ^ 64, time % 2 ^ 64]

/-- R354: the words of a fault-ring record. -/
def ringWords (seq code detail handle frame side odie otuft : Nat) (fptrap : Bool) (ia object time : Nat) : List Nat :=
  [seq % 2 ^ 32 + code % 2 ^ 16 * 2 ^ 32 + detail % 2 ^ 16 * 2 ^ 48,
   handle % 2 ^ 32 + frame % 2 ^ 24 * 2 ^ 32 + side % 2 * 2 ^ 56 + odie % 8 * 2 ^ 57 + otuft % 8 * 2 ^ 60 +
     b2n fptrap * 2 ^ 63,
   ia % 2 ^ 20, object % 2 ^ 64, time % 2 ^ 64, 0, 0, 0]

/-- Who and what a fault concerns: the code and detail of R348, the object of R352, the frame, side, IA and place. -/
structure FaultInfo where
  ctx : Nat
  code : Nat
  detail : Nat
  object : Nat
  frame : BitVec 24
  side : Bool
  ia : BitVec 20
  die : Fin 8
  tuft : Fin 8
  prio : BitVec 4 := 0
  deriving DecidableEq, Repr

/-- R76, R178: the fault token of a fault. pass is set for a code marked Breaks (R357). One of a paired block's copy stays with that copy (R53). -/
def Main.faultToken (m : Main) (i : FaultInfo) (handle : BitVec 32) : Token :=
  { value := w64 (i.code % 2 ^ 16 + handle.toNat * 2 ^ 16 + i.detail % 2 ^ 16 * 2 ^ 48),
    ia := BitVec.ofNat 20 (m.get (F.CTXTAB_HANDLER_IA i.ctx)), port := 2,
    typ := if i.code = fcFpSubnormal then tyFptrap else tyFault, wsel := 0, ctx := BitVec.ofNat 8 i.ctx,
    frame := i.frame, stamp := 0, prio := BitVec.ofNat 4 (m.get (F.CTXTAB_HANDLER_HPRIO i.ctx)), side := i.side,
    odie := i.die, otuft := i.tuft, pass := (breaksCause i.code i.detail).isSome, replay := none,
    copied := i.die != 0 && m.pairedBlock i.die (BitVec.ofNat 8 i.ctx) i.ia }

/-- R354: write the next ring record; false when the write fails (R355). -/
def Main.writeRing (m : Main) (i : FaultInfo) (handle : BitVec 32) : Bool × Main :=
  let seq := nmGet m.req.park.seqs i.ctx 0
  let r := m.storeWords (ctxId i.ctx 0) (m.parkPa i.ctx (seq % 64))
    (ringWords seq i.code i.detail handle.toNat i.frame.toNat (b2n i.side) i.die.val i.tuft.val
      (i.code == fcFpSubnormal) i.ia.toNat i.object m.now)
  let m := r.2
  (r.1, { m with req := { m.req with park := { m.req.park with seqs := nmPut m.req.park.seqs i.ctx (seq + 1) 0 } } })

/-- R352, R353: fill a parking slot. None when no slot is free; the flag is false when the write fails. -/
def Main.fillSlot (m : Main) (i : FaultInfo) (w : Work) : Option (Bool × BitVec 32 × Main) :=
  match m.freeSlot i.ctx with
  | none => none
  | some idx =>
    let gk := 32768 * i.ctx + idx
    let gen := (nmGet m.req.park.gens gk 0 + 1) % 512
    let r := m.storeWords (ctxId i.ctx 0) (m.parkPa i.ctx idx) (slotWords gen i.code i.detail i.object m.now i.ia i.side i.prio w)
    let m := r.2
    let slot : ParkSlot := { ctx := BitVec.ofNat 8 i.ctx, idx := idx, gen := gen, code := i.code, detail := i.detail, work := w }
    some (r.1, mkHandle gen i.ctx idx,
      { m with req := { m.req with park := { m.req.park with
        slots := m.req.park.slots ++ [slot], gens := nmPut m.req.park.gens gk gen 0 } } })

/-- The token part of a fault (R76, R77, R238, R357): the fault token, the handler boost of a fault without a handle, and what
happens to the context when it has no handler or the code breaks it. quiet is a park without a fault token (R71). -/
def Main.sendFault (m : Main) (i : FaultInfo) (handle : BitVec 32) (quiet : Bool) : Main :=
  let hen := m.flag (F.CTXTAB_HANDLER_EN i.ctx)
  let m := if hen && !quiet then m.send (m.faultToken i handle) else m
  match breaksCause i.code i.detail with
  | some c => m.breakCtx i.ctx c (bitsOf i.detail 0 3)
  | none => if hen || quiet then m else m.breakCtx i.ctx causeUnhandled 0

/-- A fault without parked work (R348, slot "—"): one ring record with handle 0, then the fault token. -/
def Main.faultOnly (m : Main) (i : FaultInfo) : Main :=
  if m.dead i.ctx then m
  else if !m.flag (F.CTXTAB_PARK_EN i.ctx) then
    m.breakCtx i.ctx ((breaksCause i.code i.detail).getD causeUnhandled) (bitsOf i.detail 0 3)
  else
    match m.writeRing i 0 with
    | (false, m) => m.breakCtx i.ctx causeParkLost 0
    | (true, m) => m.sendFault i 0 false

/-- R355: PARK_LOW, after a park that left 16 or fewer slots free. -/
def Main.parkLow (m : Main) (i : FaultInfo) : Main :=
  let free := m.parkFree i.ctx
  if free ≤ 16 ∧ ¬ m.flag (F.CTXTAB_PARK_LOW i.ctx) then
    (m.set (F.CTXTAB_PARK_LOW i.ctx) 1).faultOnly
      { i with code := fcParkLow, detail := free, object := 0, frame := 0, side := false, ia := 0 }
  else m

/-- Park work with a fault (R347): slot, ring record, fault token, then R355. Returns the handle, 0 when nothing was parked.
Of a context that is FREE or BROKEN the work is discarded (R357). -/
def Main.park (m : Main) (i : FaultInfo) (w : Work) (quiet : Bool) : BitVec 32 × Main :=
  if m.dead i.ctx then (0, m.discard i.die.val)
  else if !m.flag (F.CTXTAB_PARK_EN i.ctx) then
    (0, m.breakCtx i.ctx ((breaksCause i.code i.detail).getD causeUnhandled) (bitsOf i.detail 0 3))
  else
    match m.fillSlot i w with
    | none => (0, m.breakCtx i.ctx causeParkFull 0)
    | some (false, _, m') => (0, { m with mem := m'.mem, regs := m'.regs, coll := m'.coll }.breakCtx i.ctx causeParkLost 0)
    | some (true, h, m) =>
      match m.writeRing i h with
      | (false, m) => (h, m.breakCtx i.ctx causeParkLost 0)
      | (true, m) => (h, (m.sendFault i h quiet).parkLow i)

/-- The fault facts of a firing. -/
def Firing.info (f : Firing) (code detail object : Nat) : FaultInfo :=
  { ctx := f.ctx.toNat, code := code, detail := detail, object := object, frame := f.frame, side := f.side, ia := f.ia,
    die := f.die, tuft := f.tuft }

/-- The fault facts of a token, met at a die and tuft. -/
def Token.info (t : Token) (code detail : Nat) (die tuft : Fin 8) : FaultInfo :=
  { ctx := t.ctx.toNat, code := code, detail := detail, object := 0, frame := t.frame, side := t.side, ia := t.ia,
    die := die, tuft := tuft }

/-- R357: a fault that concerns work and parks nothing: in a BROKEN or FREE context the work is discarded and counted. -/
def Main.faultWork (m : Main) (i : FaultInfo) : Main := if m.dead i.ctx then m.discard i.die.val else m.faultOnly i

/-- Park the operands of a firing (R125). A replayed operation that faults again resolves its old handle and answers
REFAULTED (R158); an FP operation keeps its epoch (R179). A fault of a copy that has been lost is lost with it (R248; log 200). -/
def Main.parkOp (m : Main) (f : Firing) (code detail object : Nat) : Main :=
  if f.lost then m.rpDone f.replay 2
  else
  let r := m.park (f.info code detail object) (.operation { f with replay := none, way := false, pass := false, ctl := none }) false
  r.2.rpDone f.replay 2

/-- R356: a token of TYPE FAULT or FPTRAP addressed to the context's current handler. -/
def Main.isFaultToken (m : Main) (t : Token) : Bool :=
  (t.typ == tyFault || t.typ == tyFptrap) && t.ia.toNat == m.get (F.CTXTAB_HANDLER_IA t.ctx.toNat)

/-- R356: a fault that a fault token meets makes the context BROKEN with cause UNHANDLED; one ring record is written. -/
def Main.unhandled (m : Main) (i : FaultInfo) : Main :=
  if m.dead i.ctx then m.discard i.die.val
  else if !m.flag (F.CTXTAB_PARK_EN i.ctx) then m.breakCtx i.ctx causeUnhandled 0
  else
    match m.writeRing i 0 with
    | (false, m) => m.breakCtx i.ctx causeParkLost 0
    | (true, m) => m.breakCtx i.ctx causeUnhandled 0

/-- Park a token that was stopped (R44, R52, R60, R62, R71, R87, R90, R210, R211), with its handle: 0 when nothing was parked. -/
def Main.parkTokH (m : Main) (t : Token) (code detail : Nat) (die tuft : Fin 8) (quiet : Bool) : BitVec 32 × Main :=
  let i := t.info code detail die tuft
  let r := if m.isFaultToken t then (0, m.unhandled i)
           else m.park i (.token { t with replay := none, pass := false, released := false }) quiet
  (r.1, r.2.rpDone t.replay 2)

/-- Park a token that was stopped. -/
def Main.parkTok (m : Main) (t : Token) (code detail : Nat) (die tuft : Fin 8) (quiet : Bool) : Main :=
  (m.parkTokH t code detail die tuft quiet).2

/-- A fault of a token that parks nothing and breaks its context (R35, R59, R70), or that a fault token meets (R356). -/
def Main.tokFault (m : Main) (t : Token) (code detail : Nat) (die tuft : Fin 8) : Main :=
  let i := t.info code detail die tuft
  let m := if m.isFaultToken t then m.unhandled i else m.faultWork i
  m.rpDone t.replay 2

/-- A fault of a firing whose code parks nothing (R150, R153). An effect-once request then counts as answered, with no result, for both copies
(R127; log 191). -/
def Main.opFault (m : Main) (f : Firing) (code detail object : Nat) : Main :=
  ((if f.lost then m else m.faultWork (f.info code detail object)).reply { f.ret with once := true } none none).rpDone f.replay 2

/-- BAD_OPERAND with the port of the offending operand (R125, R348). -/
def Main.badOperand (m : Main) (f : Firing) (port : Nat) : Main := m.parkOp f fcBadOperand port 0

end Sys2Proof.Machine
end

