-- ==== Sys2Proof/Machine/Tokens.lean ====
section
/-! DEFINITION. Routing, matching and the soakaway (R39 to R78): TOKEN_ROUTE, TOKEN_MATCH, SPILL_WRITE, SOAKAWAY_PROBE, and how
a complete operand set becomes a firing (R60, R87, R89, R90). -/

namespace Sys2Proof.Machine

/-! ### Keys and indices -/

/-- R58: the set index of a matching key. -/
def setIndex (ctx : BitVec 8) (frame : BitVec 24) (ia : BitVec 20) : BitVec 12 :=
  ia.extractLsb' 0 12 ^^^ frame.extractLsb' 0 12 ^^^ frame.extractLsb' 12 12 ^^^ (ctx ++ (0 : BitVec 4)) ^^^
    ((0 : BitVec 4) ++ ia.extractLsb' 12 8)

/-- R64: the hash of IA and FRAME that names the home bucket. -/
def soakHash (frame : BitVec 24) (ia : BitVec 20) : BitVec 24 :=
  frame ^^^ ((0 : BitVec 4) ++ ia) ^^^ (ia.extractLsb' 0 12 ++ ia.extractLsb' 8 12)

/-- R47: the entry has the matching key of a token. -/
def MsEntry.hasKey (e : MsEntry) (die tuft : Fin 8) (t : Token) : Bool :=
  e.die == die && e.tuft == tuft && e.ctx == t.ctx && e.frame == t.frame && e.ia == t.ia && e.side == t.side

/-- The operand that an entry holds on a port. -/
def MsEntry.at_ (e : MsEntry) (port : BitVec 2) : Option Opnd :=
  if port = 1 then e.right else if port = 3 then e.third else e.left

/-- Put an operand on a port of an entry. -/
def MsEntry.put (e : MsEntry) (port : BitVec 2) (o : Opnd) (prio : BitVec 4) : MsEntry :=
  let e := { e with prio := if e.prio < prio then prio else e.prio }
  if port = 1 then { e with right := some o } else if port = 3 then { e with third := some o } else { e with left := some o }

/-- An entry that holds only the operand of one token. -/
def MsEntry.ofToken (die tuft : Fin 8) (t : Token) : MsEntry :=
  MsEntry.put { die := die, tuft := tuft, ctx := t.ctx, frame := t.frame, ia := t.ia, side := t.side, left := none,
                right := none, third := none, prio := 0, age := 0, err := 0 } t.port { value := t.value, typ := t.typ } t.prio

/-- The ports that an entry holds. -/
def MsEntry.ports (e : MsEntry) : List (BitVec 2) :=
  (if e.left.isSome then [0] else []) ++ (if e.right.isSome then [1] else []) ++ (if e.third.isSome then [3] else [])

/-! ### Instruction memory -/

/-- The slot of a tuft's instruction memory: kind and content (R87). An unlisted slot is EMPTY and 0. -/
def Main.slot (m : Main) (die tuft : Fin 8) (idx : Nat) : SlotKind × Word :=
  match m.tuft.imem.find? (fun s => s.die == die && s.tuft == tuft && s.idx == idx) with
  | some s => (s.kind, s.content)
  | none => (.empty, 0)

/-- R161: the number of a slot kind. -/
def SlotKind.code : SlotKind → Nat
  | .empty => 0
  | .instr => 1
  | .lit => 2
  | .cont => 3

/-- R161: the slot kind of a number. -/
def slotKindOf (n : Nat) : SlotKind :=
  match n with
  | 0 => .empty
  | 1 => .instr
  | 2 => .lit
  | _ => .cont

/-- R162: replace a slot's kind and content. -/
def Main.setSlot (m : Main) (die tuft : Fin 8) (idx : Nat) (k : SlotKind) (w : Word) : Main :=
  let rest := m.tuft.imem.filter (fun s => !(s.die == die && s.tuft == tuft && s.idx == idx))
  let new := if k = .empty ∧ w = 0 then rest
             else rest ++ [{ die := die, tuft := tuft, idx := idx, kind := k, content := w }]
  { m with tuft := { m.tuft with imem := new } }

/-- The instruction that a token's IA names in a tuft. -/
inductive Fetched
  /-- R87: the slot is not of kind INSTR. -/
  | badTarget (kind : Nat)
  /-- R90: undecodable, with the OPC. -/
  | badInstr (opc : Nat)
  | ok (r : OpRow) (word : Word) (lit : Option Word) (conts : List Word)

/-- R87, R89, R90: fetch and decode the instruction at region slot × 4096 + IA[11:0]. Bits [63:44] of a CONT slot are ignored
(log 220). -/
def Main.fetch (m : Main) (die tuft : Fin 8) (region : Nat) (ia : BitVec 20) : Fetched :=
  let off := (ia.extractLsb' 0 12).toNat
  let base := region * 4096 + off
  let s := m.slot die tuft base
  if s.1 ≠ .instr then .badTarget s.1.code
  else
    let i := IWord.ofWord s.2
    match decodeOp i with
    | none => .badInstr i.opc.toNat
    | some r =>
      let ext := extSlots r i
      let slots := (List.range ext.1).map (fun k => m.slot die tuft (base + 1 + k))
      let want : SlotKind := if ext.2 then .lit else .cont
      if off + ext.1 > 4095 ∨ ¬ slots.all (fun x => x.1 == want) then .badInstr i.opc.toNat
      else
        let lit := if ext.2 then (slots.map (fun x => x.2)).head? else none
        let conts := if ext.2 then [] else slots.map (fun x => x.2)
        if extOk r lit then .ok r s.2 lit conts else .badInstr i.opc.toNat

/-! ### Firings -/

/-- An absent operand. -/
def noOpnd : Opnd := { value := 0, typ := 0 }

/-- The firing of a complete operand set (R60). The single operand of a monadic operation stands as the left one (R352). With
MODE.LIT the literal is the right operand, of TYPE INT64 (R88). -/
def mkFiring (die tuft : Fin 8) (e : MsEntry) (word : Word) (lit : Option Word) (conts : List Word) (wsel : BitVec 6)
    (pass : Bool) : Firing :=
  { die := die, tuft := tuft, ctx := e.ctx, frame := e.frame, ia := e.ia, side := e.side, prio := e.prio, word := word,
    lit := lit, conts := conts, left := e.left.getD noOpnd,
    right := match lit with
      | some l => { value := l, typ := tyInt }
      | none => e.right.getD noOpnd,
    third := e.third.getD noOpnd,
    pres := BitVec.ofNat 3 (b2n e.left.isSome + 2 * b2n e.right.isSome + 4 * b2n e.third.isSome),
    wsel := wsel, pass := pass, way := false, replay := none, epoch := none }

/-- Add a firing to those that are ready (R239). -/
def Main.addReady (m : Main) (f : Firing) : Main :=
  { m with tok := { m.tok with ready := m.tok.ready ++ [f] } }

/-! ### The matching store -/

/-- The entries and ready entries that occupy ways of a set (R57, R236). -/
def Main.waysUsed (m : Main) (die tuft : Fin 8) (set : BitVec 12) : Nat × Nat :=
  ((m.tuft.ms.filter (fun e => e.die == die && e.tuft == tuft && setIndex e.ctx e.frame e.ia == set)).length,
   (m.tok.ready.filter (fun f => f.way && f.die == die && f.tuft == tuft && setIndex f.ctx f.frame f.ia == set)).length)

/-- Entries in use in a tuft's store (MSOCC.OCC). -/
def Main.msOcc (m : Main) (die tuft : Nat) : Nat :=
  (m.tuft.ms.filter (fun e => e.die.val == die && e.tuft.val == tuft)).length +
  (m.tok.ready.filter (fun f => f.way && f.die.val == die && f.tuft.val == tuft)).length

/-- The oldest entry of a set, by time of insertion (R61). -/
def Main.oldest (m : Main) (die tuft : Fin 8) (set : BitVec 12) : Option MsEntry :=
  (m.tuft.ms.filter (fun e => e.die == die && e.tuft == tuft && setIndex e.ctx e.frame e.ia == set)).foldl
    (fun acc e => match acc with
      | none => some e
      | some a => if e.age < a.age then some e else some a) none

/-- Spill buffer of a tuft. -/
def Main.spillOf (m : Main) (die tuft : Fin 8) : List MsEntry :=
  m.tuft.spill.filter (fun e => e.die == die && e.tuft == tuft)

/-- log2 of the bucket count (R80). -/
def Main.soakLog (m : Main) (c : Nat) : Nat := Nat.min 20 (m.get (F.CTXTAB_SOAK_SIZE c))

/-- The physical address of bucket b of a soakaway (R64). -/
def Main.bucketPa (m : Main) (c b : Nat) : Nat := m.get (F.CTXTAB_SOAK_BASE c) * 4096 + b * 128

/-- R64: the addresses of the eight slots of an entry's home and next bucket, in the order in which they are taken. -/
def Main.soakSlots (m : Main) (ctx : BitVec 8) (frame : BitVec 24) (ia : BitVec 20) : List Nat :=
  let n := 2 ^ m.soakLog ctx.toNat
  let home := (soakHash frame ia).toNat % n
  let next := (home + 1) % n
  (List.range 4).map (fun k => m.bucketPa ctx.toNat home + 32 * k) ++
  (List.range 4).map (fun k => m.bucketPa ctx.toNat next + 32 * k)

/-- The state word of a soakaway slot: AGE in [31:0], VALID in [32], SIDE in [33] (R65). -/
def Main.soakValid (m : Main) (pa : Nat) : Bool := bitsOf (m.peek (pa + 24) 8) 32 1 == 1

/-- R71: neither the home nor the next bucket of the entry has a free slot. -/
def Main.soakFull (m : Main) (e : MsEntry) : Bool := (m.soakSlots e.ctx e.frame e.ia).all m.soakValid

/-- The outcome of what needs a way (R61, R66, R71): it is done; the tuft stalls; the spill fails. -/
inductive Room
  | room (m : Main)
  | stall
  | full

/-- A count of MSERR with the set concerned (R82). -/
def Main.msErr (m : Main) (e : MsEntry) (f : Fld) : Main :=
  (m.bump f).set (F.TUFT_MSERR_LASTSET e.die.val e.tuft.val) (setIndex e.ctx e.frame e.ia).toNat

/-- The fault facts of a store or soakaway entry (R59, R70). -/
def MsEntry.info (e : MsEntry) (code detail : Nat) : FaultInfo :=
  { ctx := e.ctx.toNat, code := code, detail := detail, object := 0, frame := e.frame, side := e.side, ia := e.ia, die := e.die,
    tuft := e.tuft }

/-- R59: an entry of the store with an uncorrectable error leaves it and is counted. -/
def Main.entryDrop (m : Main) (e : MsEntry) : Main :=
  Main.msErr { m with tuft := { m.tuft with ms := m.tuft.ms.erase e } } e (F.TUFT_MSERR_UE e.die.val e.tuft.val)

/-- R59, R357: an entry of the store with an uncorrectable error is discarded and breaks the context recorded in it. -/
def Main.entryLost (m : Main) (e : MsEntry) : Main :=
  (m.entryDrop e).faultWork (e.info fcMatchEcc (setIndex e.ctx e.frame e.ia).toNat)

/-- R59: an entry whose context field is uncorrectable is discarded; MS_UE is raised and no token is sent. -/
def Main.entryNameless (m : Main) (e : MsEntry) : Main :=
  (m.entryDrop e).raiseSrc 8 e.die.val e.die.val
    (e.tuft.val + 8 * (setIndex e.ctx e.frame e.ia).toNat)

/-- R59: an entry with a correctable error is corrected and counted. -/
def Main.correctEntry (m : Main) (e : MsEntry) : MsEntry × Main :=
  if e.err = 1 then
    let e' := { e with err := 0 }
    (e', { m.msErr e (F.TUFT_MSERR_CE e.die.val e.tuft.val) with
      tuft := { m.tuft with ms := m.tuft.ms.map (fun x => if x = e then e' else x) } })
  else (e, m)

/-- R61, R66, R71, R236: find a way in a set, spilling the oldest entry when there is none. The victim is checked as it is read out: a
corrected one is spilled, an uncorrectable one leaves its way under R59 (log 192). -/
def Main.makeRoom (m : Main) (die tuft : Fin 8) (set : BitVec 12) : Room :=
  let used := m.waysUsed die tuft set
  if used.1 + used.2 < 4 then .room m
  else match m.oldest die tuft set with
    | none => .full
    | some v =>
      if v.err = 2 then .room (m.entryLost v)
      else
        let c := v.ctx.toNat
        if !m.flag (F.CTXTAB_SOAK_EN c) || m.soakFull v then .full
        else if (m.spillOf die tuft).length ≥ 16 then .stall
        else
          let vm := m.correctEntry v
          let m := vm.2
          let m := { m with tuft := { m.tuft with ms := m.tuft.ms.erase vm.1, spill := m.tuft.spill ++ [vm.1] } }
          let m := (m.bump (F.TUFT_MSSPILL_SPILLS die.val tuft.val)).occChange (8 * die.val + tuft.val) c true
          .room (m.peak (F.CTXTAB_SOAKOCC_PEAK c) (m.get (F.CTXTAB_SOAKOCC_OCC c)))

/-- MSOCC.PEAK follows the occupancy of a tuft's store (R82). -/
def Main.msPeak (m : Main) (die tuft : Fin 8) : Main := m.peak (F.TUFT_MSOCC_PEAK die.val tuft.val) (m.msOcc die.val tuft.val)

/-- Insert an entry with the next insertion count, or with its own AGE, and an error injection armed for it (R57, R66, R82). -/
def Main.msInsert (m : Main) (e : MsEntry) (keepAge : Bool) : Main :=
  let k := 8 * e.die.val + e.tuft.val
  let n := nmGet m.tuft.ages k 0
  let e := { e with age := if keepAge then e.age else n, err := nmGet m.tuft.inj k 0 }
  let m := { m with tuft := { m.tuft with ms := m.tuft.ms ++ [e], ages := nmPut m.tuft.ages k (n + 1) 0,
                                          inj := nmDel m.tuft.inj k } }
  m.msPeak e.die e.tuft

/-- R71: a failed spill parks the arriving token; the first one since SOAK_FULL was cleared sends a fault token. -/
def Main.spillFailed (m : Main) (die tuft : Fin 8) (t : Token) : Main :=
  let c := t.ctx.toNat
  let m := m.bump (F.TUFT_MSSPILL_FAILS die.val tuft.val)
  if m.flag (F.CTXTAB_STATE_SOAK_FULL c) then
    let r := m.parkTokH t fcSoakFull 0 die tuft true
    if r.1 = 0 then r.2 else r.2.bump (F.CTXTAB_SOAKOCC_FULLPARK c)
  else (m.set (F.CTXTAB_STATE_SOAK_FULL c) 1).parkTok t fcSoakFull 0 die tuft false

/-- A token stays first among those that have arrived: its bank stalls (R66, R67). -/
def Main.stallTok (m : Main) (die tuft : Fin 8) (t : Token) : Main :=
  { m with tok := { m.tok with arrived := { die := die, tuft := tuft, tok := t } :: m.tok.arrived } }

/-- What has become of an arriving token that needs a way: done, its bank stalls, or its spill has failed (R61, R66, R71). -/
def Main.settle (m : Main) (die tuft : Fin 8) (t : Token) : Room → Main
  | .room m' => m'
  | .stall => m.stallTok die tuft t
  | .full => m.spillFailed die tuft t

/-- A complete set becomes ready (R60, R61). Of a SUSPENDED context it stays in a way as a ready entry (R236), of which the set has one only
when held is true; it takes no armed injection (log 226). ecc is what the fetch of the instruction found (R87): only the fetch for the token that
completes the set counts (log 228). -/
def Main.complete (m : Main) (die tuft : Fin 8) (t : Token) (e : MsEntry) (ecc : Ecc) (word : Word) (lit : Option Word)
    (conts : List Word) (held : Bool) : Room :=
  let f := mkFiring die tuft e word lit conts t.wsel t.pass
  match ecc with
  | .uncorrectable =>
    let m := m.raiseSrc 9 die.val die.val tuft.val
    .room (if m.isFaultToken t then (m.unhandled (t.info fcImemEcc 0 die tuft)).rpDone t.replay 2
           else m.parkOp { f with replay := t.replay } fcImemEcc 0 0)
  | _ =>
    if m.tuftRun die tuft t.ctx.toNat = 2 then
      match (if held then .room m else m.makeRoom die tuft (setIndex t.ctx t.frame t.ia)) with
      | .room m => .room (((m.addReady { f with way := true }).msPeak die tuft).rpDone t.replay 0)
      | r => r
    else .room ((m.addReady f).rpDone t.replay 0)

/-- Insert a token that found no partner (R61, R67). -/
def Main.insertTok (m : Main) (die tuft : Fin 8) (t : Token) : Room :=
  match m.makeRoom die tuft (setIndex t.ctx t.frame t.ia) with
  | .room m => .room ((m.msInsert (MsEntry.ofToken die tuft t) false).rpDone t.replay 0)
  | r => r

/-- Whether an entry and a token together fill exactly the ports the operation accepts (R60). -/
def fills (ps : List (BitVec 2)) (e : MsEntry) : Bool := ps.all (fun p => (e.at_ p).isSome)

/-- An entry joined by a token (R61). -/
def MsEntry.join (e : MsEntry) (t : Token) : MsEntry := e.put t.port { value := t.value, typ := t.typ } t.prio

/-- Join a token with the store entry that holds its key (R61, R62). -/
def Main.joinTok (m : Main) (die tuft : Fin 8) (t : Token) (e : MsEntry) (ecc : Ecc) (r : OpRow) (word : Word)
    (lit : Option Word) (conts : List Word) : Room :=
  let m := { m with tuft := { m.tuft with ms := m.tuft.ms.erase e } }
  if fills (portsOf r (IWord.ofWord word)) (e.join t) then m.complete die tuft t (e.join t) ecc word lit conts true
  else .room (({ m with tuft := { m.tuft with ms := m.tuft.ms ++ [e.join t] } }).rpDone t.replay 0)

/-- R59: the entry that a token's lookup has met is lost. The token is discarded and counted as R357 counts work of a BROKEN context, and a
fault token that meets it is unhandled (R356; log 189). -/
def Main.matchEcc (m : Main) (e : MsEntry) (t : Token) : Main :=
  if m.isFaultToken t then ((m.entryDrop e).unhandled (t.info fcMatchEcc (setIndex e.ctx e.frame e.ia).toNat e.die e.tuft)).rpDone t.replay 2
  else ((m.entryLost e).discard e.die.val).rpDone t.replay 2

/-- A lookup in the store (R57, R61 to R63, R67). -/
def Main.lookupTok (m : Main) (die tuft : Fin 8) (t : Token) (ecc : Ecc) (r : OpRow) (word : Word) (lit : Option Word)
    (conts : List Word) : Main :=
  match m.tuft.ms.find? (fun e => e.hasKey die tuft t) with
  | some e =>
    if e.err = 2 then m.matchEcc e t
    else
      let em := m.correctEntry e
      if (em.1.at_ t.port).isSome then em.2.parkTok t fcDuplicate t.port.toNat die tuft false
      else em.2.settle die tuft t (em.2.joinTok die tuft t em.1 ecc r word lit conts)
  | none =>
    match m.tuft.probes.find? (fun p => p.die == die && p.tuft == tuft && p.tok.ctx == t.ctx && p.tok.frame == t.frame &&
        p.tok.ia == t.ia && p.tok.side == t.side) with
    | some p =>
      { m with tuft := { m.tuft with probes := m.tuft.probes.map (fun q =>
          if q = p then { p with waiting := p.waiting ++ [t] } else q) } }
    | none =>
      let m := m.occArrive (8 * die.val + tuft.val) t.ctx.toNat
      if m.occCopy (8 * die.val + tuft.val) t.ctx.toNat = 0 then m.settle die tuft t (m.insertTok die tuft t)
      else if (m.tuft.probes.filter (fun p => p.die == die && p.tuft == tuft)).length ≥ 32 then m.stallTok die tuft t
      else
        let m := m.bump (F.TUFT_MSPROBE_PROBES die.val tuft.val)
        { m with tuft := { m.tuft with probes := m.tuft.probes ++ [{ die := die, tuft := tuft, tok := t, waiting := [] }] } }

/-- R238: a fault token with park handle 0 that reaches the handler starts the handler boost. -/
def Main.noteFaultToken (m : Main) (t : Token) : Main :=
  let c := t.ctx.toNat
  if m.isFaultToken t && bitsOf t.value.toNat 16 32 == 0 then
    let win := m.get (F.CTXTAB_SCHED_HWIN c) * 1000
    { m with req := { m.req with park := { m.req.park with boost := nmPut m.req.park.boost c (m.now + win) 0 } } }
  else m

/-- What a token's fetch comes to: the instruction, or the state in which the token has been parked (R87, R90). -/
inductive FetchFor
  | instr (r : OpRow) (word : Word) (lit : Option Word) (conts : List Word)
  | parked (m : Main)

/-- The fetch of the instruction that a token at its tuft names (R60, R87, R90). -/
def Main.fetchFor (m : Main) (die tuft : Fin 8) (t : Token) : FetchFor :=
  let e := m.place die.val t.ctx.toNat (t.ia.extractLsb' 12 8).toNat
  match m.fetch die tuft (plSlot e t.side) t.ia with
  | .badTarget k => .parked (m.parkTok t fcBadTarget k die tuft false)
  | .badInstr opc => .parked (m.parkTok t fcBadInstr opc die tuft false)
  | .ok r word lit conts =>
    if (portsOf r (IWord.ofWord word)).contains t.port then .instr r word lit conts
    else .parked (m.parkTok t fcBadPort (t.port.toNat + r.opc * 4) die tuft false)

/-- A token at its tuft, past the weir (R60 to R63, R87, R90). ecc is what the instruction fetch finds. -/
def Main.matchTok (m : Main) (die tuft : Fin 8) (t : Token) (ecc : Ecc) : Main :=
  if m.dead t.ctx.toNat && !t.pass then (m.discard die.val).rpDone t.replay 2
  else
    match m.fetchFor die tuft t with
    | .parked m => m
    | .instr r word lit conts =>
      let m := m.noteFaultToken t
      if portsOf r (IWord.ofWord word) == [t.port] then
        m.settle die tuft t (m.complete die tuft t (MsEntry.ofToken die tuft t) ecc word lit conts false)
      else m.lookupTok die tuft t ecc r word lit conts

/-- R206, R211: a gated token enters the weir buffer of its tuft. -/
def Main.weirEnter (m : Main) (die tuft : Fin 8) (t : Token) : Main :=
  let held := m.tuft.weir.filter (fun w => w.die == die && w.tuft == tuft)
  if m.dead t.ctx.toNat then (m.discard die.val).rpDone t.replay 2
  else if held.length ≥ 4096 then
    (m.bump (F.TUFT_WEIROCC_FULLS die.val tuft.val)).parkTok t fcWeirFull t.wsel.toNat die tuft false
  else
    let w : WeirTok := { die := die, tuft := tuft, tok := { t with replay := none }, entered := m.now, seen := none }
    let m := { m with tuft := { m.tuft with weir := m.tuft.weir ++ [w] } }
    ((m.peak (F.TUFT_WEIROCC_PEAK die.val tuft.val) (held.length + 1)).observe t.ctx).rpDone t.replay 0

/-- Whether a token that has reached its tuft goes to the weir buffer (R206). -/
def Token.gated (t : Token) : Bool := !t.released && decide (1 ≤ t.wsel.toNat ∧ t.wsel.toNat ≤ 48)

/-- Whether a token at its tuft uses the matching store: its operation has another operand (R57, R60). -/
def Main.looksUp (m : Main) (die tuft : Fin 8) (t : Token) : Bool :=
  !t.gated && (t.pass || !m.dead t.ctx.toNat) &&
  match m.fetchFor die tuft t with
  | .instr r word _ _ => portsOf r (IWord.ofWord word) != [t.port]
  | .parked _ => false

/-- R57: the bank of a tuft's store that a token's lookup needs. -/
def bankOfTok (t : Token) : Nat := (setIndex t.ctx t.frame t.ia).toNat % 8

/-- R57, R242: a lookup that its bank serves before that of t: of a higher PRIO, or of the same PRIO and arrived earlier. -/
def Main.servedBefore (m : Main) (die tuft : Fin 8) (t : Token) : Bool :=
  let a : Arrival := { die := die, tuft := tuft, tok := t }
  let rival := fun (b : Arrival) => b.die == die && b.tuft == tuft && bankOfTok b.tok == bankOfTok t
  (m.tok.arrived.any (fun b => rival b && decide (t.prio < b.tok.prio) && m.looksUp die tuft b.tok)) ||
  ((m.tok.arrived.takeWhile (· != a)).any (fun b => rival b && decide (t.prio = b.tok.prio) && m.looksUp die tuft b.tok))

/-- R83, R579: the CHECK of a token that a router or the inputs of its die's tufts correct, or cannot correct, is counted at the router of the die
(R41; log 193). -/
def Main.countTokErr (m : Main) (router : Nat) (ue : Bool) : Main :=
  match router, ue with
  | 0, false => m.bump F.FROUTER_TOKERR_CE
  | 0, true => (m.bump F.FROUTER_TOKERR_UE).raiseSrc 7 0 0 0
  | r, false => m.bump (F.ROUTER_TOKERR_CE r)
  | r, true => (m.bump (F.ROUTER_TOKERR_UE r)).raiseSrc 7 r r 0

/-- The entry that is k-th in a set of a tuft's store. -/
def Main.wayOf (m : Main) (die tuft : Fin 8) (set : BitVec 12) (k : Nat) : Option MsEntry :=
  (m.tuft.ms.filter (fun e => e.die == die && e.tuft == tuft && setIndex e.ctx e.frame e.ia == set))[k]?

/-- A token past the input of its tuft: handed on to the router when its block has moved (R228), held in the weir (R206), stopped for a reserved
field (R44), or matched. -/
def Main.tuftTok (m : Main) (die tuft : Fin 8) (t : Token) (io : MatchIo) : Main :=
  let e := m.place die.val t.ctx.toNat (t.ia.extractLsb' 12 8).toNat
  if plValid e && (plDie e t.side != die.val || plTuft e t.side != tuft.val) then
    m.send { t with odie := die, otuft := tuft, released := false, copied := true }
  else if t.gated then m.weirEnter die tuft t
  else if 12 ≤ t.typ.toNat ∨ (49 ≤ t.wsel.toNat ∧ t.wsel.toNat ≤ 61) then
    m.parkTok t fcBadTag (t.typ.toNat + 16 * t.wsel.toNat) die tuft false
  else if m.looksUp die tuft t then
    match io.ctxUe.bind (fun k => m.wayOf die tuft (setIndex t.ctx t.frame t.ia) k.val) with
    | some x => (m.entryNameless x).matchTok die tuft t io.fetch
    | none => m.matchTok die tuft t io.fetch
  else m.matchTok die tuft t io.fetch

/-- TOKEN_MATCH (R41, R43, R57, R61): a token that has reached its tuft. One whose CHECK cannot be corrected is discarded; a lookup that its bank
does not serve yet waits where it is. -/
def Main.tokenMatch (m : Main) (die tuft : Fin 8) (t : Token) (io : MatchIo) : Main :=
  let a : Arrival := { die := die, tuft := tuft, tok := t }
  let m' := { m with tok := { m.tok with arrived := m.tok.arrived.erase a } }
  match io.chk with
  | .uncorrectable => (m'.countTokErr die.val true).rpDone t.replay 2
  | _ =>
    if m.looksUp die tuft t && m.servedBefore die tuft t then
      if m.tok.arrived.contains a then m else { m with tok := { m.tok with arrived := m.tok.arrived ++ [a] } }
    else (if io.chk = .corrected then m'.countTokErr die.val false else m').tuftTok die tuft t io

/-! ### Routing -/

/-- R83, R579: a router counts a token that it routes. -/
def Main.bumpRouted (m : Main) (router : Nat) : Main :=
  if router = 0 then m.bump F.FROUTER_STATS_ROUTED else m.bump (F.ROUTER_STATS_ROUTED router)

/-- R53: a router drops a SIDE 1 token for an unpaired block. -/
def Main.pairDrop (m : Main) (router : Nat) : Main :=
  if router = 0 then m.bump F.FROUTER_STATS_PAIRDROP else m.bump (F.ROUTER_STATS_PAIRDROP router)

/-- R35: a token of the side that is being lost, or from an isolated die, is discarded. ROUTER.STATS.DISCARDS counts only what R52 discards. -/
def Main.dropTok (m : Main) (t : Token) : Main := m.rpDone t.replay 2

/-- Whether a token leaves the tuft that made it (R31). -/
def Token.leaves (t : Token) (d tu : Nat) : Bool := t.odie == 0 || t.odie.val != d || t.otuft.val != tu

/-- Give a token to the tuft that an entry names for its side, where the die can take it (R35, R36, R52). The fault tokens of R35 and R36 come from
the field die router. What is parked or returned does not count in ROUTED (log 219). -/
def Main.deliver (m : Main) (router : Nat) (e : Nat) (t : Token) : Main :=
  let d := plDie e t.side
  let tu := plTuft e t.side
  match m.dieState d with
  | 1 | 3 =>
    let m := if router == 0 || t.leaves d tu then m.bumpRouted router else m
    { m with tok := { m.tok with arrived := m.tok.arrived ++ [{ die := fin8 d, tuft := fin8 tu, tok := t }] } }
  | 2 => if plPaired e then m.dropTok t else m.tokFault t fcDieIsolated d 0 0
  | 0 => m.parkTok t fcNoPlacement (t.ia.extractLsb' 12 8).toNat t.odie t.otuft false
  | _ => m.parkTok t fcDieDormant d 0 0 false

/-- R53: a token for a paired block that comes from outside the copies of paired blocks, and has not been copied. -/
def Main.toCopy (m : Main) (e : Nat) (t : Token) : Bool := plPaired e && !t.copied && !m.sole t.ctx.toNat

/-- R41: the checks of a token at routers, one after the other: counted where it is corrected; where it cannot be, the token is lost. -/
def Main.checkTok (m : Main) : List (Nat × Ecc) → Bool × Main
  | [] => (true, m)
  | (r, .uncorrectable) :: _ => (false, m.countTokErr r true)
  | (r, .corrected) :: l => (m.countTokErr r false).checkTok l
  | (_, .ok) :: l => m.checkTok l

/-- R24, R41: the routers that a token meets from one die to another, with what its check finds there. -/
def Main.hops (m : Main) (s d : Nat) (via : List Ecc) : List (Nat × Ecc) := ((m.path s d).drop 1).zip via

/-- A token passes the routers on its way from a router to the die of its copy, and reaches its tuft (R41, R52). -/
def Main.carry (m : Main) (router e : Nat) (t : Token) (via : List Ecc) : Main :=
  let d := plDie e t.side
  let r := m.checkTok (if m.dieState d == 1 || m.dieState d == 3 then m.hops router d via else [])
  if r.1 then r.2.deliver router e t else r.2.rpDone t.replay 2

/-- R53: the field die router copies a token, which a compute die's router has passed on to it (log 219). -/
def Main.copyTok (m : Main) (router e : Nat) (t : Token) (io : RouteIo) : Main :=
  let up := if router = 0 then [] else m.hops router 0 io.via
  let r := (if router = 0 then m else m.bumpRouted router).checkTok up
  if r.1 then (r.2.carry 0 e { t with side := false, copied := true } (io.via.drop up.length)).carry 0 e
    { t with side := true, copied := true, replay := none } io.via1
  else r.2.rpDone t.replay 2

/-- The placement entry of a token at a router: copy, drop or deliver (R52, R53). The RPSTAT of a token that is offered again goes with
its SIDE 0 copy (log 194); each copy counts in ROUTED (log 219). -/
def Main.routePlaced (m : Main) (router : Nat) (t : Token) (io : RouteIo) : Main :=
  let e := m.place router t.ctx.toNat (t.ia.extractLsb' 12 8).toNat
  if !plValid e then m.parkTok t fcNoPlacement (t.ia.extractLsb' 12 8).toNat t.odie t.otuft false
  else if m.toCopy e t then m.copyTok router e t io
  else if t.side && !plPaired e then (m.pairDrop router).rpDone t.replay 2
  else m.carry router e t io.via

/-- The router that first handles a token: that of its ODIE, or the field die's for a token created on the field die (R40). It alone counts the
token in ROUTED (log 218). -/
def Main.routerOf (m : Main) (t : Token) : Nat := if m.compute t.odie.val then t.odie.val else 0

/-- Whether a token stays in the tuft that made it, which avoids the routers (R31). -/
def Main.staysIn (m : Main) (t : Token) : Bool :=
  let e := m.place (m.routerOf t) t.ctx.toNat (t.ia.extractLsb' 12 8).toNat
  let side := t.side && !m.sole t.ctx.toNat
  plValid e && !m.toCopy e t && !t.leaves (plDie e side) (plTuft e side)

/-- A token at its first router, its CHECK being good there (R44, R52, R53, R248). -/
def Main.routeTok (m : Main) (t : Token) (io : RouteIo) : Main :=
  let r := m.routerOf t
  let t := if m.sole t.ctx.toNat then { t with side := false } else t
  if m.dieState t.odie.val = 2 ∧ t.odie ≠ 0 then m.dropTok t
  else if m.dead t.ctx.toNat && !t.pass then (m.discard r).rpDone t.replay 2
  else if 12 ≤ t.typ.toNat ∨ (49 ≤ t.wsel.toNat ∧ t.wsel.toNat ≤ 61) then
    m.parkTok t fcBadTag (t.typ.toNat + 16 * t.wsel.toNat) t.odie t.otuft false
  else m.routePlaced r t io

/-- TOKEN_ROUTE (R41, R52): a token reaches its router, and the routers on its way; it leaves the tokens that are in flight (log 13). -/
def Main.tokenRoute (m : Main) (t : Token) (io : RouteIo) : Main :=
  let m := { m with tok := { m.tok with inflight := m.tok.inflight.erase t } }
  if m.staysIn t then m.routeTok t io
  else
    let r := m.checkTok [(m.routerOf t, io.chk)]
    if r.1 then r.2.routeTok t io else r.2.rpDone t.replay 2

/-! ### The soakaway -/

/-- R70, R357: a soakaway access that fails breaks the context and sends a fault token without a handle; work of a dead context is counted. -/
def Main.soakLost (m : Main) (e : MsEntry) : Main := m.faultWork (e.info fcSoakLost 0)

/-- R70: the same for the token whose probe fails. The token is discarded and counted as R357 counts work of a BROKEN context (log 189). -/
def Main.probeLost (m : Main) (die tuft : Fin 8) (t : Token) : Main :=
  if m.isFaultToken t then (m.unhandled (t.info fcSoakLost 0 die tuft)).rpDone t.replay 2
  else ((m.faultOnly (t.info fcSoakLost 0 die tuft)).discard die.val).rpDone t.replay 2

/-- The two held values of an entry, in the order left, right, third (R65). -/
def MsEntry.vals (e : MsEntry) : List Opnd := e.left.toList ++ e.right.toList ++ e.third.toList

/-- R65: the four words of a soakaway slot. -/
def MsEntry.soakWords (e : MsEntry) : List Nat :=
  let v := e.vals
  let at_ := fun k => ((v[k]?).getD noOpnd)
  [(at_ 0).value.toNat, (at_ 1).value.toNat,
   e.ia.toNat + b2n e.left.isSome * 2 ^ 20 + b2n e.right.isSome * 2 ^ 21 + b2n e.third.isSome * 2 ^ 22 +
     (at_ 0).typ.toNat * 2 ^ 24 + (at_ 1).typ.toNat * 2 ^ 28 + e.frame.toNat * 2 ^ 32 + e.ctx.toNat * 2 ^ 56,
   e.age % 2 ^ 32 + 2 ^ 32 + b2n e.side * 2 ^ 33]

/-- R65: the entry that the four words of a valid slot hold. A slot has no PRIO; the joining token's PRIO governs (log 11). -/
def MsEntry.ofSoak (die tuft : Fin 8) (w0 w1 w2 w3 : Nat) : MsEntry :=
  let pl := bitsOf w2 20 1 == 1
  let pr := bitsOf w2 21 1 == 1
  let pt := bitsOf w2 22 1 == 1
  let o0 := opnd (BitVec.ofNat 4 (bitsOf w2 24 4)) w0
  let o1 := opnd (BitVec.ofNat 4 (bitsOf w2 28 4)) w1
  { die := die, tuft := tuft, ctx := BitVec.ofNat 8 (bitsOf w2 56 8), frame := BitVec.ofNat 24 (bitsOf w2 32 24),
    ia := BitVec.ofNat 20 (bitsOf w2 0 20), side := bitsOf w3 33 1 == 1,
    left := if pl then some o0 else none,
    right := if pr then some (if pl then o1 else o0) else none,
    third := if pt then some (if pl || pr then o1 else o0) else none,
    prio := 0, age := bitsOf w3 0 32, err := 0 }

/-- The outcome of an access to the buckets of a key (R67, R70). -/
inductive Buckets
  | ok (m : Main)
  | wait (pa : Nat)
  | lost (m : Main)

/-- Read every word of a key's two buckets with the identity of its context (R67, R70). -/
def Main.readBuckets (m : Main) (id : AccId) : List Nat → Buckets
  | [] => .ok m
  | pa :: rest =>
    match m.loadPhys id pa 32 with
    | (.ok _, m') => (m'.freeWait id.die false pa).readBuckets id rest
    | (.wait, _) => .wait pa
    | (.fail _ _, m') => .lost m'

/-- R248: a slot that a SOLE context writes holds surviving work. -/
def Main.soleSlot (m : Main) (c pa : Nat) : Main :=
  if m.sole c && !m.tuft.survived.contains (c, pa) then { m with tuft := { m.tuft with survived := m.tuft.survived ++ [(c, pa)] } } else m

/-- SPILL_WRITE (R66, R70, R71): entry i of a tuft's spill buffer goes to the first free slot of its home or next bucket. An
entry that a failed write loses stays counted in OCC (log 215). -/
def Main.spillWrite (m : Main) (die tuft : Fin 8) (i : Nat) : Main :=
  match (m.spillOf die tuft)[i]? with
  | none => m
  | some e =>
    let c := e.ctx.toNat
    let id := ctxId c die.val
    let drop := fun (m : Main) => { m with tuft := { m.tuft with spill := m.tuft.spill.erase e } }
    let slots := m.soakSlots e.ctx e.frame e.ia
    match m.readBuckets id slots with
    | .wait pa => m.wakeFor pa
    | .lost m => (drop m).soakLost e
    | .ok m =>
      match slots.find? (fun pa => !m.soakValid pa) with
      | some pa =>
        let r := m.storeWords id pa e.soakWords
        if r.1 then (drop r.2).soleSlot c pa else (drop r.2).soakLost e
      | none => -- both buckets have filled since the spill: the entry stays in the buffer (log 12)
        let m := m.bump (F.TUFT_MSSPILL_FAILS die.val tuft.val)
        if m.flag (F.CTXTAB_STATE_SOAK_FULL c) then m
        else (m.set (F.CTXTAB_STATE_SOAK_FULL c) 1).faultOnly
          { ctx := c, code := fcSoakFull, detail := 0, object := 0, frame := e.frame, side := e.side, ia := e.ia,
            die := die, tuft := tuft }

/-- The entry in the soakaway slot at pa. -/
def Main.soakEntry (m : Main) (die tuft : Fin 8) (pa : Nat) : MsEntry :=
  MsEntry.ofSoak die tuft (m.peek pa 8) (m.peek (pa + 8) 8) (m.peek (pa + 16) 8) (m.peek (pa + 24) 8)

/-- Clear the VALID bit of a soakaway slot (R67), from tuft number k (8 × die + tuft). -/
def Main.soakClear (m : Main) (id : AccId) (k c pa : Nat) : Buckets :=
  let w := m.peek (pa + 24) 8
  match m.storePhys id (pa + 24) (w - bitsOf w 32 1 * 2 ^ 32) 8 with
  | (.ok _, m) => .ok ((m.freeWait id.die false pa).occChange k c false)
  | (.wait, _) => .wait pa
  | (.fail _ _, m) => .lost m

/-- R248: the probe of a SOLE context clears every slot of the lost side that it meets: one of a block that was paired at the takeover, with the
lost SIDE, which no surviving copy has written since. -/
def Main.soakPurge (m : Main) (id : AccId) (k c : Nat) (lost : Bool) : List Nat → Buckets
  | [] => .ok m
  | pa :: rest =>
    let e := m.soakEntry 0 0 pa
    if m.soakValid pa && e.ctx.toNat == c && e.side == lost && m.tuft.taken.contains (256 * c + (e.ia.extractLsb' 12 8).toNat) &&
        !m.tuft.survived.contains (c, pa) then
      match m.soakClear id k c pa with
      | .ok m => m.soakPurge id k c lost rest
      | r => r
    else m.soakPurge id k c lost rest

/-- A probed token and the entry that was found for it (R62, R67): they fire, or go back into the store together, and then the entry leaves its
place by take; while no way is free the probe waits (none), and when the spill fails the token is parked and the entry stays (R71; log 10). The entry keeps its
AGE (log 216). -/
def Main.probeJoin (m : Main) (die tuft : Fin 8) (t : Token) (e : MsEntry) (take : Main → Buckets) (ecc : Ecc) (r : OpRow)
    (word : Word) (lit : Option Word) (conts : List Word) : Option Main :=
  let m := m.bump (F.TUFT_MSPROBE_HITS die.val tuft.val)
  let e := { e with side := t.side }
  if (e.at_ t.port).isSome then some (m.parkTok t fcDuplicate t.port.toNat die tuft false)
  else match take m with
    | .wait _ => none
    | .lost m => some (m.probeLost die tuft t)
    | .ok n =>
      let done := if fills (portsOf r (IWord.ofWord word)) (e.join t) then n.complete die tuft t (e.join t) ecc word lit conts false
        else match n.makeRoom die tuft (setIndex t.ctx t.frame t.ia) with
          | .room n => .room ((n.msInsert (e.join t) true).rpDone t.replay 0)
          | x => x
      match done with
      | .room n => some n
      | .stall => none
      | .full => some (m.spillFailed die tuft t)

/-- R67: the probe's search of the spill buffer and of the two buckets, which have been read. -/
def Main.probeSearch (m : Main) (die tuft : Fin 8) (t : Token) (slots : List Nat) (ecc : Ecc) (r : OpRow)
    (word : Word) (lit : Option Word) (conts : List Word) : Option Main :=
  let c := t.ctx.toNat
  let k := 8 * die.val + tuft.val
  match m.tuft.spill.find? (fun e => e.hasKey die tuft t) with
  | some e =>
    m.probeJoin die tuft t e (fun m => .ok ({ m with tuft := { m.tuft with spill := m.tuft.spill.erase e } }.occChange k c false))
      ecc r word lit conts
  | none =>
    let hit := fun pa =>
      let e := m.soakEntry die tuft pa
      m.soakValid pa && e.ctx == t.ctx && e.frame == t.frame && e.ia == t.ia && (m.sole c || e.side == t.side)
    match slots.find? hit with
    | some pa => m.probeJoin die tuft t (m.soakEntry die tuft pa) (fun m => m.soakClear (ctxId c die.val) k c pa) ecc r word lit conts
    | none => match m.insertTok die tuft t with
      | .room m => some m
      | .stall => none
      | .full => some (m.spillFailed die tuft t)

/-- The bucket data of a probe returns for its token (R67, R70); none while the probe must wait. -/
def Main.probeReturn (m : Main) (die tuft : Fin 8) (t : Token) (slots : List Nat) (ecc : Ecc) : Option Main :=
  if m.dead t.ctx.toNat && !t.pass then some ((m.discard die.val).rpDone t.replay 2)
  else match m.fetchFor die tuft t with
    | .parked m => some m
    | .instr r word lit conts =>
      let c := t.ctx.toNat
      let purged := if m.sole c then m.soakPurge (ctxId c die.val) (8 * die.val + tuft.val) c (m.flag (F.CTXTAB_PAIR_LOSTSIDE c)) slots
        else .ok m
      match purged with
      | .ok m => m.probeSearch die tuft t slots ecc r word lit conts
      | .wait _ => none
      | .lost m => some (m.probeLost die tuft t)

/-- SOAKAWAY_PROBE (R67, R63): probe i of a tuft returns; its token is matched or inserted, and then the tokens that waited. While an access, or
the way that it needs, has to wait, the probe stays outstanding. -/
def Main.soakawayProbe (m : Main) (die tuft : Fin 8) (i : Nat) (ecc : Ecc) : Main :=
  match (m.tuft.probes.filter (fun p => p.die == die && p.tuft == tuft))[i]? with
  | none => m
  | some p =>
    let t := p.tok
    let n := { m with tuft := { m.tuft with probes := m.tuft.probes.erase p } }
    let slots := m.soakSlots t.ctx t.frame t.ia
    let done := fun (back : Option Main) => match back with
      | none => m
      | some n => p.waiting.foldl (fun m t => m.matchTok die tuft t ecc) n
    match n.readBuckets (ctxId t.ctx.toNat die.val) slots with
    | .wait pa => m.wakeFor pa
    | .lost n => done (some (n.probeLost die tuft t))
    | .ok n => done (n.probeReturn die tuft t slots ecc)

end Sys2Proof.Machine
end

