-- ==== Sys2Proof/Machine/Operands.lean ====
section
/-! DEFINITION. How a firing is dispatched (R236, R239, R357, R518), how its results leave (R91), and the operand forms that the
operations share (R114, R125). -/

namespace Sys2Proof.Machine

/-! ### Outcome of a command -/

/-- A command that acts on the main domains alone. -/
def State.onMain (s : State) (g : Main → Main) : Host.Outcome State Fault Refusal := .next { s with main := g s.main }

/-! ### Dispatch -/

/-- The mode of the device (R518). -/
def Main.mode (m : Main) : Nat := m.get F.MODE_CUR_MODE

/-- R538 step 4: the field die's core clock has stopped, and no wake has started it: no access or command of a path is performed (log 207). -/
def Main.asleep (m : Main) : Bool := m.mode == 10 && !m.sys.waking

/-- R538: outside STANDBY the field die's core clock runs; in STANDBY axis counters, references 2 to 48, timers and the output scheduler
hold. -/
def Main.unlessStandby (m : Main) (act : Main → Main) : Main := if m.mode = 10 ∧ m.sys.waking = false then m else act m

/-- R518: the contexts that fire in the current mode. -/
def Main.modeFires (m : Main) (c : Nat) : Bool :=
  match m.mode with
  | 0 | 10 | 11 => false
  | 1 => c == 0 || c == 255
  | _ => true

/-- Whether a firing's tuft can dispatch work of its context now, which is neither FREE nor BROKEN (R226, R236, R518, R524, R535, R552). -/
def Main.tuftFires (m : Main) (f : Firing) : Bool :=
  (m.tuftRun f.die f.tuft f.ctx.toNat == 1 || f.pass) && m.modeFires f.ctx.toNat && m.compute f.die.val && m.dieState f.die.val == 1 &&
  !(m.mode == 9 && m.tuft.halted.contains (8 * f.die.val + f.tuft.val))

/-- The operation of a firing, where its word decodes (R90). -/
def Firing.op (f : Firing) : Option Op := (decodeOp (IWord.ofWord f.word)).map (fun r => r.op)

/-- R118: the operations of the dividers. -/
def Op.divides : Op → Bool
  | .div | .rem | .divrem | .fdiv | .fsqrt => true
  | _ => false

/-- R124: the operations that send a request to a unit outside the PE, and so take a request slot (log 196). -/
def Op.requests : Op → Bool
  | .load | .store | .aadd | .aand | .aor | .axor | .axchg | .acas | .iload | .istore | .iclear => true
  | .send | .recv | .pktbegin | .pktword | .pktcommit | .pktabort | .flush | .droprest => true
  | .outst | .outnow | .slacq | .slrel | .flissue | .resume => true
  | .replay | .replayv | .replayv2 | .parkdrop | .signal => true
  | .pload | .pstore | .imwrite | .imread | .tlbinv => true
  | _ => false

/-- The divider of a PE pair has room in its queue (R118, R239). -/
def Main.divRoom (m : Main) (die tuft : Fin 8) (pair : Nat) : Bool :=
  match m.tuft.divs.find? (fun d => d.die == die && d.tuft == tuft && d.pair.val == pair) with
  | none => true
  | some d => decide (d.queue.length < 2)

/-- The replays under way (R158): those of the tokens and firings that are on their way, ready, or waiting at a unit. -/
def Main.replays (m : Main) : List Replay :=
  let toks := m.tok.inflight ++ m.tok.arrived.map (fun a => a.tok) ++ (m.tuft.probes.map (fun p => p.tok :: p.waiting)).flatten
  let fs := m.tok.ready ++ m.req.reqs.map (fun r => r.f) ++ m.req.walks ++ (m.runnels.map (fun r => r.held)).flatten ++
    m.waiters.map (fun w => w.f) ++ m.req.cmpWait ++ m.req.tlbInvs.map (fun t => t.f) ++
    (m.tuft.divs.map (fun d => d.cur :: d.queue)).flatten ++ m.tuft.recs.filterMap (fun r => r.held)
  toks.filterMap (fun t => t.replay) ++ fs.filterMap (fun f => f.replay)

/-- The requests that a tuft has outstanding (R124): at a memory unit or behind a walk, at the runnel engine, at the sluice unit, at the
comparator, second copies that wait for the answer of the first, TLBINVs that wait, and the replays that wait for their RPSTAT (log 196). -/
def Main.outstanding (m : Main) (die tuft : Fin 8) : Nat :=
  let mine := fun (f : Firing) => f.die == die && f.tuft == tuft
  (m.req.reqs.filter (fun r => mine r.f)).length + (m.req.walks.filter mine).length +
  (m.runnels.map (fun r => (r.held.filter mine).length)).sum + (m.waiters.filter (fun w => mine w.f)).length +
  (m.req.cmpWait.filter mine).length + (m.req.tlbInvs.filter (fun t => mine t.f)).length +
  (m.req.cmp.filter (fun e => e.second.any (fun r => r.die == die && r.tuft == tuft))).length +
  (m.replays.filter (fun r => r.by_.die == die && r.by_.tuft == tuft)).length

/-- Whether nothing but the order of R239 keeps a ready firing from a PE: its tuft fires its context, a divide finds a divider with room
(R118), and a request finds a request slot (R124). -/
def Main.eligible (m : Main) (f : Firing) : Bool :=
  m.tuftFires f && match f.op with
  | some o => (!o.divides || (List.range 4).any (m.divRoom f.die f.tuft)) && (!o.requests || decide (m.outstanding f.die f.tuft < 64))
  | none => false

/-- R239, R240: the firing priority of a ready firing: the highest PRIO among its operands, or its context's EFF if that is higher. -/
def Main.firePrio (m : Main) (f : Firing) : Nat := Nat.max f.prio.toNat (m.eff f.ctx.toNat)

/-- R239: a ready firing of the same tuft that is dispatched before f: of a higher firing priority, or of the same and older. The ready firings
stand in the order of their age. -/
def Main.firesBefore (m : Main) (f : Firing) : Bool :=
  let rival := fun (g : Firing) => g.die == f.die && g.tuft == f.tuft
  (m.tok.ready.any (fun g => rival g && decide (m.firePrio f < m.firePrio g) && m.eligible g)) ||
  ((m.tok.ready.takeWhile (· != f)).any (fun g => rival g && decide (m.firePrio f = m.firePrio g) && m.eligible g))

/-- Whether a tuft dispatches a ready firing of a context that is neither FREE nor BROKEN now (R236, R239, R518, R524, R535, R552). -/
def Main.dispatches (m : Main) (f : Firing) : Bool := m.tuftFires f && !m.firesBefore f

/-- Take a firing out of those that are ready. -/
def Main.unready (m : Main) (f : Firing) : Main :=
  { m with tok := { m.tok with ready := m.tok.ready.erase f } }

/-- Take a firing out of those that wait for a comparator entry (R247). -/
def Main.uncmp (m : Main) (f : Firing) : Main :=
  { m with req := { m.req with cmpWait := m.req.cmpWait.erase f } }

/-- SCHED.STAT.DISPATCH (R252) and the deadlock detector's observation (R243): a firing that waits at the comparator has
been dispatched before. -/
def Main.countDispatch (m : Main) (f : Firing) : Main :=
  if m.req.cmpWait.contains f then m else (m.bump (F.SCHED_STAT_DISPATCH f.die.val f.tuft.val)).noteFired f.ctx

/-- R158: a parked operation is completed with supplied values, without being executed; an effect-once request then counts as
answered for both copies. -/
def Main.supply (m : Main) (f : Firing) (v : Opnd × Opnd) : Main :=
  (m.reply { f.ret with once := true } (some v.1) (some v.2)).rpDone f.replay 0

/-- A firing that is not dispatched stays ready and keeps its age (R239). -/
def Main.keepReady (m : Main) (f : Firing) : Main :=
  if m.tok.ready.contains f then m else { m with tok := { m.tok with ready := m.tok.ready ++ [f] } }

/-- A firing of operation op is dispatched (R236, R239, R357): work of a FREE or BROKEN context is discarded unless it has been
selected and waits at the comparator (R357), a firing that may not be dispatched now stays ready, and otherwise it does what body
says, or is completed with the values that a replay supplies. Where room is false its PE stalls: it stays ready and stalled says
what is counted. A firing of another operation is none of this command's (log 15). -/
def Main.fireIf (m : Main) (f : Firing) (op : Op) (room : Bool) (stalled body : Main → Main) : Main :=
  if f.op ≠ some op then m
  else if m.dead f.ctx.toNat && !f.pass && !m.req.cmpWait.contains f then (((m.unready f).uncmp f).discard f.die.val).rpDone f.replay 2
  else if !(m.dispatches f || m.req.cmpWait.contains f) then m.keepReady f
  else match f.replay.bind Replay.value with
    | some v => (m.unready f).supply f v
    | none => if room then body ((m.unready f).countDispatch f) else stalled (m.keepReady f)

/-- A firing of operation op that needs nothing but its PE. -/
def Main.fire (m : Main) (f : Firing) (op : Op) (body : Main → Main) : Main := m.fireIf f op true id body

/-- A firing that issues a request: its PE stalls while the tuft has 64 requests outstanding (R124). -/
def Main.fireReq (m : Main) (f : Firing) (op : Op) (body : Main → Main) : Main :=
  m.fireIf f op (m.req.cmpWait.contains f || decide (m.outstanding f.die f.tuft < 64)) id body

/-- A divide: its PE stalls while the queue of its divider is full (R118), which QSTALLS counts (R191). -/
def Main.fireDiv (m : Main) (f : Firing) (op : Op) (pair : Fin 4) (body : Main → Main) : Main :=
  m.fireIf f op (m.divRoom f.die f.tuft pair.val) (fun m => m.bump (F.TUFT_DIVSTAT_QSTALLS f.die.val f.tuft.val)) body

/-! ### Results -/

/-- The results of a firing: one token to DEST0, one to DEST1 (R91). A replay is answered with DONE (R158). -/
def Main.result (m : Main) (f : Firing) (o0 o1 : Option Opnd) : Main := (m.sendRet f.ret o0 o1).rpDone f.replay 0

/-- The same result to DEST0 and DEST1. -/
def Main.both (m : Main) (f : Firing) (o : Opnd) : Main := m.result f (some o) (some o)

/-- One more result token of a firing, to a destination in a frame. -/
def Main.also (m : Main) (f : Firing) (frame : BitVec 24) (dest : BitVec 22) (o : Opnd) : Main :=
  m.sendTo f.die f.tuft f.ctx f.ia f.side frame dest o

/-- The instruction word of a firing. -/
def Firing.i (f : Firing) : IWord := IWord.ofWord f.word

/-- W of a firing (R88). -/
def Firing.w (f : Firing) : Nat := f.i.width

/-- SX of a firing (R88). -/
def Firing.sx (f : Firing) : Bool := f.i.sx

/-- CONTROL operands (R101, R129). -/
def opControl (x : Nat) : Opnd := opnd tyControl x

/-- A CONTROL value with a code (R101). -/
def Opnd.isControl (o : Opnd) (code : Nat) : Bool := o.typ == tyControl && bitsOf o.value.toNat 0 8 == code

/-! ### Operand forms -/

/-- R114: the W-bit reading of a value as an integer. -/
def readInt (w : Nat) (sx : Bool) (x : Nat) : Int := if sx then sgn w x else ((x % 2 ^ w : Nat) : Int)

/-- R114: a W-bit result extended to 64 bits. -/
def extInt (w : Nat) (sx : Bool) (r : Int) : Word := BitVec.ofInt 64 (readInt w sx (uns w r))

/-- R42: a canonical pointer: bits [63:48] equal to bit 47. -/
def canonical (x : Nat) : Bool := bitsOf x 47 17 == 0 || bitsOf x 47 17 == 0x1FFFF

/-- R42: a pointer from a 48-bit address. -/
def canonOf (x : Nat) : Nat := (BitVec.signExtend 64 (BitVec.ofNat 48 x)).toNat

/-- R125: an address operand. -/
def Opnd.isAddress (o : Opnd) : Bool := o.typ == tyPtr && canonical o.value.toNat

/-- R125: a runnel ID: index and die position, or none. -/
def runnelId (x : Nat) : Option (Nat × Nat) :=
  let idx := bitsOf x 0 14
  let die := bitsOf x 14 3
  if x < 2 ^ 17 ∧ die ≤ 5 ∧ (die ≠ 0 ∨ idx < 4096) then some (die, idx) else none

/-- R125: a reference operand, or none. -/
def refOperand (x : Nat) : Option Nat := if 1 ≤ x ∧ x ≤ 48 then some x else none

end Sys2Proof.Machine
end

