-- ==== Sys2Proof/Machine/RegTable.lean ====
section
/-! DEFINITION. The register table of the device: every register of every block with its place (R10, R11), its
dimensions, and its fields with access code, reset value and Kept-by codes, as the register tables of spec/ give them
(R5, R49, R79 to R84, R122, R123, R189 to R191, R231 to R234, R249 to R252, R288 to R292, R309, R333, R334, R346, R370,
R371, R403 to R408, R433 to R438, R462, R499, R516, R517, R542, R543, R556, R557, R579). Reserved fields are left out:
they read as 0 and ignore writes (R12). -/

namespace Sys2Proof.Machine

/-- Every register (or register array) of the device, named BLOCK_NAME as the manual names it. -/
inductive RegName
  | MODE_IDENT
  | CTXTAB_PLACE
  | CTXTAB_STATE
  | CTXTAB_HANDLER
  | CTXTAB_SOAK
  | CTXTAB_SOAKOCC
  | CTXTAB_PLACESTAT
  | TUFT_MSOCC
  | TUFT_MSSPILL
  | TUFT_MSPROBE
  | TUFT_MSERR
  | TUFT_MSCTL
  | ROUTER_STATS
  | ROUTER_TOKERR
  | ROUTER_THRMAP
  | ROUTER_PLACE
  | FROUTER_STATS
  | FROUTER_TOKERR
  | EVT_ROUTE
  | EVT_DIV
  | EVT_STAT
  | TUFT_LCOCC
  | CTXTAB_FPCTL
  | CTXTAB_FPSTICKY
  | TUFT_DIVSTAT
  | REFBUS_BUS
  | REF_SRC
  | REF_SCALE
  | REF_WIN
  | REF_WEIR
  | REF_POS
  | REF_PRESET
  | REF_VEL
  | REF_SAMPLE
  | REF_SAMPLET
  | REF_XEVT
  | REF_GUARD
  | REF_STAT
  | OUTSCHED_CFG
  | OUTSCHED_OWN
  | OUTSCHED_STAT
  | OUTSCHED_CTL
  | OUTSCHED_POOL
  | CHG_DESC
  | CHG_TRIG
  | CHG_CTL
  | CHG_NOTE
  | CHG_STAT
  | CHG_CTIME
  | TUFT_WEIROCC
  | TUFT_WEIRREL
  | CTXTAB_SCHED
  | CTXTAB_PAIR
  | CTXTAB_DLSTAT
  | SCHED_CTX
  | SCHED_STAT
  | CTXTAB_PTROOT
  | TUFT_TLBSTAT
  | BANK_OWN
  | BANK_PWR
  | BANK_CFG
  | BANK_STAT
  | BANK_ERR
  | BANK_DIE
  | FLUME_STAT
  | FLUME_CUR
  | FLUME_PROG
  | FLUME_POS
  | FLUME_CTL
  | FLUME_TLB
  | MEMCTL_STAT
  | MEMCTL_ECC
  | MEMCTL_CEADDR
  | MEMCTL_UEADDR
  | MEMCTL_SCRUB
  | MEMCTL_INJ
  | DREDGE_CTL
  | DREDGE_RANGE
  | DREDGE_PAUSE
  | DREDGE_STAT
  | DREDGE_REPAIR
  | DREDGE_NOTE
  | DREDGE_FAILS
  | DREDGE_FAIL_WHERE
  | DREDGE_FAIL_BITS
  | RUNNEL_CFG
  | RUNNEL_PROD
  | RUNNEL_CONS
  | RUNNEL_PUSH
  | RUNNEL_WMARK
  | RUNNEL_OCC
  | RUNNEL_STAT
  | RUNNEL_SEQ
  | RUNNEL_ENG
  | CULV_STAT
  | CULV_ERR
  | CULV_TXFLITS
  | CULV_RXFLITS
  | CULV_CTL
  | CULV_LOST
  | SLUICE_CLAIM
  | SLUICE_HOLDER
  | SLUICE_RELEASE
  | SLUICE_STAT
  | SLUICE_POOL
  | CTXTAB_PARK
  | UST_OUT
  | UST_SLUICE
  | UST_RUN
  | UST_FLUME
  | UST_UNIT
  | UST_STAT
  | AXIS_CFG
  | AXIS_CNT
  | AXIS_PRESET
  | AXIS_IDXCAP
  | AXIS_IDXTIME
  | AXIS_CMP
  | AXIS_EVT
  | AXIS_STAT
  | AXIS_SCCAL
  | AXIS_SCAMP
  | AXIS_SSI
  | AXIS_SSIVAL
  | AXIS_DAC
  | ANA_IN_CFG
  | ANA_IN_VAL
  | ANA_RES_CFG
  | ANA_RES_VAL
  | MOTOR_CFG
  | MOTOR_PER
  | MOTOR_CMP
  | MOTOR_SHADOW
  | MOTOR_CTL
  | MOTOR_ADC
  | MOTOR_IVAL
  | MOTOR_STAT
  | GPIO_CFG
  | GPIO_IN
  | GPIO_OUT
  | GPIO_GATEMAP
  | GPIO_STAT
  | TIMER_CFG
  | TIMER_PER
  | TIMER_STEP
  | TIMER_POS
  | TIMER_STAT
  | TAPE_CFG
  | TAPE_CTL
  | TAPE_STAT
  | TAPE_DEC
  | TAPE_ENC
  | UST_BIND
  | ETH_CFG
  | ETH_MAC
  | ETH_HASH
  | ETH_LAT
  | ETH_STAT
  | ETH_CNT
  | ETH_TXTS
  | ETH_TXTSTIME
  | ETH_GCLCTL
  | ETH_GCLBASE
  | ETH_GCLCHG
  | ETH_GCLOPER
  | ETH_GCL
  | TIME_NOW
  | TIME_RATE
  | TIME_STEP
  | TIME_STAT
  | ETH_MDIO
  | CAN_BT
  | CAN_CFG
  | CAN_STAT
  | CAN_FLT
  | UART_CFG
  | UART_MSG
  | UART_STAT
  | PCIE_LINK
  | PCIE_DOORBELL
  | PCIE_MSIX
  | PCIE_WIN
  | PCIE_CH_HTD
  | PCIE_CH_HTDCTL
  | PCIE_CH_DTH
  | PCIE_CH_DTHCTL
  | USB_CFG
  | USB_STAT
  | STOR_CFG
  | SVC_CFG
  | SVC_STAT
  | PMB_RAIL
  | PMB_CMD
  | PMB_ALERT
  | SURVEY_CTL
  | SURVEY_STAT
  | SURVEY_NOTE
  | SURVEY_WVDC
  | SURVEY_WATCH
  | SURVEY_MAINSVAL
  | SURVEY_PLAN
  | SURVEY_RAIL
  | SURVEY_TEMP
  | SAFE_ID
  | SAFE_STATE
  | SAFE_PSET
  | SAFE_MACHID
  | SAFE_OUT
  | SAFE_OUTERR
  | SAFE_IN
  | SAFE_SUPPLY
  | SAFE_LINK
  | SAFE_CH_FUNC
  | SAFE_CH_POS
  | SAFE_CH_SPEED
  | ERR_STATUS
  | ERR_COUNT
  | FAULT_SUMMARY
  | FAULT_ALIVE
  | FAULT_RAISE
  | FAULT_INJECT
  | FAULT_LOGCTL
  | FAULT_DIESTAT
  | FAULT_FIRST
  | FAULT_LOG
  | FAULT_MAP
  | FAULT_CLASS_CFG
  | FAULT_CLASS_WIN
  | FAULT_CLASS_ACK
  | FAULT_CLASS_STAT
  | MODE_CUR
  | MODE_REQ
  | MODE_STAT
  | MODE_CTL
  | MODE_RSTCAUSE
  | MODE_DIERST
  | MODE_TUFTRST
  | MODE_CTXRST
  | MODE_STBY
  | MODE_DIE
  | PWR_REQ
  | PWR_STAT
  | PWR_CFG
  | PWR_THERM
  | SEC_STAT
  | SEC_BOOT
  | SEC_MEAS
  | SEC_GMEAS
  | SEC_MBOX
  | SEC_MBCTL
  | SEC_VFY
  | SEC_VFYLEN
  | SEC_VFYKEY
  | OTP_WORD
  | OTP_PROG
  | OTP_PROGDATA
  | TUFT_LCREC
  | SURVEY_RECORD
  deriving DecidableEq, Repr

/-- The access codes of R13. -/
inductive Access
  | rw | ro | wo | w1c | w1s | rc | sro
  deriving DecidableEq, Repr

/-- Which dies hold a block: the field die, every compute die, every memory die, or (for the field-die copy of a block
that compute dies also hold) the field die again. -/
inductive DieClass
  | field | compute | memory
  deriving DecidableEq, Repr

/-- One field of a register: low bit, width, access code, Kept-by bits (P 1, W 2, D 4, T 8, C 16), and the reset value of
the instance with indices i and j. -/
structure RField where
  lo : Nat
  w : Nat
  acc : Access
  kept : Nat
  rst : Nat → Nat → Nat

/-- One register array: its dies, block offset plus register offset, the strides and counts of its two indices (count 1
for an index it does not have), and its fields. -/
structure RegRow where
  name : RegName
  dies : DieClass
  base : Nat
  s1 : Nat
  n1 : Nat
  s2 : Nat
  n2 : Nat
  fields : List RField

/-- The registers of block MODE (R5, R542). -/
def rowsMode : List RegRow :=
  [
    ⟨.MODE_IDENT, .field, 0x13000000, 8, 1, 8, 1,
      [⟨24, 8, .ro, 31, fun _ _ => 250⟩,
       ⟨16, 8, .ro, 31, fun _ _ => 0xFF⟩,
       ⟨8, 8, .ro, 31, fun _ _ => 0x08⟩,
       ⟨4, 4, .ro, 31, fun _ _ => 1⟩]⟩
  , ⟨.MODE_CUR, .field, 0x13000008, 8, 1, 8, 1,
      [⟨0, 4, .ro, 28, fun _ _ => 0⟩,
       ⟨4, 4, .ro, 28, fun _ _ => 0⟩,
       ⟨8, 4, .ro, 28, fun _ _ => 0⟩,
       ⟨12, 1, .ro, 28, fun _ _ => 0⟩]⟩
  , ⟨.MODE_REQ, .field, 0x13000010, 8, 1, 8, 1,
      [⟨0, 4, .wo, 0, fun _ _ => 0⟩]⟩
  , ⟨.MODE_STAT, .field, 0x13000018, 8, 1, 8, 1,
      [⟨0, 1, .w1c, 28, fun _ _ => 0⟩,
       ⟨1, 3, .ro, 28, fun _ _ => 0⟩,
       ⟨4, 4, .ro, 28, fun _ _ => 0⟩,
       ⟨8, 1, .ro, 28, fun _ _ => 0⟩]⟩
  , ⟨.MODE_CTL, .field, 0x13000020, 8, 1, 8, 1,
      [⟨0, 1, .wo, 0, fun _ _ => 0⟩]⟩
  , ⟨.MODE_RSTCAUSE, .field, 0x13000028, 8, 1, 8, 1,
      [⟨0, 4, .ro, 31, fun _ _ => 0⟩,
       ⟨4, 5, .ro, 31, fun _ _ => 0⟩,
       ⟨16, 16, .ro, 31, fun _ _ => 0⟩,
       ⟨32, 16, .ro, 31, fun _ _ => 0⟩]⟩
  , ⟨.MODE_DIERST, .field, 0x13000030, 8, 1, 8, 1,
      [⟨0, 3, .wo, 0, fun _ _ => 0⟩,
       ⟨3, 1, .wo, 0, fun _ _ => 0⟩,
       ⟨4, 1, .wo, 0, fun _ _ => 0⟩]⟩
  , ⟨.MODE_TUFTRST, .field, 0x13000038, 8, 1, 8, 1,
      [⟨0, 3, .wo, 0, fun _ _ => 0⟩,
       ⟨3, 3, .wo, 0, fun _ _ => 0⟩,
       ⟨6, 1, .wo, 0, fun _ _ => 0⟩]⟩
  , ⟨.MODE_CTXRST, .field, 0x13000040, 8, 1, 8, 1,
      [⟨0, 8, .wo, 0, fun _ _ => 0⟩,
       ⟨8, 1, .wo, 0, fun _ _ => 0⟩,
       ⟨9, 1, .ro, 28, fun _ _ => 0⟩]⟩
  , ⟨.MODE_STBY, .field, 0x13000048, 8, 1, 8, 1,
      [⟨1, 5, .rw, 30, fun _ _ => 31⟩,
       ⟨6, 1, .rw, 30, fun _ _ => 1⟩,
       ⟨7, 1, .rw, 30, fun _ _ => 1⟩,
       ⟨8, 2, .ro, 30, fun _ _ => 0⟩]⟩
  , ⟨.MODE_DIE, .field, 0x13000100, 8, 8, 8, 1,
      [⟨0, 3, .ro, 30, fun _ _ => 1⟩,
       ⟨3, 2, .wo, 0, fun _ _ => 0⟩,
       ⟨5, 1, .ro, 30, fun _ _ => 0⟩,
       ⟨16, 16, .rc, 30, fun _ _ => 0⟩,
       ⟨32, 16, .rc, 30, fun _ _ => 0⟩]⟩
  ]

/-- The registers of block CTXTAB (R189, R190, R249, R250, R251, R288, R370, R49, R79, R80, R81). -/
def rowsCtxtab : List RegRow :=
  [
    ⟨.CTXTAB_PLACE, .field, 0x1e100000, 8, 0x10000, 8, 1,
      [⟨0, 1, .rw, 28, fun _ _ => 0⟩,
       ⟨1, 3, .rw, 28, fun _ _ => 0⟩,
       ⟨4, 3, .rw, 28, fun _ _ => 0⟩,
       ⟨7, 3, .rw, 28, fun _ _ => 0⟩,
       ⟨10, 1, .rw, 28, fun _ _ => 0⟩,
       ⟨11, 3, .rw, 28, fun _ _ => 0⟩,
       ⟨14, 3, .rw, 28, fun _ _ => 0⟩,
       ⟨17, 3, .rw, 28, fun _ _ => 0⟩]⟩
  , ⟨.CTXTAB_STATE, .field, 0x1e000000, 0x100, 0x100, 8, 1,
      [⟨0, 2, .rw, 12, fun _ _ => 0⟩,
       ⟨2, 1, .w1c, 12, fun _ _ => 0⟩,
       ⟨3, 1, .ro, 12, fun _ _ => 0⟩,
       ⟨4, 1, .ro, 12, fun _ _ => 0⟩,
       ⟨8, 4, .ro, 12, fun _ _ => 0⟩]⟩
  , ⟨.CTXTAB_HANDLER, .field, 0x1e000010, 0x100, 0x100, 8, 1,
      [⟨0, 20, .rw, 28, fun _ _ => 0⟩,
       ⟨20, 4, .rw, 28, fun _ _ => 0⟩,
       ⟨24, 1, .rw, 28, fun _ _ => 0⟩]⟩
  , ⟨.CTXTAB_SOAK, .field, 0x1e000020, 0x100, 0x100, 8, 1,
      [⟨0, 1, .rw, 28, fun _ _ => 0⟩,
       ⟨1, 5, .rw, 28, fun _ _ => 0⟩,
       ⟨12, 28, .rw, 28, fun _ _ => 0⟩]⟩
  , ⟨.CTXTAB_SOAKOCC, .field, 0x1e000028, 0x100, 0x100, 8, 1,
      [⟨0, 23, .ro, 12, fun _ _ => 0⟩,
       ⟨24, 23, .rc, 12, fun _ _ => 0⟩,
       ⟨48, 15, .ro, 12, fun _ _ => 0⟩]⟩
  , ⟨.CTXTAB_PLACESTAT, .field, 0x1e200000, 8, 1, 8, 1,
      [⟨0, 1, .ro, 28, fun _ _ => 0⟩,
       ⟨1, 1, .w1c, 28, fun _ _ => 0⟩,
       ⟨2, 1, .w1c, 28, fun _ _ => 0⟩,
       ⟨16, 16, .ro, 28, fun _ _ => 0⟩]⟩
  , ⟨.CTXTAB_FPCTL, .field, 0x1e000038, 0x100, 0x100, 8, 1,
      [⟨0, 3, .rw, 28, fun _ _ => 0⟩,
       ⟨3, 1, .rw, 28, fun _ _ => 0⟩,
       ⟨4, 1, .rw, 28, fun _ _ => 0⟩,
       ⟨63, 1, .ro, 28, fun _ _ => 0⟩]⟩
  , ⟨.CTXTAB_FPSTICKY, .field, 0x1e000048, 0x100, 0x100, 8, 1,
      [⟨0, 1, .w1c, 12, fun _ _ => 0⟩,
       ⟨1, 1, .w1c, 12, fun _ _ => 0⟩,
       ⟨2, 1, .w1c, 12, fun _ _ => 0⟩,
       ⟨3, 1, .w1c, 12, fun _ _ => 0⟩,
       ⟨4, 1, .w1c, 12, fun _ _ => 0⟩,
       ⟨5, 1, .w1c, 12, fun _ _ => 0⟩,
       ⟨6, 1, .w1c, 12, fun _ _ => 0⟩,
       ⟨7, 1, .w1c, 12, fun _ _ => 0⟩,
       ⟨16, 8, .ro, 12, fun _ _ => 0⟩,
       ⟨24, 8, .ro, 12, fun _ _ => 0⟩,
       ⟨32, 2, .ro, 12, fun _ _ => 0⟩,
       ⟨34, 2, .ro, 12, fun _ _ => 0⟩,
       ⟨48, 16, .ro, 12, fun _ _ => 0⟩]⟩
  , ⟨.CTXTAB_SCHED, .field, 0x1e000008, 0x100, 0x100, 8, 1,
      [⟨0, 4, .rw, 28, fun _ _ => 0⟩,
       ⟨4, 4, .ro, 12, fun _ _ => 0⟩,
       ⟨8, 4, .ro, 12, fun _ _ => 0⟩,
       ⟨12, 1, .ro, 12, fun _ _ => 0⟩,
       ⟨16, 8, .rw, 28, fun _ _ => 20⟩,
       ⟨32, 20, .rw, 28, fun _ _ => 100000⟩,
       ⟨52, 2, .rw, 28, fun _ _ => 0⟩,
       ⟨54, 1, .rw, 28, fun _ _ => 0⟩]⟩
  , ⟨.CTXTAB_PAIR, .field, 0x1e000040, 0x100, 0x100, 8, 1,
      [⟨0, 10, .rw, 28, fun _ _ => 100⟩,
       ⟨10, 1, .rw, 28, fun _ _ => 0⟩,
       ⟨11, 1, .ro, 12, fun _ _ => 0⟩,
       ⟨12, 28, .rw, 28, fun _ _ => 0⟩,
       ⟨40, 8, .rc, 12, fun _ _ => 0⟩,
       ⟨48, 8, .rc, 12, fun _ _ => 0⟩,
       ⟨56, 8, .rc, 12, fun _ _ => 0⟩]⟩
  , ⟨.CTXTAB_DLSTAT, .field, 0x1e000050, 0x100, 0x100, 8, 1,
      [⟨0, 1, .w1c, 12, fun _ _ => 0⟩,
       ⟨1, 1, .ro, 12, fun _ _ => 0⟩,
       ⟨2, 1, .ro, 12, fun _ _ => 0⟩,
       ⟨3, 1, .ro, 12, fun _ _ => 0⟩,
       ⟨4, 1, .ro, 12, fun _ _ => 0⟩,
       ⟨5, 1, .ro, 12, fun _ _ => 0⟩,
       ⟨8, 8, .rc, 12, fun _ _ => 0⟩,
       ⟨16, 24, .ro, 12, fun _ _ => 0⟩,
       ⟨40, 20, .ro, 12, fun _ _ => 0⟩]⟩
  , ⟨.CTXTAB_PTROOT, .field, 0x1e000018, 0x100, 0x100, 8, 1,
      [⟨0, 1, .rw, 28, fun _ _ => 0⟩,
       ⟨12, 28, .rw, 28, fun _ _ => 0⟩]⟩
  , ⟨.CTXTAB_PARK, .field, 0x1e000030, 0x100, 0x100, 8, 1,
      [⟨0, 1, .rw, 28, fun _ _ => 0⟩,
       ⟨1, 4, .rw, 28, fun _ _ => 7⟩,
       ⟨5, 1, .w1c, 12, fun _ _ => 0⟩,
       ⟨6, 6, .ro, 12, fun _ _ => 0⟩,
       ⟨12, 28, .rw, 28, fun _ _ => 0⟩,
       ⟨40, 16, .ro, 12, fun _ _ => 0⟩]⟩
  ]

/-- The registers of block TUFT (R122, R123, R191, R234, R289, R82). -/
def rowsTuft : List RegRow :=
  [
    ⟨.TUFT_MSOCC, .compute, 0, 0x100000, 8, 8, 1,
      [⟨0, 15, .ro, 16, fun _ _ => 0⟩,
       ⟨16, 15, .rc, 16, fun _ _ => 0⟩,
       ⟨32, 6, .ro, 16, fun _ _ => 0⟩,
       ⟨40, 5, .ro, 16, fun _ _ => 0⟩]⟩
  , ⟨.TUFT_MSSPILL, .compute, 8, 0x100000, 8, 8, 1,
      [⟨0, 32, .rc, 16, fun _ _ => 0⟩,
       ⟨32, 32, .rc, 16, fun _ _ => 0⟩]⟩
  , ⟨.TUFT_MSPROBE, .compute, 0x10, 0x100000, 8, 8, 1,
      [⟨0, 32, .rc, 16, fun _ _ => 0⟩,
       ⟨32, 32, .rc, 16, fun _ _ => 0⟩]⟩
  , ⟨.TUFT_MSERR, .compute, 0x18, 0x100000, 8, 8, 1,
      [⟨0, 16, .rc, 16, fun _ _ => 0⟩,
       ⟨16, 16, .rc, 16, fun _ _ => 0⟩,
       ⟨32, 12, .ro, 16, fun _ _ => 0⟩]⟩
  , ⟨.TUFT_MSCTL, .compute, 0x20, 0x100000, 8, 8, 1,
      [⟨0, 1, .wo, 0, fun _ _ => 0⟩,
       ⟨1, 1, .wo, 0, fun _ _ => 0⟩]⟩
  , ⟨.TUFT_LCOCC, .compute, 0x28, 0x100000, 8, 8, 1,
      [⟨0, 12, .ro, 16, fun _ _ => 0⟩,
       ⟨16, 12, .rc, 16, fun _ _ => 0⟩,
       ⟨32, 12, .ro, 16, fun _ _ => 0⟩,
       ⟨48, 16, .rc, 16, fun _ _ => 0⟩]⟩
  , ⟨.TUFT_DIVSTAT, .compute, 0x30, 0x100000, 8, 8, 1,
      [⟨0, 16, .rc, 16, fun _ _ => 0⟩,
       ⟨16, 16, .rc, 16, fun _ _ => 0⟩,
       ⟨32, 4, .ro, 16, fun _ _ => 0⟩]⟩
  , ⟨.TUFT_WEIROCC, .compute, 0x38, 0x100000, 8, 8, 1,
      [⟨0, 13, .ro, 16, fun _ _ => 0⟩,
       ⟨16, 13, .rc, 16, fun _ _ => 0⟩,
       ⟨32, 16, .rc, 16, fun _ _ => 0⟩,
       ⟨48, 16, .rc, 16, fun _ _ => 0⟩]⟩
  , ⟨.TUFT_WEIRREL, .compute, 0x40, 0x100000, 8, 8, 1,
      [⟨0, 32, .rc, 16, fun _ _ => 0⟩,
       ⟨32, 16, .rc, 16, fun _ _ => 0⟩,
       ⟨48, 16, .rc, 16, fun _ _ => 0⟩]⟩
  , ⟨.TUFT_TLBSTAT, .compute, 0x48, 0x100000, 8, 8, 1,
      [⟨0, 32, .rc, 16, fun _ _ => 0⟩,
       ⟨32, 16, .rc, 16, fun _ _ => 0⟩,
       ⟨48, 9, .ro, 16, fun _ _ => 0⟩]⟩
  , ⟨.TUFT_LCREC, .compute, 0x10000, 0x100000, 8, 8, 0x4000,
      [⟨0, 64, .ro, 16, fun _ _ => 0⟩]⟩
  ]

/-- The registers of block ROUTER (R83). -/
def rowsRouter : List RegRow :=
  [
    ⟨.ROUTER_STATS, .compute, 0x1000000, 8, 1, 8, 1,
      [⟨0, 32, .rc, 24, fun _ _ => 0⟩,
       ⟨32, 16, .rc, 24, fun _ _ => 0⟩,
       ⟨48, 16, .rc, 24, fun _ _ => 0⟩]⟩
  , ⟨.ROUTER_TOKERR, .compute, 0x1000008, 8, 1, 8, 1,
      [⟨0, 16, .rc, 24, fun _ _ => 0⟩,
       ⟨16, 16, .rc, 24, fun _ _ => 0⟩]⟩
  , ⟨.ROUTER_THRMAP, .compute, 0x1000040, 8, 4, 8, 1,
      [⟨0, 64, .ro, 8, fun _ _ => 0⟩]⟩
  , ⟨.ROUTER_PLACE, .compute, 0x1100000, 8, 0x10000, 8, 1,
      [⟨0, 64, .ro, 24, fun _ _ => 0⟩]⟩
  ]

/-- The registers of block FROUTER (R579). -/
def rowsFrouter : List RegRow :=
  [
    ⟨.FROUTER_STATS, .field, 0x1f000000, 8, 1, 8, 1,
      [⟨0, 32, .rc, 28, fun _ _ => 0⟩,
       ⟨32, 16, .rc, 28, fun _ _ => 0⟩,
       ⟨48, 16, .rc, 28, fun _ _ => 0⟩]⟩
  , ⟨.FROUTER_TOKERR, .field, 0x1f000008, 8, 1, 8, 1,
      [⟨0, 16, .rc, 28, fun _ _ => 0⟩,
       ⟨16, 16, .rc, 28, fun _ _ => 0⟩]⟩
  ]

/-- The registers of block EVT (R84). -/
def rowsEvt : List RegRow :=
  [
    ⟨.EVT_ROUTE, .field, 0x6000000, 0x20, 0x400, 8, 1,
      [⟨0, 8, .rw, 28, fun _ _ => 0⟩,
       ⟨8, 20, .rw, 28, fun _ _ => 0⟩,
       ⟨28, 2, .rw, 28, fun _ _ => 0⟩,
       ⟨30, 1, .rw, 28, fun _ _ => 0⟩,
       ⟨32, 24, .rw, 28, fun _ _ => 0⟩]⟩
  , ⟨.EVT_DIV, .field, 0x6000008, 0x20, 0x400, 8, 1,
      [⟨0, 16, .rw, 28, fun _ _ => 0⟩,
       ⟨16, 16, .ro, 28, fun _ _ => 0⟩]⟩
  , ⟨.EVT_STAT, .field, 0x6000010, 0x20, 0x400, 8, 1,
      [⟨0, 32, .rc, 28, fun _ _ => 0⟩,
       ⟨32, 16, .rc, 28, fun _ _ => 0⟩,
       ⟨48, 16, .rc, 28, fun _ _ => 0⟩]⟩
  ]

/-- The registers of block REFBUS (R231). -/
def rowsRefbus : List RegRow :=
  [
    ⟨.REFBUS_BUS, .field, 0, 8, 1, 8, 1,
      [⟨0, 16, .ro, 30, fun _ _ => 0⟩]⟩
  ]

/-- The registers of block REF (R231). -/
def rowsRef : List RegRow :=
  [
    ⟨.REF_SRC, .field, 0, 0x100, 0x31, 8, 1,
      [⟨0, 4, .rw, 30, fun _ _ => 0⟩,
       ⟨4, 6, .rw, 30, fun _ _ => 0⟩,
       ⟨10, 1, .rw, 30, fun _ _ => 0⟩]⟩
  , ⟨.REF_SCALE, .field, 8, 0x100, 0x31, 8, 1,
      [⟨0, 32, .rw, 30, fun _ _ => 65536⟩,
       ⟨32, 32, .rw, 30, fun _ _ => 1⟩]⟩
  , ⟨.REF_WIN, .field, 0x10, 0x100, 0x31, 8, 1,
      [⟨0, 6, .rw, 30, fun _ _ => 16⟩,
       ⟨6, 2, .rw, 30, fun _ _ => 0⟩,
       ⟨8, 2, .rw, 30, fun _ _ => 0⟩,
       ⟨16, 8, .rw, 30, fun _ _ => 0⟩]⟩
  , ⟨.REF_WEIR, .field, 0x18, 0x100, 0x31, 8, 1,
      [⟨0, 32, .rw, 30, fun _ _ => 0⟩,
       ⟨32, 1, .rw, 30, fun _ _ => 0⟩]⟩
  , ⟨.REF_POS, .field, 0x20, 0x100, 0x31, 8, 1,
      [⟨0, 64, .ro, 30, fun _ _ => 0⟩]⟩
  , ⟨.REF_PRESET, .field, 0x28, 0x100, 0x31, 8, 1,
      [⟨0, 64, .wo, 0, fun _ _ => 0⟩]⟩
  , ⟨.REF_VEL, .field, 0x30, 0x100, 0x31, 8, 1,
      [⟨0, 64, .rw, 30, fun _ _ => 0⟩]⟩
  , ⟨.REF_SAMPLE, .field, 0x38, 0x100, 0x31, 8, 1,
      [⟨0, 64, .wo, 0, fun _ _ => 0⟩]⟩
  , ⟨.REF_SAMPLET, .field, 0x40, 0x100, 0x31, 8, 1,
      [⟨0, 64, .wo, 0, fun _ _ => 0⟩]⟩
  , ⟨.REF_XEVT, .field, 0x48, 0x100, 0x31, 8, 1,
      [⟨0, 32, .rw, 30, fun _ _ => 0⟩,
       ⟨32, 32, .rw, 30, fun _ _ => 0⟩]⟩
  , ⟨.REF_GUARD, .field, 0x50, 0x100, 0x31, 8, 1,
      [⟨0, 32, .rw, 30, fun _ _ => 0⟩,
       ⟨32, 32, .ro, 30, fun _ _ => 0⟩]⟩
  , ⟨.REF_STAT, .field, 0x58, 0x100, 0x31, 8, 1,
      [⟨0, 1, .ro, 30, fun _ _ => 1⟩,
       ⟨1, 1, .ro, 30, fun _ _ => 1⟩,
       ⟨2, 1, .w1c, 30, fun _ _ => 0⟩,
       ⟨3, 1, .w1c, 30, fun _ _ => 0⟩,
       ⟨4, 1, .w1c, 30, fun _ _ => 0⟩,
       ⟨16, 16, .rc, 30, fun _ _ => 0⟩,
       ⟨32, 32, .ro, 30, fun _ _ => 0⟩]⟩
  ]

/-- The registers of block OUTSCHED (R232). -/
def rowsOutsched : List RegRow :=
  [
    ⟨.OUTSCHED_CFG, .field, 0x5000000, 0x20, 0x440, 8, 1,
      [⟨0, 1, .rw, 30, fun _ _ => 0⟩,
       ⟨8, 8, .rw, 30, fun _ _ => 64⟩,
       ⟨16, 32, .rw, 30, fun _ _ => 0⟩]⟩
  , ⟨.OUTSCHED_OWN, .field, 0x5000008, 0x20, 0x440, 8, 1,
      [⟨0, 8, .rw, 30, fun _ _ => 0⟩,
       ⟨8, 1, .rw, 30, fun _ _ => 0⟩]⟩
  , ⟨.OUTSCHED_STAT, .field, 0x5000010, 0x20, 0x440, 8, 1,
      [⟨0, 8, .ro, 30, fun _ _ => 0⟩,
       ⟨8, 8, .ro, 30, fun _ _ => 0⟩,
       ⟨16, 16, .rc, 30, fun _ _ => 0⟩,
       ⟨32, 16, .rc, 30, fun _ _ => 0⟩,
       ⟨48, 16, .rc, 30, fun _ _ => 0⟩]⟩
  , ⟨.OUTSCHED_CTL, .field, 0x5000018, 0x20, 0x440, 8, 1,
      [⟨0, 1, .wo, 0, fun _ _ => 0⟩]⟩
  , ⟨.OUTSCHED_POOL, .field, 0x5010000, 8, 1, 8, 1,
      [⟨0, 15, .ro, 30, fun _ _ => 16384⟩,
       ⟨16, 15, .rc, 30, fun _ _ => 16384⟩]⟩
  ]

/-- The registers of block CHG (R233). -/
def rowsChg : List RegRow :=
  [
    ⟨.CHG_DESC, .field, 0x17000000, 0x40, 4, 8, 1,
      [⟨0, 40, .rw, 28, fun _ _ => 0⟩,
       ⟨40, 11, .rw, 28, fun _ _ => 0⟩]⟩
  , ⟨.CHG_TRIG, .field, 0x17000008, 0x40, 4, 8, 1,
      [⟨0, 6, .rw, 28, fun _ _ => 1⟩,
       ⟨32, 32, .rw, 28, fun _ _ => 0⟩]⟩
  , ⟨.CHG_CTL, .field, 0x17000010, 0x40, 4, 8, 1,
      [⟨0, 1, .w1s, 28, fun _ _ => 0⟩,
       ⟨1, 1, .w1s, 28, fun _ _ => 0⟩,
       ⟨2, 1, .rw, 28, fun _ _ => 0⟩,
       ⟨32, 32, .rw, 28, fun _ _ => 0⟩]⟩
  , ⟨.CHG_NOTE, .field, 0x17000018, 0x40, 4, 8, 1,
      [⟨0, 8, .rw, 28, fun _ _ => 0⟩,
       ⟨8, 20, .rw, 28, fun _ _ => 0⟩,
       ⟨28, 2, .rw, 28, fun _ _ => 0⟩,
       ⟨30, 1, .rw, 28, fun _ _ => 0⟩]⟩
  , ⟨.CHG_STAT, .field, 0x17000020, 0x40, 4, 8, 1,
      [⟨0, 3, .ro, 28, fun _ _ => 0⟩,
       ⟨3, 1, .ro, 28, fun _ _ => 0⟩,
       ⟨4, 4, .ro, 28, fun _ _ => 0⟩,
       ⟨8, 11, .ro, 28, fun _ _ => 0⟩,
       ⟨32, 32, .rc, 28, fun _ _ => 0⟩]⟩
  , ⟨.CHG_CTIME, .field, 0x17000028, 0x40, 4, 8, 1,
      [⟨0, 64, .ro, 28, fun _ _ => 0⟩]⟩
  ]

/-- The registers of block SCHED (R252). -/
def rowsSched : List RegRow :=
  [
    ⟨.SCHED_CTX, .compute, 0x5000000, 8, 0x100, 8, 1,
      [⟨0, 4, .ro, 24, fun _ _ => 0⟩,
       ⟨4, 1, .ro, 24, fun _ _ => 0⟩,
       ⟨5, 1, .ro, 24, fun _ _ => 0⟩,
       ⟨6, 1, .ro, 24, fun _ _ => 0⟩]⟩
  , ⟨.SCHED_STAT, .compute, 0x5000800, 8, 8, 8, 1,
      [⟨0, 32, .rc, 16, fun _ _ => 0⟩,
       ⟨32, 16, .rc, 16, fun _ _ => 0⟩,
       ⟨48, 16, .ro, 16, fun _ _ => 0⟩]⟩
  ]

/-- The registers of block BANK (R290). -/
def rowsBank : List RegRow :=
  [
    ⟨.BANK_OWN, .compute, 0x4000000, 0x40, 0x40, 8, 1,
      [⟨0, 3, .rw, 24, fun _ _ => 0⟩,
       ⟨8, 8, .rw, 24, fun _ _ => 0⟩,
       ⟨16, 1, .rw, 24, fun _ _ => 0⟩,
       ⟨63, 1, .ro, 24, fun _ _ => 1⟩]⟩
  , ⟨.BANK_PWR, .compute, 0x4000008, 0x40, 0x40, 8, 1,
      [⟨0, 2, .rw, 24, fun _ _ => 0⟩,
       ⟨2, 2, .ro, 24, fun _ _ => 0⟩,
       ⟨4, 1, .rw, 24, fun _ _ => 0⟩,
       ⟨5, 1, .w1c, 24, fun _ _ => 0⟩]⟩
  , ⟨.BANK_CFG, .compute, 0x4000010, 0x40, 0x40, 8, 1,
      [⟨0, 1, .rw, 24, fun _ _ => 0⟩]⟩
  , ⟨.BANK_STAT, .compute, 0x4000018, 0x40, 0x40, 8, 1,
      [⟨0, 16, .rc, 24, fun _ _ => 0⟩,
       ⟨16, 16, .rc, 24, fun _ _ => 0⟩,
       ⟨32, 16, .rc, 24, fun _ _ => 0⟩,
       ⟨48, 7, .ro, 30, fun i _ => i⟩]⟩
  , ⟨.BANK_ERR, .compute, 0x4000020, 0x40, 0x40, 8, 1,
      [⟨0, 16, .rc, 24, fun _ _ => 0⟩,
       ⟨16, 16, .rc, 24, fun _ _ => 0⟩,
       ⟨32, 17, .ro, 24, fun _ _ => 0⟩]⟩
  , ⟨.BANK_DIE, .compute, 0x4001000, 8, 1, 8, 1,
      [⟨0, 1, .ro, 24, fun _ _ => 0⟩,
       ⟨16, 16, .rc, 24, fun _ _ => 0⟩]⟩
  ]

/-- The registers of block FLUME (R291). -/
def rowsFlume : List RegRow :=
  [
    ⟨.FLUME_STAT, .compute, 0x3000000, 0x1000, 0x20, 8, 1,
      [⟨0, 2, .ro, 24, fun _ _ => 0⟩,
       ⟨8, 8, .ro, 24, fun _ _ => 0⟩,
       ⟨16, 1, .ro, 24, fun _ _ => 0⟩,
       ⟨32, 16, .ro, 24, fun _ _ => 0⟩]⟩
  , ⟨.FLUME_STAT, .field, 0x19000000, 0x1000, 0x10, 8, 1,
      [⟨0, 2, .ro, 28, fun _ _ => 0⟩,
       ⟨8, 8, .ro, 28, fun _ _ => 0⟩,
       ⟨16, 1, .ro, 28, fun _ _ => 0⟩,
       ⟨32, 16, .ro, 28, fun _ _ => 0⟩]⟩
  , ⟨.FLUME_CUR, .compute, 0x3000008, 0x1000, 0x20, 8, 1,
      [⟨0, 48, .ro, 24, fun _ _ => 0⟩,
       ⟨48, 1, .ro, 24, fun _ _ => 0⟩]⟩
  , ⟨.FLUME_CUR, .field, 0x19000008, 0x1000, 0x10, 8, 1,
      [⟨0, 48, .ro, 28, fun _ _ => 0⟩,
       ⟨48, 1, .ro, 28, fun _ _ => 0⟩]⟩
  , ⟨.FLUME_PROG, .compute, 0x3000010, 0x1000, 0x20, 8, 1,
      [⟨0, 40, .ro, 24, fun _ _ => 0⟩,
       ⟨40, 16, .ro, 24, fun _ _ => 0⟩]⟩
  , ⟨.FLUME_PROG, .field, 0x19000010, 0x1000, 0x10, 8, 1,
      [⟨0, 40, .ro, 28, fun _ _ => 0⟩,
       ⟨40, 16, .ro, 28, fun _ _ => 0⟩]⟩
  , ⟨.FLUME_POS, .compute, 0x3000018, 0x1000, 0x20, 8, 1,
      [⟨0, 24, .ro, 24, fun _ _ => 0⟩,
       ⟨24, 40, .ro, 24, fun _ _ => 0⟩]⟩
  , ⟨.FLUME_POS, .field, 0x19000018, 0x1000, 0x10, 8, 1,
      [⟨0, 24, .ro, 28, fun _ _ => 0⟩,
       ⟨24, 40, .ro, 28, fun _ _ => 0⟩]⟩
  , ⟨.FLUME_CTL, .compute, 0x3000020, 0x1000, 0x20, 8, 1,
      [⟨0, 1, .wo, 0, fun _ _ => 0⟩]⟩
  , ⟨.FLUME_CTL, .field, 0x19000020, 0x1000, 0x10, 8, 1,
      [⟨0, 1, .wo, 0, fun _ _ => 0⟩]⟩
  , ⟨.FLUME_TLB, .compute, 0x3040000, 8, 1, 8, 1,
      [⟨0, 32, .rc, 24, fun _ _ => 0⟩,
       ⟨32, 16, .rc, 24, fun _ _ => 0⟩,
       ⟨48, 8, .ro, 24, fun _ _ => 0⟩]⟩
  , ⟨.FLUME_TLB, .field, 0x19040000, 8, 1, 8, 1,
      [⟨0, 32, .rc, 28, fun _ _ => 0⟩,
       ⟨32, 16, .rc, 28, fun _ _ => 0⟩,
       ⟨48, 8, .ro, 28, fun _ _ => 0⟩]⟩
  ]

/-- The registers of block MEMCTL (R292). -/
def rowsMemctl : List RegRow :=
  [
    ⟨.MEMCTL_STAT, .memory, 0, 8, 1, 8, 1,
      [⟨0, 1, .ro, 24, fun _ _ => 0⟩,
       ⟨1, 2, .ro, 24, fun _ _ => 0⟩]⟩
  , ⟨.MEMCTL_ECC, .memory, 8, 8, 1, 8, 1,
      [⟨0, 32, .rc, 24, fun _ _ => 0⟩,
       ⟨32, 16, .rc, 24, fun _ _ => 0⟩]⟩
  , ⟨.MEMCTL_CEADDR, .memory, 0x10, 8, 1, 8, 1,
      [⟨3, 37, .ro, 24, fun _ _ => 0⟩,
       ⟨63, 1, .w1c, 24, fun _ _ => 0⟩]⟩
  , ⟨.MEMCTL_UEADDR, .memory, 0x18, 8, 1, 8, 1,
      [⟨3, 37, .ro, 24, fun _ _ => 0⟩,
       ⟨40, 2, .ro, 24, fun _ _ => 0⟩,
       ⟨63, 1, .w1c, 24, fun _ _ => 0⟩]⟩
  , ⟨.MEMCTL_SCRUB, .memory, 0x20, 8, 1, 8, 1,
      [⟨0, 1, .rw, 24, fun _ _ => 1⟩,
       ⟨8, 8, .rw, 24, fun _ _ => 24⟩,
       ⟨16, 16, .rc, 24, fun _ _ => 0⟩]⟩
  , ⟨.MEMCTL_INJ, .memory, 0x28, 8, 1, 8, 1,
      [⟨0, 1, .wo, 0, fun _ _ => 0⟩,
       ⟨1, 1, .wo, 0, fun _ _ => 0⟩]⟩
  ]

/-- The registers of block DREDGE (R309). -/
def rowsDredge : List RegRow :=
  [
    ⟨.DREDGE_CTL, .compute, 0x9000000, 8, 1, 8, 1,
      [⟨0, 1, .w1s, 24, fun _ _ => 0⟩,
       ⟨1, 1, .w1s, 24, fun _ _ => 0⟩,
       ⟨2, 2, .rw, 24, fun _ _ => 0⟩,
       ⟨4, 1, .rw, 24, fun _ _ => 0⟩,
       ⟨5, 1, .rw, 24, fun _ _ => 1⟩,
       ⟨6, 1, .rw, 24, fun _ _ => 0⟩,
       ⟨16, 8, .rw, 24, fun _ _ => 0⟩]⟩
  , ⟨.DREDGE_CTL, .field, 0x1b000000, 8, 1, 8, 1,
      [⟨0, 1, .w1s, 28, fun _ _ => 0⟩,
       ⟨1, 1, .w1s, 28, fun _ _ => 0⟩,
       ⟨2, 2, .rw, 28, fun _ _ => 0⟩,
       ⟨4, 1, .rw, 28, fun _ _ => 0⟩,
       ⟨5, 1, .rw, 28, fun _ _ => 1⟩,
       ⟨16, 8, .rw, 28, fun _ _ => 0⟩]⟩
  , ⟨.DREDGE_RANGE, .compute, 0x9000008, 8, 1, 8, 1,
      [⟨0, 28, .rw, 24, fun _ _ => 0⟩,
       ⟨28, 28, .rw, 24, fun _ _ => 0⟩,
       ⟨56, 7, .rw, 24, fun _ _ => 0⟩]⟩
  , ⟨.DREDGE_RANGE, .field, 0x1b000008, 8, 1, 8, 1,
      [⟨0, 28, .rw, 28, fun _ _ => 0⟩,
       ⟨28, 28, .rw, 28, fun _ _ => 0⟩,
       ⟨56, 7, .rw, 28, fun _ _ => 0⟩]⟩
  , ⟨.DREDGE_PAUSE, .compute, 0x9000010, 8, 1, 8, 1,
      [⟨0, 16, .rw, 24, fun _ _ => 100⟩]⟩
  , ⟨.DREDGE_PAUSE, .field, 0x1b000010, 8, 1, 8, 1,
      [⟨0, 16, .rw, 28, fun _ _ => 100⟩]⟩
  , ⟨.DREDGE_STAT, .compute, 0x9000018, 8, 1, 8, 1,
      [⟨0, 3, .ro, 24, fun _ _ => 0⟩,
       ⟨3, 1, .ro, 24, fun _ _ => 0⟩,
       ⟨4, 1, .ro, 24, fun _ _ => 0⟩,
       ⟨5, 1, .ro, 24, fun _ _ => 0⟩,
       ⟨6, 4, .ro, 24, fun _ _ => 0⟩,
       ⟨10, 28, .ro, 24, fun _ _ => 0⟩,
       ⟨38, 16, .rc, 24, fun _ _ => 0⟩,
       ⟨54, 8, .rc, 24, fun _ _ => 0⟩]⟩
  , ⟨.DREDGE_STAT, .field, 0x1b000018, 8, 1, 8, 1,
      [⟨0, 3, .ro, 28, fun _ _ => 0⟩,
       ⟨3, 1, .ro, 28, fun _ _ => 0⟩,
       ⟨4, 1, .ro, 28, fun _ _ => 0⟩,
       ⟨5, 1, .ro, 28, fun _ _ => 0⟩,
       ⟨6, 4, .ro, 28, fun _ _ => 0⟩,
       ⟨10, 28, .ro, 28, fun _ _ => 0⟩,
       ⟨38, 16, .rc, 28, fun _ _ => 0⟩,
       ⟨54, 8, .rc, 28, fun _ _ => 0⟩]⟩
  , ⟨.DREDGE_REPAIR, .compute, 0x9000020, 8, 1, 8, 1,
      [⟨0, 7, .ro, 30, fun _ _ => 127⟩,
       ⟨7, 1, .ro, 30, fun _ _ => 0⟩,
       ⟨8, 7, .ro, 30, fun _ _ => 127⟩,
       ⟨15, 1, .ro, 30, fun _ _ => 0⟩]⟩
  , ⟨.DREDGE_REPAIR, .field, 0x1b000020, 8, 1, 8, 1,
      []⟩
  , ⟨.DREDGE_NOTE, .compute, 0x9000028, 8, 1, 8, 1,
      [⟨0, 8, .rw, 24, fun _ _ => 0⟩,
       ⟨8, 20, .rw, 24, fun _ _ => 0⟩,
       ⟨28, 2, .rw, 24, fun _ _ => 0⟩,
       ⟨30, 1, .rw, 24, fun _ _ => 0⟩]⟩
  , ⟨.DREDGE_NOTE, .field, 0x1b000028, 8, 1, 8, 1,
      [⟨0, 8, .rw, 28, fun _ _ => 0⟩,
       ⟨8, 20, .rw, 28, fun _ _ => 0⟩,
       ⟨28, 2, .rw, 28, fun _ _ => 0⟩,
       ⟨30, 1, .rw, 28, fun _ _ => 0⟩]⟩
  , ⟨.DREDGE_FAILS, .compute, 0x9000030, 8, 1, 8, 1,
      [⟨0, 16, .rc, 24, fun _ _ => 0⟩,
       ⟨16, 4, .ro, 24, fun _ _ => 0⟩]⟩
  , ⟨.DREDGE_FAILS, .field, 0x1b000030, 8, 1, 8, 1,
      [⟨0, 16, .rc, 28, fun _ _ => 0⟩,
       ⟨16, 4, .ro, 28, fun _ _ => 0⟩]⟩
  , ⟨.DREDGE_FAIL_WHERE, .compute, 0x9000100, 0x10, 0x10, 8, 1,
      [⟨0, 28, .ro, 24, fun _ _ => 0⟩,
       ⟨28, 6, .ro, 24, fun _ _ => 0⟩,
       ⟨34, 7, .ro, 24, fun _ _ => 0⟩,
       ⟨41, 3, .ro, 24, fun _ _ => 0⟩,
       ⟨44, 3, .ro, 24, fun _ _ => 0⟩,
       ⟨47, 8, .ro, 24, fun _ _ => 0⟩,
       ⟨55, 1, .ro, 24, fun _ _ => 0⟩]⟩
  , ⟨.DREDGE_FAIL_WHERE, .field, 0x1b000100, 0x10, 0x10, 8, 1,
      [⟨0, 28, .ro, 28, fun _ _ => 0⟩,
       ⟨28, 6, .ro, 28, fun _ _ => 0⟩,
       ⟨34, 7, .ro, 28, fun _ _ => 0⟩,
       ⟨41, 3, .ro, 28, fun _ _ => 0⟩,
       ⟨44, 3, .ro, 28, fun _ _ => 0⟩,
       ⟨47, 8, .ro, 28, fun _ _ => 0⟩,
       ⟨55, 1, .ro, 28, fun _ _ => 0⟩]⟩
  , ⟨.DREDGE_FAIL_BITS, .compute, 0x9000108, 0x10, 0x10, 8, 1,
      [⟨0, 64, .ro, 24, fun _ _ => 0⟩]⟩
  , ⟨.DREDGE_FAIL_BITS, .field, 0x1b000108, 0x10, 0x10, 8, 1,
      [⟨0, 64, .ro, 28, fun _ _ => 0⟩]⟩
  ]

/-- The registers of block RUNNEL (R333). -/
def rowsRunnel : List RegRow :=
  [
    ⟨.RUNNEL_CFG, .compute, 0x2000000, 0x40, 0x4000, 8, 1,
      [⟨0, 17, .rw, 24, fun _ _ => 0⟩,
       ⟨17, 18, .rw, 24, fun _ _ => 0⟩,
       ⟨35, 1, .rw, 24, fun _ _ => 0⟩]⟩
  , ⟨.RUNNEL_CFG, .field, 0x18000000, 0x40, 0x1000, 8, 1,
      [⟨0, 17, .rw, 28, fun _ _ => 0⟩,
       ⟨17, 18, .rw, 28, fun _ _ => 0⟩,
       ⟨35, 1, .rw, 28, fun _ _ => 0⟩]⟩
  , ⟨.RUNNEL_PROD, .compute, 0x2000008, 0x40, 0x4000, 8, 1,
      [⟨0, 8, .rw, 24, fun _ _ => 0⟩,
       ⟨8, 1, .rw, 24, fun _ _ => 0⟩]⟩
  , ⟨.RUNNEL_PROD, .field, 0x18000008, 0x40, 0x1000, 8, 1,
      [⟨0, 8, .rw, 28, fun _ _ => 0⟩,
       ⟨8, 1, .rw, 28, fun _ _ => 0⟩]⟩
  , ⟨.RUNNEL_CONS, .compute, 0x2000010, 0x40, 0x4000, 8, 1,
      [⟨0, 8, .rw, 24, fun _ _ => 0⟩,
       ⟨8, 1, .rw, 24, fun _ _ => 0⟩]⟩
  , ⟨.RUNNEL_CONS, .field, 0x18000010, 0x40, 0x1000, 8, 1,
      [⟨0, 8, .rw, 28, fun _ _ => 0⟩,
       ⟨8, 1, .rw, 28, fun _ _ => 0⟩]⟩
  , ⟨.RUNNEL_PUSH, .compute, 0x2000018, 0x40, 0x4000, 8, 1,
      [⟨0, 20, .rw, 24, fun _ _ => 0⟩,
       ⟨20, 2, .rw, 24, fun _ _ => 0⟩,
       ⟨22, 4, .rw, 24, fun _ _ => 0⟩,
       ⟨26, 12, .rw, 24, fun _ _ => 0⟩,
       ⟨38, 13, .rw, 24, fun _ _ => 0⟩]⟩
  , ⟨.RUNNEL_PUSH, .field, 0x18000018, 0x40, 0x1000, 8, 1,
      [⟨0, 20, .rw, 28, fun _ _ => 0⟩,
       ⟨20, 2, .rw, 28, fun _ _ => 0⟩,
       ⟨22, 4, .rw, 28, fun _ _ => 0⟩,
       ⟨26, 12, .rw, 28, fun _ _ => 0⟩,
       ⟨38, 13, .rw, 28, fun _ _ => 0⟩]⟩
  , ⟨.RUNNEL_WMARK, .compute, 0x2000020, 0x40, 0x4000, 8, 1,
      [⟨0, 18, .rw, 24, fun _ _ => 0⟩,
       ⟨18, 18, .rw, 24, fun _ _ => 0⟩,
       ⟨36, 7, .rw, 24, fun _ _ => 0⟩,
       ⟨43, 1, .rw, 24, fun _ _ => 0⟩,
       ⟨44, 1, .rw, 24, fun _ _ => 0⟩]⟩
  , ⟨.RUNNEL_WMARK, .field, 0x18000020, 0x40, 0x1000, 8, 1,
      [⟨0, 18, .rw, 28, fun _ _ => 0⟩,
       ⟨18, 18, .rw, 28, fun _ _ => 0⟩,
       ⟨36, 7, .rw, 28, fun _ _ => 0⟩,
       ⟨43, 1, .rw, 28, fun _ _ => 0⟩,
       ⟨44, 1, .rw, 28, fun _ _ => 0⟩]⟩
  , ⟨.RUNNEL_OCC, .compute, 0x2000028, 0x40, 0x4000, 8, 1,
      [⟨0, 18, .ro, 24, fun _ _ => 0⟩,
       ⟨18, 18, .ro, 24, fun _ _ => 0⟩,
       ⟨36, 16, .ro, 24, fun _ _ => 0⟩,
       ⟨52, 8, .ro, 24, fun _ _ => 0⟩]⟩
  , ⟨.RUNNEL_OCC, .field, 0x18000028, 0x40, 0x1000, 8, 1,
      [⟨0, 18, .ro, 28, fun _ _ => 0⟩,
       ⟨18, 18, .ro, 28, fun _ _ => 0⟩,
       ⟨36, 16, .ro, 28, fun _ _ => 0⟩,
       ⟨52, 8, .ro, 28, fun _ _ => 0⟩]⟩
  , ⟨.RUNNEL_STAT, .compute, 0x2000030, 0x40, 0x4000, 8, 1,
      [⟨0, 1, .ro, 24, fun _ _ => 0⟩,
       ⟨1, 1, .w1c, 24, fun _ _ => 0⟩,
       ⟨2, 1, .ro, 24, fun _ _ => 0⟩,
       ⟨3, 1, .ro, 24, fun _ _ => 0⟩,
       ⟨8, 16, .rc, 24, fun _ _ => 0⟩,
       ⟨24, 16, .rc, 24, fun _ _ => 0⟩,
       ⟨40, 16, .rc, 24, fun _ _ => 0⟩]⟩
  , ⟨.RUNNEL_STAT, .field, 0x18000030, 0x40, 0x1000, 8, 1,
      [⟨0, 1, .ro, 28, fun _ _ => 0⟩,
       ⟨1, 1, .w1c, 28, fun _ _ => 0⟩,
       ⟨2, 1, .ro, 28, fun _ _ => 0⟩,
       ⟨3, 1, .ro, 28, fun _ _ => 0⟩,
       ⟨8, 16, .rc, 28, fun _ _ => 0⟩,
       ⟨24, 16, .rc, 28, fun _ _ => 0⟩,
       ⟨40, 16, .rc, 28, fun _ _ => 0⟩]⟩
  , ⟨.RUNNEL_SEQ, .compute, 0x2000038, 0x40, 0x4000, 8, 1,
      [⟨0, 16, .ro, 24, fun _ _ => 0⟩,
       ⟨16, 16, .ro, 24, fun _ _ => 0⟩,
       ⟨32, 13, .ro, 24, fun _ _ => 0⟩]⟩
  , ⟨.RUNNEL_SEQ, .field, 0x18000038, 0x40, 0x1000, 8, 1,
      [⟨0, 16, .ro, 28, fun _ _ => 0⟩,
       ⟨16, 16, .ro, 28, fun _ _ => 0⟩,
       ⟨32, 13, .ro, 28, fun _ _ => 0⟩]⟩
  , ⟨.RUNNEL_ENG, .compute, 0x2100000, 8, 1, 8, 1,
      [⟨0, 13, .ro, 24, fun _ _ => 0⟩,
       ⟨16, 13, .rc, 24, fun _ _ => 0⟩,
       ⟨32, 16, .rc, 24, fun _ _ => 0⟩,
       ⟨48, 16, .rc, 24, fun _ _ => 0⟩]⟩
  , ⟨.RUNNEL_ENG, .field, 0x18100000, 8, 1, 8, 1,
      [⟨0, 13, .ro, 28, fun _ _ => 0⟩,
       ⟨16, 13, .rc, 28, fun _ _ => 0⟩,
       ⟨32, 16, .rc, 28, fun _ _ => 0⟩,
       ⟨48, 16, .rc, 28, fun _ _ => 0⟩]⟩
  ]

/-- The registers of block CULV (R334). -/
def rowsCulv : List RegRow :=
  [
    ⟨.CULV_STAT, .compute, 0x8000000, 0x100, 5, 8, 1,
      [⟨0, 3, .ro, 24, fun _ _ => 0⟩,
       ⟨3, 1, .ro, 24, fun _ _ => 0⟩,
       ⟨16, 16, .rc, 24, fun _ _ => 0⟩,
       ⟨32, 16, .rc, 24, fun _ _ => 0⟩]⟩
  , ⟨.CULV_STAT, .field, 0x1a000000, 0x100, 8, 8, 1,
      [⟨0, 3, .ro, 28, fun _ _ => 0⟩,
       ⟨3, 1, .ro, 28, fun _ _ => 0⟩,
       ⟨16, 16, .rc, 28, fun _ _ => 0⟩,
       ⟨32, 16, .rc, 28, fun _ _ => 0⟩]⟩
  , ⟨.CULV_ERR, .compute, 0x8000008, 0x100, 5, 8, 1,
      [⟨0, 32, .rc, 24, fun _ _ => 0⟩,
       ⟨32, 32, .rc, 24, fun _ _ => 0⟩]⟩
  , ⟨.CULV_ERR, .field, 0x1a000008, 0x100, 8, 8, 1,
      [⟨0, 32, .rc, 28, fun _ _ => 0⟩,
       ⟨32, 32, .rc, 28, fun _ _ => 0⟩]⟩
  , ⟨.CULV_TXFLITS, .compute, 0x8000010, 0x100, 5, 8, 1,
      [⟨0, 64, .rc, 24, fun _ _ => 0⟩]⟩
  , ⟨.CULV_TXFLITS, .field, 0x1a000010, 0x100, 8, 8, 1,
      [⟨0, 64, .rc, 28, fun _ _ => 0⟩]⟩
  , ⟨.CULV_RXFLITS, .compute, 0x8000018, 0x100, 5, 8, 1,
      [⟨0, 64, .rc, 24, fun _ _ => 0⟩]⟩
  , ⟨.CULV_RXFLITS, .field, 0x1a000018, 0x100, 8, 8, 1,
      [⟨0, 64, .rc, 28, fun _ _ => 0⟩]⟩
  , ⟨.CULV_CTL, .compute, 0x8000020, 0x100, 5, 8, 1,
      [⟨0, 1, .wo, 0, fun _ _ => 0⟩,
       ⟨8, 8, .rw, 24, fun _ _ => 8⟩]⟩
  , ⟨.CULV_CTL, .field, 0x1a000020, 0x100, 8, 8, 1,
      [⟨0, 1, .wo, 0, fun _ _ => 0⟩,
       ⟨8, 8, .rw, 28, fun _ _ => 8⟩]⟩
  , ⟨.CULV_LOST, .compute, 0x8000028, 0x100, 5, 8, 1,
      [⟨0, 32, .rc, 24, fun _ _ => 0⟩,
       ⟨32, 32, .rc, 24, fun _ _ => 0⟩]⟩
  , ⟨.CULV_LOST, .field, 0x1a000028, 0x100, 8, 8, 1,
      [⟨0, 32, .rc, 28, fun _ _ => 0⟩,
       ⟨32, 32, .rc, 28, fun _ _ => 0⟩]⟩
  ]

/-- The registers of block SLUICE (R346). -/
def rowsSluice : List RegRow :=
  [
    ⟨.SLUICE_CLAIM, .field, 0x12000000, 0x20, 0x400, 8, 1,
      [⟨0, 8, .wo, 0, fun _ _ => 0⟩,
       ⟨8, 8, .wo, 0, fun _ _ => 0⟩]⟩
  , ⟨.SLUICE_HOLDER, .field, 0x12000008, 0x20, 0x400, 8, 1,
      [⟨0, 8, .ro, 30, fun _ _ => 0⟩,
       ⟨8, 8, .ro, 30, fun _ _ => 0⟩,
       ⟨16, 1, .ro, 30, fun _ _ => 0⟩,
       ⟨17, 1, .ro, 30, fun _ _ => 0⟩]⟩
  , ⟨.SLUICE_RELEASE, .field, 0x12000010, 0x20, 0x400, 8, 1,
      [⟨0, 8, .wo, 0, fun _ _ => 0⟩,
       ⟨8, 8, .wo, 0, fun _ _ => 0⟩,
       ⟨16, 1, .wo, 0, fun _ _ => 0⟩]⟩
  , ⟨.SLUICE_STAT, .field, 0x12000018, 0x20, 0x400, 8, 1,
      [⟨0, 12, .ro, 30, fun _ _ => 0⟩,
       ⟨12, 4, .ro, 30, fun _ _ => 0⟩,
       ⟨16, 16, .rc, 30, fun _ _ => 0⟩,
       ⟨32, 16, .rc, 30, fun _ _ => 0⟩,
       ⟨48, 8, .rc, 30, fun _ _ => 0⟩,
       ⟨56, 1, .w1c, 30, fun _ _ => 0⟩]⟩
  , ⟨.SLUICE_POOL, .field, 0x12008000, 8, 1, 8, 1,
      [⟨0, 12, .ro, 30, fun _ _ => 2048⟩,
       ⟨16, 12, .rc, 30, fun _ _ => 2048⟩,
       ⟨32, 16, .rc, 30, fun _ _ => 0⟩]⟩
  ]

/-- The registers of block UST (R371, R433). -/
def rowsUst : List RegRow :=
  [
    ⟨.UST_OUT, .field, 0x15011000, 8, 0x11, 8, 1,
      [⟨0, 64, .rw, 30, fun _ _ => 0⟩]⟩
  , ⟨.UST_SLUICE, .field, 0x15012000, 8, 0x10, 8, 1,
      [⟨0, 64, .rw, 30, fun _ _ => 0⟩]⟩
  , ⟨.UST_RUN, .field, 0x15000000, 0x1000, 6, 8, 0x100,
      [⟨0, 64, .rw, 28, fun _ _ => 0⟩]⟩
  , ⟨.UST_FLUME, .field, 0x15010000, 8, 6, 8, 1,
      [⟨0, 64, .rw, 28, fun _ _ => 0⟩]⟩
  , ⟨.UST_UNIT, .field, 0x15013000, 8, 4, 8, 1,
      [⟨0, 64, .rw, 28, fun _ _ => 0⟩]⟩
  , ⟨.UST_STAT, .field, 0x15020000, 8, 1, 8, 1,
      [⟨0, 1, .ro, 30, fun _ _ => 0⟩,
       ⟨1, 1, .w1c, 30, fun _ _ => 0⟩,
       ⟨2, 2, .ro, 30, fun _ _ => 0⟩,
       ⟨4, 3, .ro, 30, fun _ _ => 0⟩,
       ⟨7, 3, .ro, 30, fun _ _ => 0⟩,
       ⟨16, 16, .ro, 30, fun _ _ => 0⟩,
       ⟨32, 16, .rc, 30, fun _ _ => 0⟩,
       ⟨48, 16, .rc, 30, fun _ _ => 0⟩]⟩
  , ⟨.UST_BIND, .field, 0x15030000, 8, 0x100, 8, 1,
      [⟨0, 12, .rw, 30, fun _ _ => 0⟩,
       ⟨12, 1, .rw, 30, fun _ _ => 0⟩,
       ⟨16, 12, .rw, 30, fun _ _ => 0⟩,
       ⟨28, 3, .rw, 30, fun _ _ => 0⟩,
       ⟨31, 1, .rw, 30, fun _ _ => 0⟩,
       ⟨32, 1, .w1c, 30, fun _ _ => 0⟩]⟩
  ]

/-- The registers of block AXIS (R403). -/
def rowsAxis : List RegRow :=
  [
    ⟨.AXIS_CFG, .field, 0x1000000, 0x1000, 0x40, 8, 1,
      [⟨0, 4, .rw, 30, fun _ _ => 0⟩,
       ⟨4, 2, .rw, 30, fun _ _ => 0⟩,
       ⟨6, 8, .rw, 30, fun _ _ => 0⟩,
       ⟨14, 2, .rw, 30, fun _ _ => 0⟩,
       ⟨16, 1, .rw, 30, fun _ _ => 0⟩,
       ⟨17, 3, .rw, 30, fun _ _ => 0⟩,
       ⟨20, 3, .rw, 30, fun _ _ => 0⟩,
       ⟨23, 1, .rw, 30, fun _ _ => 0⟩]⟩
  , ⟨.AXIS_CNT, .field, 0x1000008, 0x1000, 0x40, 8, 1,
      [⟨0, 64, .ro, 30, fun _ _ => 0⟩]⟩
  , ⟨.AXIS_PRESET, .field, 0x1000010, 0x1000, 0x40, 8, 1,
      [⟨0, 64, .wo, 0, fun _ _ => 0⟩]⟩
  , ⟨.AXIS_IDXCAP, .field, 0x1000018, 0x1000, 0x40, 8, 1,
      [⟨0, 64, .ro, 30, fun _ _ => 0⟩]⟩
  , ⟨.AXIS_IDXTIME, .field, 0x1000020, 0x1000, 0x40, 8, 1,
      [⟨0, 64, .ro, 30, fun _ _ => 0⟩]⟩
  , ⟨.AXIS_CMP, .field, 0x1000028, 0x1000, 0x40, 8, 1,
      [⟨0, 64, .rw, 30, fun _ _ => 0⟩]⟩
  , ⟨.AXIS_EVT, .field, 0x1000030, 0x1000, 0x40, 8, 1,
      [⟨0, 6, .rw, 30, fun _ _ => 0⟩]⟩
  , ⟨.AXIS_STAT, .field, 0x1000038, 0x1000, 0x40, 8, 1,
      [⟨0, 1, .ro, 30, fun _ _ => 0⟩,
       ⟨1, 1, .w1c, 30, fun _ _ => 0⟩,
       ⟨2, 1, .ro, 30, fun _ _ => 0⟩,
       ⟨3, 1, .w1c, 30, fun _ _ => 0⟩,
       ⟨4, 1, .w1c, 30, fun _ _ => 0⟩,
       ⟨5, 3, .ro, 30, fun _ _ => 0⟩,
       ⟨16, 16, .rc, 30, fun _ _ => 0⟩,
       ⟨32, 16, .rc, 30, fun _ _ => 0⟩]⟩
  , ⟨.AXIS_SCCAL, .field, 0x1000040, 0x1000, 0x40, 8, 1,
      [⟨0, 16, .rw, 30, fun _ _ => 0⟩,
       ⟨16, 16, .rw, 30, fun _ _ => 0⟩,
       ⟨32, 16, .rw, 30, fun _ _ => 32768⟩]⟩
  , ⟨.AXIS_SCAMP, .field, 0x1000048, 0x1000, 0x40, 8, 1,
      [⟨0, 16, .rw, 30, fun _ _ => 4096⟩,
       ⟨16, 16, .rw, 30, fun _ _ => 28672⟩]⟩
  , ⟨.AXIS_SSI, .field, 0x1000050, 0x1000, 0x40, 8, 1,
      [⟨0, 6, .rw, 30, fun _ _ => 25⟩,
       ⟨6, 2, .rw, 30, fun _ _ => 0⟩,
       ⟨8, 1, .rw, 30, fun _ _ => 0⟩,
       ⟨9, 1, .rw, 30, fun _ _ => 0⟩,
       ⟨10, 12, .rw, 30, fun _ _ => 399⟩,
       ⟨22, 11, .rw, 30, fun _ _ => 0⟩,
       ⟨33, 7, .rw, 30, fun _ _ => 20⟩,
       ⟨40, 1, .rw, 30, fun _ _ => 0⟩,
       ⟨41, 6, .rw, 30, fun _ _ => 0⟩,
       ⟨47, 16, .rw, 30, fun _ _ => 100⟩]⟩
  , ⟨.AXIS_SSIVAL, .field, 0x1000058, 0x1000, 0x40, 8, 1,
      [⟨0, 32, .ro, 30, fun _ _ => 0⟩,
       ⟨32, 2, .ro, 30, fun _ _ => 0⟩,
       ⟨48, 16, .rc, 30, fun _ _ => 0⟩]⟩
  , ⟨.AXIS_DAC, .field, 0x1000060, 0x1000, 0x40, 8, 1,
      [⟨0, 18, .ro, 28, fun _ _ => 0⟩,
       ⟨32, 1, .rw, 28, fun _ _ => 0⟩,
       ⟨33, 1, .w1c, 28, fun _ _ => 0⟩,
       ⟨34, 1, .w1c, 28, fun _ _ => 0⟩,
       ⟨35, 8, .rc, 28, fun _ _ => 0⟩,
       ⟨48, 16, .rc, 28, fun _ _ => 0⟩]⟩
  ]

/-- The registers of block ANA (R404). -/
def rowsAna : List RegRow :=
  [
    ⟨.ANA_IN_CFG, .field, 0x3000000, 0x100, 0x10, 8, 1,
      [⟨0, 1, .rw, 30, fun _ _ => 0⟩,
       ⟨1, 8, .rw, 30, fun _ _ => 0⟩,
       ⟨9, 1, .rw, 30, fun _ _ => 0⟩,
       ⟨10, 16, .rw, 30, fun _ _ => 256⟩]⟩
  , ⟨.ANA_IN_VAL, .field, 0x3000008, 0x100, 0x10, 8, 1,
      [⟨0, 16, .ro, 30, fun _ _ => 0⟩,
       ⟨16, 1, .w1c, 30, fun _ _ => 0⟩,
       ⟨32, 32, .ro, 30, fun _ _ => 0⟩]⟩
  , ⟨.ANA_RES_CFG, .field, 0x3001000, 0x100, 0x10, 8, 1,
      [⟨0, 1, .rw, 28, fun _ _ => 0⟩,
       ⟨1, 15, .rw, 30, fun _ _ => 10000⟩,
       ⟨16, 7, .rw, 30, fun _ _ => 50⟩,
       ⟨23, 8, .rw, 30, fun _ _ => 0⟩,
       ⟨32, 16, .rw, 30, fun _ _ => 2048⟩]⟩
  , ⟨.ANA_RES_VAL, .field, 0x3001008, 0x100, 0x10, 8, 1,
      [⟨0, 16, .ro, 30, fun _ _ => 0⟩,
       ⟨32, 16, .ro, 30, fun _ _ => 0⟩,
       ⟨48, 1, .ro, 30, fun _ _ => 0⟩,
       ⟨49, 1, .w1c, 30, fun _ _ => 0⟩,
       ⟨50, 1, .w1c, 30, fun _ _ => 0⟩]⟩
  ]

/-- The registers of block MOTOR (R405). -/
def rowsMotor : List RegRow :=
  [
    ⟨.MOTOR_CFG, .field, 0x2000000, 0x1000, 0x10, 8, 1,
      [⟨0, 1, .rw, 30, fun _ _ => 0⟩,
       ⟨1, 2, .rw, 30, fun _ _ => 0⟩,
       ⟨3, 1, .rw, 30, fun _ _ => 0⟩,
       ⟨4, 6, .rw, 30, fun _ _ => 0⟩]⟩
  , ⟨.MOTOR_PER, .field, 0x2000008, 0x1000, 0x10, 8, 1,
      [⟨0, 20, .rw, 30, fun _ _ => 62500⟩,
       ⟨32, 12, .rw, 30, fun _ _ => 1000⟩,
       ⟨44, 10, .rw, 30, fun _ _ => 100⟩]⟩
  , ⟨.MOTOR_CMP, .field, 0x2000010, 0x1000, 0x10, 8, 1,
      [⟨0, 60, .ro, 28, fun _ _ => 0⟩]⟩
  , ⟨.MOTOR_SHADOW, .field, 0x2000018, 0x1000, 0x10, 8, 1,
      [⟨0, 60, .ro, 28, fun _ _ => 0⟩,
       ⟨60, 1, .ro, 28, fun _ _ => 0⟩]⟩
  , ⟨.MOTOR_CTL, .field, 0x2000020, 0x1000, 0x10, 8, 1,
      [⟨0, 6, .ro, 28, fun _ _ => 21⟩,
       ⟨8, 1, .rw, 28, fun _ _ => 0⟩,
       ⟨9, 1, .w1c, 28, fun _ _ => 0⟩,
       ⟨10, 1, .w1c, 28, fun _ _ => 0⟩,
       ⟨11, 1, .w1c, 28, fun _ _ => 0⟩,
       ⟨12, 1, .w1c, 28, fun _ _ => 0⟩]⟩
  , ⟨.MOTOR_ADC, .field, 0x2000028, 0x1000, 0x10, 8, 1,
      [⟨0, 2, .rw, 30, fun _ _ => 3⟩,
       ⟨2, 12, .rw, 30, fun _ _ => 0⟩,
       ⟨14, 2, .rw, 30, fun _ _ => 0⟩,
       ⟨16, 16, .rw, 30, fun _ _ => 0⟩,
       ⟨32, 2, .rw, 30, fun _ _ => 0⟩]⟩
  , ⟨.MOTOR_IVAL, .field, 0x2000030, 0x1000, 0x10, 8, 1,
      [⟨0, 48, .ro, 28, fun _ _ => 0⟩,
       ⟨48, 16, .ro, 28, fun _ _ => 0⟩]⟩
  , ⟨.MOTOR_STAT, .field, 0x2000038, 0x1000, 0x10, 8, 1,
      [⟨0, 16, .rc, 30, fun _ _ => 0⟩,
       ⟨16, 16, .rc, 30, fun _ _ => 0⟩,
       ⟨32, 16, .rc, 30, fun _ _ => 0⟩,
       ⟨48, 16, .rc, 30, fun _ _ => 0⟩]⟩
  ]

/-- The registers of block GPIO (R406). -/
def rowsGpio : List RegRow :=
  [
    ⟨.GPIO_CFG, .field, 0x4000000, 0x10, 0x1c0, 8, 1,
      [⟨0, 1, .rw, 28, fun _ _ => 0⟩,
       ⟨1, 1, .rw, 30, fun _ _ => 0⟩,
       ⟨2, 2, .rw, 30, fun _ _ => 1⟩,
       ⟨4, 8, .rw, 30, fun _ _ => 0⟩,
       ⟨12, 2, .rw, 30, fun _ _ => 0⟩,
       ⟨14, 1, .rw, 30, fun _ _ => 0⟩,
       ⟨15, 1, .rw, 30, fun _ _ => 0⟩,
       ⟨16, 1, .w1c, 28, fun _ _ => 0⟩,
       ⟨17, 1, .w1c, 28, fun _ _ => 0⟩]⟩
  , ⟨.GPIO_IN, .field, 0x4004000, 8, 7, 8, 1,
      [⟨0, 64, .ro, 30, fun _ _ => 0⟩]⟩
  , ⟨.GPIO_OUT, .field, 0x4004100, 8, 7, 8, 1,
      [⟨0, 64, .rw, 28, fun _ _ => 0⟩]⟩
  , ⟨.GPIO_GATEMAP, .field, 0x4004200, 8, 7, 8, 1,
      [⟨0, 64, .sro, 31, fun _ _ => 0xFFFFFFFFFFFFFFFF⟩]⟩
  , ⟨.GPIO_STAT, .field, 0x4004300, 8, 1, 8, 1,
      [⟨0, 16, .rc, 30, fun _ _ => 0⟩,
       ⟨16, 16, .rc, 30, fun _ _ => 0⟩]⟩
  ]

/-- The registers of block TIMER (R407). -/
def rowsTimer : List RegRow :=
  [
    ⟨.TIMER_CFG, .field, 0x1d000000, 0x40, 0x40, 8, 1,
      [⟨0, 3, .rw, 30, fun _ _ => 0⟩,
       ⟨3, 9, .rw, 30, fun _ _ => 511⟩,
       ⟨12, 9, .rw, 30, fun _ _ => 511⟩,
       ⟨21, 1, .rw, 30, fun _ _ => 0⟩]⟩
  , ⟨.TIMER_PER, .field, 0x1d000008, 0x40, 0x40, 8, 1,
      [⟨0, 32, .rw, 30, fun _ _ => 0⟩,
       ⟨32, 32, .rw, 30, fun _ _ => 0⟩]⟩
  , ⟨.TIMER_STEP, .field, 0x1d000010, 0x40, 0x40, 8, 1,
      [⟨0, 32, .ro, 28, fun _ _ => 0⟩,
       ⟨32, 16, .rw, 30, fun _ _ => 1000⟩]⟩
  , ⟨.TIMER_POS, .field, 0x1d000018, 0x40, 0x40, 8, 1,
      [⟨0, 64, .ro, 30, fun _ _ => 0⟩]⟩
  , ⟨.TIMER_STAT, .field, 0x1d000020, 0x40, 0x40, 8, 1,
      [⟨0, 32, .rc, 30, fun _ _ => 0⟩,
       ⟨32, 1, .ro, 30, fun _ _ => 0⟩,
       ⟨33, 1, .ro, 30, fun _ _ => 0⟩]⟩
  ]

/-- The registers of block TAPE (R408). -/
def rowsTape : List RegRow :=
  [
    ⟨.TAPE_CFG, .field, 0xa000000, 0x2000, 2, 8, 1,
      [⟨0, 2, .rw, 30, fun _ _ => 0⟩,
       ⟨2, 1, .rw, 30, fun _ _ => 0⟩,
       ⟨3, 1, .rw, 30, fun _ _ => 0⟩,
       ⟨4, 1, .rw, 30, fun _ _ => 0⟩,
       ⟨5, 1, .rw, 30, fun _ _ => 0⟩,
       ⟨6, 1, .rw, 30, fun _ _ => 0⟩,
       ⟨7, 1, .rw, 30, fun _ _ => 0⟩,
       ⟨8, 8, .rw, 30, fun _ _ => 16⟩,
       ⟨16, 14, .rw, 30, fun _ _ => 500⟩,
       ⟨32, 14, .rw, 30, fun _ _ => 300⟩,
       ⟨46, 8, .rw, 30, fun _ _ => 20⟩,
       ⟨54, 8, .rw, 30, fun _ _ => 50⟩]⟩
  , ⟨.TAPE_CTL, .field, 0xa000008, 0x2000, 2, 8, 1,
      [⟨0, 1, .rw, 28, fun _ _ => 0⟩,
       ⟨1, 1, .wo, 0, fun _ _ => 0⟩,
       ⟨2, 1, .w1c, 28, fun _ _ => 0⟩]⟩
  , ⟨.TAPE_STAT, .field, 0xa000010, 0x2000, 2, 8, 1,
      [⟨0, 16, .rc, 30, fun _ _ => 0⟩,
       ⟨16, 16, .rc, 30, fun _ _ => 0⟩,
       ⟨32, 16, .rc, 30, fun _ _ => 0⟩,
       ⟨48, 1, .ro, 30, fun _ _ => 0⟩,
       ⟨49, 15, .rc, 30, fun _ _ => 0⟩]⟩
  , ⟨.TAPE_DEC, .field, 0xa000800, 0x2000, 2, 8, 0x100,
      [⟨0, 8, .rw, 30, fun _ j => isoDec j % 256⟩,
       ⟨8, 1, .rw, 30, fun _ j => isoDec j / 256 % 2⟩,
       ⟨9, 1, .rw, 30, fun _ j => isoDec j / 512 % 2⟩,
       ⟨10, 1, .rw, 30, fun _ j => isoDec j / 1024 % 2⟩]⟩
  , ⟨.TAPE_ENC, .field, 0xa001000, 0x2000, 2, 8, 0x100,
      [⟨0, 8, .rw, 30, fun _ j => isoEnc j % 256⟩,
       ⟨8, 1, .rw, 30, fun _ j => isoEnc j / 256 % 2⟩]⟩
  ]

/-- The registers of block ETH (R434). -/
def rowsEth : List RegRow :=
  [
    ⟨.ETH_CFG, .field, 0x7000000, 0x1000, 7, 8, 1,
      [⟨0, 1, .rw, 28, fun _ _ => 0⟩,
       ⟨1, 1, .rw, 28, fun _ _ => 0⟩,
       ⟨2, 1, .rw, 28, fun _ _ => 0⟩,
       ⟨3, 11, .rw, 28, fun _ _ => 1522⟩,
       ⟨14, 1, .rw, 28, fun _ _ => 0⟩,
       ⟨15, 8, .rw, 28, fun _ _ => 0⟩,
       ⟨23, 1, .rw, 28, fun _ _ => 0⟩,
       ⟨24, 2, .rw, 28, fun _ _ => 0⟩]⟩
  , ⟨.ETH_MAC, .field, 0x7000008, 0x1000, 7, 8, 1,
      [⟨0, 48, .rw, 28, fun _ _ => 0⟩]⟩
  , ⟨.ETH_HASH, .field, 0x7000010, 0x1000, 7, 8, 1,
      [⟨0, 64, .rw, 28, fun _ _ => 0⟩]⟩
  , ⟨.ETH_LAT, .field, 0x7000018, 0x1000, 7, 8, 1,
      [⟨0, 16, .rw, 28, fun _ _ => 0⟩,
       ⟨16, 16, .rw, 28, fun _ _ => 0⟩]⟩
  , ⟨.ETH_STAT, .field, 0x7000020, 0x1000, 7, 8, 1,
      [⟨0, 1, .ro, 28, fun _ _ => 0⟩,
       ⟨1, 2, .ro, 28, fun _ _ => 0⟩,
       ⟨3, 1, .ro, 28, fun _ _ => 0⟩,
       ⟨16, 16, .rc, 28, fun _ _ => 0⟩,
       ⟨32, 16, .rc, 28, fun _ _ => 0⟩,
       ⟨48, 16, .rc, 28, fun _ _ => 0⟩]⟩
  , ⟨.ETH_CNT, .field, 0x7000028, 0x1000, 7, 8, 1,
      [⟨0, 16, .rc, 28, fun _ _ => 0⟩,
       ⟨16, 16, .rc, 28, fun _ _ => 0⟩,
       ⟨32, 16, .rc, 28, fun _ _ => 0⟩]⟩
  , ⟨.ETH_TXTS, .field, 0x7000030, 0x1000, 7, 8, 1,
      [⟨0, 16, .ro, 28, fun _ _ => 0⟩,
       ⟨16, 1, .ro, 28, fun _ _ => 0⟩]⟩
  , ⟨.ETH_TXTSTIME, .field, 0x7000038, 0x1000, 7, 8, 1,
      [⟨0, 64, .rc, 28, fun _ _ => 0⟩]⟩
  , ⟨.ETH_GCLCTL, .field, 0x7000040, 0x1000, 7, 8, 1,
      [⟨0, 32, .rw, 28, fun _ _ => 0⟩,
       ⟨32, 8, .rw, 28, fun _ _ => 0⟩,
       ⟨40, 1, .w1s, 28, fun _ _ => 0⟩]⟩
  , ⟨.ETH_GCLBASE, .field, 0x7000048, 0x1000, 7, 8, 1,
      [⟨0, 64, .rw, 28, fun _ _ => 0⟩]⟩
  , ⟨.ETH_GCLCHG, .field, 0x7000050, 0x1000, 7, 8, 1,
      [⟨0, 64, .rw, 28, fun _ _ => 0⟩]⟩
  , ⟨.ETH_GCLOPER, .field, 0x7000058, 0x1000, 7, 8, 1,
      [⟨0, 8, .ro, 28, fun _ _ => 0⟩,
       ⟨8, 8, .ro, 28, fun _ _ => 255⟩]⟩
  , ⟨.ETH_GCL, .field, 0x7000800, 0x1000, 7, 8, 0x100,
      [⟨0, 8, .rw, 28, fun _ _ => 255⟩,
       ⟨8, 32, .rw, 28, fun _ _ => 0⟩,
       ⟨40, 1, .rw, 28, fun _ _ => 0⟩]⟩
  , ⟨.ETH_MDIO, .field, 0x7010100, 8, 1, 8, 1,
      [⟨0, 5, .rw, 28, fun _ _ => 0⟩,
       ⟨5, 5, .rw, 28, fun _ _ => 0⟩,
       ⟨10, 1, .rw, 28, fun _ _ => 0⟩,
       ⟨11, 2, .wo, 0, fun _ _ => 0⟩,
       ⟨13, 1, .ro, 28, fun _ _ => 0⟩,
       ⟨16, 16, .rw, 28, fun _ _ => 0⟩]⟩
  ]

/-- The registers of block TIME (R434). -/
def rowsTime : List RegRow :=
  [
    ⟨.TIME_NOW, .field, 0x7010000, 8, 1, 8, 1,
      [⟨0, 64, .ro, 31, fun _ _ => 0⟩]⟩
  , ⟨.TIME_RATE, .field, 0x7010008, 8, 1, 8, 1,
      [⟨0, 40, .rw, 30, fun _ _ => 0⟩]⟩
  , ⟨.TIME_STEP, .field, 0x7010010, 8, 1, 8, 1,
      [⟨0, 64, .wo, 0, fun _ _ => 0⟩]⟩
  , ⟨.TIME_STAT, .field, 0x7010018, 8, 1, 8, 1,
      [⟨0, 1, .rw, 30, fun _ _ => 0⟩,
       ⟨1, 1, .w1c, 30, fun _ _ => 0⟩,
       ⟨8, 8, .rw, 30, fun _ _ => 0⟩]⟩
  ]

/-- The registers of block CAN (R435). -/
def rowsCan : List RegRow :=
  [
    ⟨.CAN_BT, .field, 0x8000000, 0x1000, 4, 8, 1,
      [⟨0, 10, .rw, 28, fun _ _ => 9⟩,
       ⟨10, 8, .rw, 28, fun _ _ => 5⟩,
       ⟨18, 7, .rw, 28, fun _ _ => 2⟩,
       ⟨25, 7, .rw, 28, fun _ _ => 2⟩,
       ⟨32, 5, .rw, 28, fun _ _ => 0⟩,
       ⟨37, 6, .rw, 28, fun _ _ => 7⟩,
       ⟨43, 5, .rw, 28, fun _ _ => 2⟩,
       ⟨48, 8, .rw, 28, fun _ _ => 0⟩]⟩
  , ⟨.CAN_CFG, .field, 0x8000008, 0x1000, 4, 8, 1,
      [⟨0, 2, .rw, 28, fun _ _ => 0⟩,
       ⟨2, 1, .rw, 28, fun _ _ => 0⟩,
       ⟨3, 1, .rw, 28, fun _ _ => 1⟩,
       ⟨4, 1, .rw, 28, fun _ _ => 0⟩,
       ⟨5, 1, .rw, 28, fun _ _ => 0⟩,
       ⟨6, 1, .rw, 28, fun _ _ => 0⟩]⟩
  , ⟨.CAN_STAT, .field, 0x8000010, 0x1000, 4, 8, 1,
      [⟨0, 2, .ro, 28, fun _ _ => 0⟩,
       ⟨2, 8, .ro, 28, fun _ _ => 0⟩,
       ⟨10, 8, .ro, 28, fun _ _ => 0⟩,
       ⟨32, 16, .rc, 28, fun _ _ => 0⟩,
       ⟨48, 16, .rc, 28, fun _ _ => 0⟩]⟩
  , ⟨.CAN_FLT, .field, 0x8000100, 0x1000, 4, 8, 0x20,
      [⟨0, 29, .rw, 28, fun _ _ => 0⟩,
       ⟨29, 29, .rw, 28, fun _ _ => 0⟩,
       ⟨58, 1, .rw, 28, fun _ _ => 0⟩,
       ⟨59, 1, .rw, 28, fun _ _ => 0⟩]⟩
  ]

/-- The registers of block UART (R436). -/
def rowsUart : List RegRow :=
  [
    ⟨.UART_CFG, .field, 0x9000000, 0x100, 16, 8, 1,
      [⟨0, 28, .rw, 28, fun _ _ => 111111⟩,
       ⟨28, 1, .rw, 28, fun _ _ => 0⟩,
       ⟨29, 2, .rw, 28, fun _ _ => 0⟩,
       ⟨31, 1, .rw, 28, fun _ _ => 0⟩,
       ⟨32, 1, .rw, 28, fun _ _ => 0⟩,
       ⟨33, 2, .rw, 28, fun _ _ => 0⟩,
       ⟨35, 1, .rw, 28, fun _ _ => 0⟩,
       ⟨36, 1, .rw, 28, fun _ _ => 0⟩]⟩
  , ⟨.UART_MSG, .field, 0x9000008, 0x100, 16, 8, 1,
      [⟨0, 16, .rw, 28, fun _ _ => 256⟩,
       ⟨16, 8, .rw, 28, fun _ _ => 36⟩,
       ⟨24, 8, .rw, 28, fun _ _ => 10⟩,
       ⟨32, 1, .rw, 28, fun _ _ => 0⟩,
       ⟨33, 8, .rw, 28, fun _ _ => 1⟩]⟩
  , ⟨.UART_STAT, .field, 0x9000010, 0x100, 16, 8, 1,
      [⟨0, 16, .rc, 28, fun _ _ => 0⟩,
       ⟨16, 16, .rc, 28, fun _ _ => 0⟩,
       ⟨32, 16, .rc, 28, fun _ _ => 0⟩,
       ⟨48, 16, .rc, 28, fun _ _ => 0⟩]⟩
  ]

/-- The registers of block PCIE (R437). -/
def rowsPcie : List RegRow :=
  [
    ⟨.PCIE_LINK, .field, 0xb000000, 8, 1, 8, 1,
      [⟨0, 3, .ro, 30, fun _ _ => 0⟩,
       ⟨3, 3, .ro, 30, fun _ _ => 0⟩,
       ⟨6, 1, .ro, 30, fun _ _ => 0⟩]⟩
  , ⟨.PCIE_DOORBELL, .field, 0xb000008, 8, 1, 8, 1,
      [⟨0, 4, .wo, 0, fun _ _ => 0⟩,
       ⟨32, 32, .wo, 0, fun _ _ => 0⟩]⟩
  , ⟨.PCIE_MSIX, .field, 0xb000010, 8, 1, 8, 1,
      [⟨0, 6, .wo, 0, fun _ _ => 0⟩]⟩
  , ⟨.PCIE_WIN, .field, 0xb000100, 8, 8, 8, 1,
      [⟨0, 1, .rw, 30, fun _ _ => 0⟩,
       ⟨27, 13, .rw, 30, fun _ _ => 0⟩]⟩
  , ⟨.PCIE_CH_HTD, .field, 0xb001000, 0x40, 8, 8, 1,
      [⟨0, 64, .rw, 28, fun _ _ => 0⟩]⟩
  , ⟨.PCIE_CH_HTDCTL, .field, 0xb001008, 0x40, 8, 8, 1,
      [⟨0, 5, .rw, 28, fun _ _ => 4⟩,
       ⟨5, 1, .rw, 28, fun _ _ => 0⟩,
       ⟨16, 16, .rw, 28, fun _ _ => 0⟩,
       ⟨32, 16, .ro, 28, fun _ _ => 0⟩]⟩
  , ⟨.PCIE_CH_DTH, .field, 0xb001010, 0x40, 8, 8, 1,
      [⟨0, 64, .rw, 28, fun _ _ => 0⟩]⟩
  , ⟨.PCIE_CH_DTHCTL, .field, 0xb001018, 0x40, 8, 8, 1,
      [⟨0, 5, .rw, 28, fun _ _ => 4⟩,
       ⟨5, 1, .rw, 28, fun _ _ => 0⟩,
       ⟨16, 16, .rw, 28, fun _ _ => 0⟩,
       ⟨32, 16, .ro, 28, fun _ _ => 0⟩]⟩
  ]

/-- The registers of block USB (R438). -/
def rowsUsb : List RegRow :=
  [
    ⟨.USB_CFG, .field, 0xc000000, 8, 1, 8, 1,
      [⟨0, 1, .rw, 28, fun _ _ => 0⟩,
       ⟨1, 1, .rw, 28, fun _ _ => 1⟩]⟩
  , ⟨.USB_STAT, .field, 0xc000008, 8, 1, 8, 1,
      [⟨0, 2, .ro, 28, fun _ _ => 0⟩,
       ⟨2, 1, .ro, 28, fun _ _ => 0⟩,
       ⟨3, 7, .ro, 28, fun _ _ => 0⟩,
       ⟨10, 1, .ro, 28, fun _ _ => 0⟩]⟩
  ]

/-- The registers of block STOR (R438). -/
def rowsStor : List RegRow :=
  [
    ⟨.STOR_CFG, .field, 0xd000000, 8, 1, 8, 1,
      [⟨0, 2, .rw, 28, fun _ _ => 0⟩,
       ⟨2, 2, .rw, 28, fun _ _ => 0⟩,
       ⟨4, 1, .rw, 28, fun _ _ => 0⟩]⟩
  ]

/-- The registers of block SVC (R438). -/
def rowsSvc : List RegRow :=
  [
    ⟨.SVC_CFG, .field, 0xe000000, 8, 1, 8, 1,
      [⟨0, 7, .rw, 31, fun _ _ => 0x58⟩,
       ⟨7, 1, .rw, 31, fun _ _ => 0⟩,
       ⟨8, 1, .rw, 31, fun _ _ => 0⟩]⟩
  , ⟨.SVC_STAT, .field, 0xe000008, 8, 1, 8, 1,
      [⟨0, 16, .rc, 30, fun _ _ => 0⟩,
       ⟨16, 16, .rc, 30, fun _ _ => 0⟩,
       ⟨32, 1, .w1c, 30, fun _ _ => 0⟩]⟩
  ]

/-- The registers of block PMB (R438). -/
def rowsPmb : List RegRow :=
  [
    ⟨.PMB_RAIL, .field, 0xf000000, 8, 0x10, 8, 1,
      [⟨0, 7, .rw, 30, fun _ _ => 0⟩,
       ⟨7, 8, .rw, 30, fun _ _ => 0⟩,
       ⟨15, 4, .rw, 30, fun _ _ => 0⟩,
       ⟨19, 1, .rw, 30, fun _ _ => 0⟩]⟩
  , ⟨.PMB_CMD, .field, 0xf000100, 8, 1, 8, 1,
      [⟨0, 8, .rw, 28, fun _ _ => 0⟩,
       ⟨8, 4, .rw, 28, fun _ _ => 0⟩,
       ⟨12, 2, .rw, 28, fun _ _ => 0⟩,
       ⟨16, 16, .rw, 28, fun _ _ => 0⟩,
       ⟨32, 1, .w1s, 28, fun _ _ => 0⟩,
       ⟨33, 3, .ro, 28, fun _ _ => 0⟩]⟩
  , ⟨.PMB_ALERT, .field, 0xf000108, 8, 1, 8, 1,
      [⟨0, 16, .w1c, 30, fun _ _ => 0⟩]⟩
  ]

/-- The registers of block SURVEY (R462). -/
def rowsSurvey : List RegRow :=
  [
    ⟨.SURVEY_CTL, .field, 0x10000000, 8, 1, 8, 1,
      [⟨0, 1, .w1s, 28, fun _ _ => 0⟩,
       ⟨1, 1, .w1s, 28, fun _ _ => 0⟩,
       ⟨2, 1, .wo, 0, fun _ _ => 0⟩,
       ⟨8, 7, .rw, 28, fun _ _ => 0⟩]⟩
  , ⟨.SURVEY_STAT, .field, 0x10000008, 8, 1, 8, 1,
      [⟨0, 2, .ro, 30, fun _ _ => 0⟩,
       ⟨2, 4, .ro, 30, fun _ _ => 0⟩,
       ⟨6, 1, .w1c, 30, fun _ _ => 0⟩,
       ⟨8, 6, .ro, 30, fun _ _ => 0⟩,
       ⟨16, 14, .ro, 30, fun _ _ => 0⟩,
       ⟨32, 16, .rc, 30, fun _ _ => 0⟩]⟩
  , ⟨.SURVEY_NOTE, .field, 0x10000010, 8, 1, 8, 1,
      [⟨0, 8, .rw, 28, fun _ _ => 0⟩,
       ⟨8, 20, .rw, 28, fun _ _ => 0⟩,
       ⟨28, 2, .rw, 28, fun _ _ => 0⟩,
       ⟨30, 1, .rw, 28, fun _ _ => 0⟩]⟩
  , ⟨.SURVEY_WVDC, .field, 0x10000018, 8, 1, 8, 1,
      [⟨0, 32, .rw, 28, fun _ _ => 0⟩]⟩
  , ⟨.SURVEY_WATCH, .field, 0x10000020, 8, 1, 8, 1,
      [⟨0, 1, .rw, 30, fun _ _ => 0⟩,
       ⟨1, 4, .rw, 30, fun _ _ => 0⟩,
       ⟨16, 16, .rw, 30, fun _ _ => 5000⟩,
       ⟨32, 16, .rw, 30, fun _ _ => 6000⟩]⟩
  , ⟨.SURVEY_MAINSVAL, .field, 0x10000028, 8, 1, 8, 1,
      [⟨0, 32, .ro, 30, fun _ _ => 0⟩,
       ⟨32, 1, .w1c, 30, fun _ _ => 0⟩]⟩
  , ⟨.SURVEY_PLAN, .field, 0x10000400, 8, 0x40, 8, 1,
      [⟨0, 4, .rw, 28, fun _ _ => 0⟩,
       ⟨4, 4, .rw, 28, fun _ _ => 0⟩,
       ⟨8, 12, .rw, 28, fun _ _ => 0⟩,
       ⟨20, 12, .rw, 28, fun _ _ => 0⟩,
       ⟨32, 32, .rw, 28, fun _ _ => 0⟩]⟩
  , ⟨.SURVEY_RAIL, .field, 0x10000800, 8, 0x14, 8, 1,
      [⟨0, 16, .rw, 30, fun _ _ => 0⟩,
       ⟨16, 16, .rw, 30, fun _ _ => 65535⟩,
       ⟨32, 16, .ro, 30, fun _ _ => 0⟩,
       ⟨48, 1, .w1c, 30, fun _ _ => 0⟩,
       ⟨49, 1, .ro, 30, fun _ _ => 0⟩]⟩
  , ⟨.SURVEY_TEMP, .field, 0x10000900, 8, 8, 8, 1,
      [⟨0, 16, .ro, 30, fun _ _ => 0⟩]⟩
  , ⟨.SURVEY_RECORD, .field, 0x10100000, 0x20, 0x2000, 8, 4,
      [⟨0, 64, .ro, 30, fun _ _ => 0⟩]⟩
  ]

/-- The registers of block SAFE (R499). -/
def rowsSafe : List RegRow :=
  [
    ⟨.SAFE_ID, .field, 0x16000000, 8, 1, 8, 1,
      [⟨0, 16, .sro, 31, fun _ _ => 0⟩]⟩
  , ⟨.SAFE_STATE, .field, 0x16000008, 8, 1, 8, 1,
      [⟨0, 3, .sro, 31, fun _ _ => 0⟩,
       ⟨3, 1, .sro, 31, fun _ _ => 0⟩,
       ⟨4, 2, .sro, 31, fun _ _ => 0⟩,
       ⟨6, 1, .sro, 31, fun _ _ => 0⟩,
       ⟨7, 1, .sro, 31, fun _ _ => 0⟩,
       ⟨8, 1, .sro, 31, fun _ _ => 0⟩,
       ⟨9, 1, .sro, 31, fun _ _ => 0⟩,
       ⟨10, 1, .sro, 31, fun _ _ => 0⟩,
       ⟨16, 8, .sro, 31, fun _ _ => 0⟩,
       ⟨24, 16, .sro, 31, fun _ _ => 0⟩,
       ⟨40, 2, .sro, 31, fun _ _ => 0⟩]⟩
  , ⟨.SAFE_PSET, .field, 0x16000010, 8, 1, 8, 1,
      [⟨0, 32, .sro, 31, fun _ _ => 0⟩,
       ⟨32, 32, .sro, 31, fun _ _ => 0⟩]⟩
  , ⟨.SAFE_MACHID, .field, 0x16000018, 8, 1, 8, 1,
      [⟨0, 64, .sro, 31, fun _ _ => 0⟩]⟩
  , ⟨.SAFE_OUT, .field, 0x16000020, 8, 1, 8, 1,
      [⟨0, 16, .sro, 31, fun _ _ => 0⟩,
       ⟨16, 8, .sro, 31, fun _ _ => 0⟩,
       ⟨24, 17, .sro, 31, fun _ _ => 0⟩]⟩
  , ⟨.SAFE_OUTERR, .field, 0x16000028, 8, 1, 8, 1,
      [⟨0, 16, .sro, 31, fun _ _ => 0⟩,
       ⟨16, 8, .sro, 31, fun _ _ => 0⟩]⟩
  , ⟨.SAFE_IN, .field, 0x16000030, 8, 1, 8, 1,
      [⟨0, 32, .sro, 31, fun _ _ => 0⟩,
       ⟨32, 32, .sro, 31, fun _ _ => 0⟩]⟩
  , ⟨.SAFE_SUPPLY, .field, 0x16000038, 8, 1, 8, 1,
      [⟨0, 16, .sro, 31, fun _ _ => 0⟩,
       ⟨16, 16, .sro, 31, fun _ _ => 0⟩]⟩
  , ⟨.SAFE_LINK, .field, 0x16000040, 8, 1, 8, 1,
      [⟨0, 16, .sro, 31, fun _ _ => 0⟩,
       ⟨16, 16, .sro, 31, fun _ _ => 0⟩,
       ⟨32, 16, .sro, 31, fun _ _ => 0⟩,
       ⟨48, 16, .sro, 31, fun _ _ => 0⟩]⟩
  , ⟨.SAFE_CH_FUNC, .field, 0x16000100, 0x20, 0x10, 8, 1,
      [⟨0, 1, .sro, 31, fun _ _ => 1⟩,
       ⟨1, 1, .sro, 31, fun _ _ => 0⟩,
       ⟨2, 1, .sro, 31, fun _ _ => 0⟩,
       ⟨3, 1, .sro, 31, fun _ _ => 0⟩,
       ⟨4, 3, .sro, 31, fun _ _ => 4⟩,
       ⟨7, 1, .sro, 31, fun _ _ => 0⟩,
       ⟨8, 1, .sro, 31, fun _ _ => 0⟩,
       ⟨9, 1, .sro, 31, fun _ _ => 0⟩,
       ⟨10, 1, .sro, 31, fun _ _ => 0⟩,
       ⟨11, 1, .sro, 31, fun _ _ => 0⟩,
       ⟨12, 1, .sro, 31, fun _ _ => 0⟩,
       ⟨16, 8, .sro, 31, fun _ _ => 0⟩]⟩
  , ⟨.SAFE_CH_POS, .field, 0x16000108, 0x20, 0x10, 8, 1,
      [⟨0, 64, .sro, 31, fun _ _ => 0⟩]⟩
  , ⟨.SAFE_CH_SPEED, .field, 0x16000110, 0x20, 0x10, 8, 1,
      [⟨0, 32, .sro, 31, fun _ _ => 0⟩,
       ⟨32, 32, .sro, 31, fun _ _ => 0⟩]⟩
  ]

/-- The registers of block ERR (R516). -/
def rowsErr : List RegRow :=
  [
    ⟨.ERR_STATUS, .compute, 0x7000000, 8, 1, 8, 1,
      [⟨0, 64, .ro, 24, fun _ _ => 0⟩]⟩
  , ⟨.ERR_COUNT, .compute, 0x7000100, 8, 0x40, 8, 1,
      [⟨0, 16, .rc, 24, fun _ _ => 0⟩,
       ⟨16, 16, .rc, 24, fun _ _ => 0⟩]⟩
  ]

/-- The registers of block FAULT (R517). -/
def rowsFault : List RegRow :=
  [
    ⟨.FAULT_SUMMARY, .field, 0x11000000, 8, 1, 8, 1,
      [⟨0, 8, .ro, 30, fun _ _ => 0⟩,
       ⟨8, 1, .ro, 28, fun _ _ => 1⟩,
       ⟨9, 1, .ro, 30, fun _ _ => 0⟩,
       ⟨10, 1, .ro, 30, fun _ _ => 0⟩,
       ⟨11, 2, .ro, 28, fun _ _ => 0⟩]⟩
  , ⟨.FAULT_ALIVE, .field, 0x11000008, 8, 1, 8, 1,
      [⟨0, 10, .rw, 30, fun _ _ => 100⟩,
       ⟨10, 1, .w1s, 28, fun _ _ => 0⟩]⟩
  , ⟨.FAULT_RAISE, .field, 0x11000010, 8, 1, 8, 1,
      [⟨0, 16, .wo, 0, fun _ _ => 0⟩,
       ⟨16, 1, .wo, 0, fun _ _ => 0⟩]⟩
  , ⟨.FAULT_INJECT, .field, 0x11000018, 8, 1, 8, 1,
      [⟨0, 6, .wo, 0, fun _ _ => 0⟩,
       ⟨6, 3, .wo, 0, fun _ _ => 0⟩,
       ⟨9, 1, .wo, 0, fun _ _ => 0⟩]⟩
  , ⟨.FAULT_LOGCTL, .field, 0x11000020, 8, 1, 8, 1,
      [⟨0, 8, .ro, 31, fun _ _ => 0⟩,
       ⟨8, 1, .ro, 31, fun _ _ => 0⟩,
       ⟨9, 1, .wo, 0, fun _ _ => 0⟩,
       ⟨32, 32, .ro, 31, fun _ _ => 0⟩]⟩
  , ⟨.FAULT_DIESTAT, .field, 0x11000100, 8, 8, 8, 1,
      [⟨0, 64, .w1c, 30, fun _ _ => 0⟩]⟩
  , ⟨.FAULT_FIRST, .field, 0x11000200, 8, 4, 8, 1,
      [⟨0, 64, .ro, 31, fun _ _ => 0⟩]⟩
  , ⟨.FAULT_LOG, .field, 0x11020000, 0x20, 0x100, 8, 4,
      [⟨0, 64, .ro, 31, fun _ _ => 0⟩]⟩
  , ⟨.FAULT_MAP, .field, 0x11000800, 8, 0x200, 8, 1,
      [⟨0, 6, .rw, 30, fun i _ => i % 64⟩,
       ⟨6, 1, .rw, 30, fun _ _ => 0⟩]⟩
  , ⟨.FAULT_CLASS_CFG, .field, 0x11002000, 0x20, 0x40, 8, 1,
      [⟨0, 1, .rw, 30, fun i _ => (classDefault i).base⟩,
       ⟨1, 8, .rw, 30, fun i _ => (classDefault i).n⟩,
       ⟨9, 3, .rw, 30, fun _ _ => 7⟩,
       ⟨12, 3, .rw, 30, fun _ _ => 0⟩,
       ⟨15, 3, .rw, 30, fun i _ => (classDefault i).rsevere⟩,
       ⟨18, 3, .rw, 30, fun _ _ => 4⟩,
       ⟨21, 2, .rw, 30, fun _ _ => 0⟩,
       ⟨23, 16, .rw, 30, fun _ _ => 50⟩,
       ⟨39, 20, .rw, 30, fun _ _ => 1000⟩]⟩
  , ⟨.FAULT_CLASS_WIN, .field, 0x11002008, 0x20, 0x40, 8, 1,
      [⟨0, 32, .rw, 30, fun i _ => (classDefault i).w⟩]⟩
  , ⟨.FAULT_CLASS_ACK, .field, 0x11002010, 0x20, 0x40, 8, 1,
      [⟨0, 1, .w1s, 0, fun _ _ => 0⟩]⟩
  , ⟨.FAULT_CLASS_STAT, .field, 0x11002018, 0x20, 0x40, 8, 1,
      [⟨0, 3, .ro, 28, fun _ _ => 7⟩,
       ⟨16, 16, .rc, 30, fun _ _ => 0⟩,
       ⟨32, 16, .rc, 30, fun _ _ => 0⟩,
       ⟨48, 16, .rc, 30, fun _ _ => 0⟩]⟩
  ]

/-- The registers of block PWR (R543). -/
def rowsPwr : List RegRow :=
  [
    ⟨.PWR_REQ, .compute, 0x6000000, 8, 1, 8, 1,
      [⟨0, 3, .rw, 24, fun _ _ => 2⟩]⟩
  , ⟨.PWR_STAT, .compute, 0x6000008, 8, 1, 8, 1,
      [⟨0, 3, .ro, 24, fun _ _ => 2⟩,
       ⟨3, 3, .ro, 24, fun _ _ => 2⟩,
       ⟨6, 1, .ro, 24, fun _ _ => 0⟩,
       ⟨7, 3, .ro, 24, fun _ _ => 0⟩,
       ⟨10, 1, .ro, 24, fun _ _ => 0⟩,
       ⟨11, 1, .w1c, 24, fun _ _ => 0⟩,
       ⟨12, 3, .ro, 24, fun _ _ => 7⟩,
       ⟨15, 1, .w1c, 24, fun _ _ => 0⟩,
       ⟨16, 16, .rc, 24, fun _ _ => 0⟩,
       ⟨32, 16, .rc, 24, fun _ _ => 0⟩]⟩
  , ⟨.PWR_CFG, .compute, 0x6000010, 8, 1, 8, 1,
      [⟨0, 10, .rw, 24, fun _ _ => 50⟩]⟩
  , ⟨.PWR_THERM, .compute, 0x6000018, 8, 1, 8, 1,
      [⟨0, 12, .ro, 24, fun _ _ => 0⟩,
       ⟨16, 16, .rc, 24, fun _ _ => 0⟩]⟩
  ]

/-- The registers of block SEC (R556). -/
def rowsSec : List RegRow :=
  [
    ⟨.SEC_STAT, .field, 0x14000000, 8, 1, 8, 1,
      [⟨0, 3, .ro, 28, fun _ _ => 0⟩,
       ⟨3, 2, .ro, 28, fun _ _ => 0⟩,
       ⟨5, 1, .ro, 28, fun _ _ => 0⟩,
       ⟨6, 3, .ro, 31, fun _ _ => 0⟩,
       ⟨9, 1, .ro, 31, fun _ _ => 0⟩,
       ⟨10, 12, .ro, 31, fun _ _ => 0⟩,
       ⟨22, 7, .ro, 31, fun _ _ => 0⟩,
       ⟨29, 1, .ro, 31, fun _ _ => 0⟩]⟩
  , ⟨.SEC_BOOT, .field, 0x14000008, 8, 1, 8, 1,
      [⟨0, 2, .ro, 28, fun _ _ => 0⟩,
       ⟨2, 1, .ro, 28, fun _ _ => 0⟩,
       ⟨3, 1, .ro, 28, fun _ _ => 0⟩,
       ⟨4, 4, .ro, 28, fun _ _ => 0⟩,
       ⟨8, 7, .ro, 28, fun _ _ => 0⟩,
       ⟨16, 32, .ro, 28, fun _ _ => 0⟩,
       ⟨48, 16, .ro, 31, fun _ _ => 0⟩]⟩
  , ⟨.SEC_MEAS, .field, 0x14000040, 8, 6, 8, 1,
      [⟨0, 64, .ro, 28, fun _ _ => 0⟩]⟩
  , ⟨.SEC_GMEAS, .field, 0x14000080, 8, 6, 8, 1,
      [⟨0, 64, .ro, 28, fun _ _ => 0⟩]⟩
  , ⟨.SEC_MBOX, .field, 0x14000100, 8, 8, 8, 1,
      [⟨0, 64, .rw, 28, fun _ _ => 0⟩]⟩
  , ⟨.SEC_MBCTL, .field, 0x14000140, 8, 1, 8, 1,
      [⟨0, 8, .rw, 28, fun _ _ => 0⟩,
       ⟨8, 6, .rw, 28, fun _ _ => 0⟩,
       ⟨14, 1, .w1s, 28, fun _ _ => 0⟩,
       ⟨15, 8, .ro, 28, fun _ _ => 0⟩]⟩
  , ⟨.SEC_VFY, .field, 0x14000200, 8, 1, 8, 1,
      [⟨0, 40, .rw, 28, fun _ _ => 0⟩]⟩
  , ⟨.SEC_VFYLEN, .field, 0x14000208, 8, 1, 8, 1,
      [⟨0, 40, .rw, 28, fun _ _ => 0⟩]⟩
  , ⟨.SEC_VFYKEY, .field, 0x14000210, 8, 1, 8, 1,
      [⟨0, 40, .rw, 28, fun _ _ => 0⟩,
       ⟨40, 2, .rw, 28, fun _ _ => 0⟩,
       ⟨42, 1, .w1s, 28, fun _ _ => 0⟩,
       ⟨43, 1, .ro, 28, fun _ _ => 0⟩,
       ⟨44, 4, .ro, 28, fun _ _ => 0⟩]⟩
  ]

/-- The registers of block OTP (R557). -/
def rowsOtp : List RegRow :=
  [
    ⟨.OTP_WORD, .field, 0x1c000000, 8, 0x58, 8, 1,
      [⟨0, 64, .ro, 31, fun _ _ => 0⟩]⟩
  , ⟨.OTP_PROG, .field, 0x1c001000, 8, 1, 8, 1,
      [⟨0, 7, .wo, 0, fun _ _ => 0⟩,
       ⟨7, 1, .wo, 0, fun _ _ => 0⟩,
       ⟨8, 1, .ro, 31, fun _ _ => 0⟩,
       ⟨9, 1, .w1c, 31, fun _ _ => 0⟩]⟩
  , ⟨.OTP_PROGDATA, .field, 0x1c001008, 8, 1, 8, 1,
      [⟨0, 64, .rw, 28, fun _ _ => 0⟩]⟩
  ]

/-- The whole register table. -/
def regTable : List RegRow :=
  rowsMode ++ rowsCtxtab ++ rowsTuft ++ rowsRouter ++ rowsFrouter ++ rowsEvt ++ rowsRefbus ++ rowsRef ++ rowsOutsched ++ rowsChg ++ rowsSched ++ rowsBank ++ rowsFlume ++ rowsMemctl ++ rowsDredge ++ rowsRunnel ++ rowsCulv ++ rowsSluice ++ rowsUst ++ rowsAxis ++ rowsAna ++ rowsMotor ++ rowsGpio ++ rowsTimer ++ rowsTape ++ rowsEth ++ rowsTime ++ rowsCan ++ rowsUart ++ rowsPcie ++ rowsUsb ++ rowsStor ++ rowsSvc ++ rowsPmb ++
  rowsSurvey ++ rowsSafe ++ rowsErr ++ rowsFault ++ rowsPwr ++ rowsSec ++ rowsOtp

end Sys2Proof.Machine
end

