-- ==== Sys2Proof/Machine/RegMap.lean ====
section
/-! DEFINITION. Which register and field stand at an address (R10, R11), and what each reset kind keeps of the register file (R14 to
R16). -/

namespace Sys2Proof.Machine

/-- A register found at an address: its row, its die, its indices. -/
structure RegAt where
  row : RegRow
  die : Nat
  i : Nat
  j : Nat

/-- A die of the part holds the blocks of a class. -/
def Main.dieHas (m : Main) (c : DieClass) (d : Nat) : Bool :=
  match c with
  | .field => d == 0
  | .compute => m.compute d
  | .memory => decide (6 ≤ d) && m.pop d

/-- The indices of the register of a row that stands at an offset of the die's register space. -/
def RegRow.index (r : RegRow) (off : Nat) : Option (Nat × Nat) :=
  let x := off - r.base
  let i := x / r.s1
  let j := x % r.s1 / r.s2
  if r.base ≤ off ∧ i < r.n1 ∧ j < r.n2 ∧ x % r.s1 % r.s2 = 0 then some (i, j) else none

/-- What an array register stands for exists: a culvert port with a partner in the part (R21), a reference (R192), a listed output channel
(R215). -/
def Main.exists_ (m : Main) (a : RegAt) : Bool :=
  match a.row.name with
  | .CULV_STAT | .CULV_ERR | .CULV_TXFLITS | .CULV_RXFLITS | .CULV_CTL | .CULV_LOST => (m.hw.part.partnerPort a.die a.i).isSome
  | .REF_SRC | .REF_SCALE | .REF_WIN | .REF_WEIR | .REF_POS | .REF_PRESET | .REF_VEL | .REF_SAMPLE | .REF_SAMPLET | .REF_XEVT | .REF_GUARD
  | .REF_STAT => a.i != 0
  | .OUTSCHED_CFG | .OUTSCHED_OWN | .OUTSCHED_STAT | .OUTSCHED_CTL => chanOk a.i
  | _ => true

/-- The register at a physical address: none where the die has no register there. -/
def Main.regAt (m : Main) (pa : Nat) : Option RegAt :=
  match regionOf pa with
  | .regs d off =>
    ((regTable.filter (fun r => m.dieHas r.dies d)).findSome? (fun r =>
      (r.index off).map fun x => { row := r, die := d, i := x.1, j := x.2 })).filter m.exists_
  | _ => none

/-- The field of an instance. -/
def RegAt.fld (a : RegAt) (pa : Nat) (f : RField) : Fld := { pa := pa, lo := f.lo, w := f.w, rst := f.rst a.i a.j }

/-- The Kept-by codes of R14 as the table holds them; power-on is none of them. -/
inductive ResetKind
  | powerOn | pin | warm | die | tuft | context
  deriving DecidableEq, Repr

/-- Whether a field with a Kept-by mask survives a reset kind (R14, R15). -/
def ResetKind.keeps (k : ResetKind) (mask : Nat) : Bool :=
  match k with
  | .powerOn => false
  | .pin => bitsOf mask 0 1 == 1
  | .warm => bitsOf mask 1 1 == 1
  | .die => bitsOf mask 2 1 == 1
  | .tuft => bitsOf mask 3 1 == 1
  | .context => bitsOf mask 4 1 == 1

/-- R16: the registers that the island holds. -/
def RegName.islandHolds (n : RegName) : Bool :=
  [RegName.SAFE_ID, .SAFE_STATE, .SAFE_PSET, .SAFE_MACHID, .SAFE_OUT, .SAFE_OUTERR, .SAFE_IN, .SAFE_SUPPLY, .SAFE_LINK, .SAFE_CH_FUNC,
    .SAFE_CH_POS, .SAFE_CH_SPEED, .GPIO_GATEMAP].contains n

/-- R14 to R16: a reset returns the registers in its scope to their reset values, except the fields that it keeps. The field die
router's placement copies (log 5), which have no address, go with every reset of the field die. -/
def Main.resetRegs (m : Main) (k : ResetKind) (inScope : RegAt → Bool) : Main :=
  { m with regs := m.regs.filter fun e =>
      let pa := e.1 / 64 * 8
      match m.regAt pa with
      | none => k == .die || k == .tuft || k == .context
      | some a =>
        !inScope a || a.row.name.islandHolds || match a.row.fields.find? (fun f => f.lo == e.1 % 64) with
          | none => true
          | some f => k.keeps f.kept }

end Sys2Proof.Machine
end

