-- ==== Sys2Proof/Machine/Access.lean ====
section
/-! DEFINITION. Which path may read and write what (R550, R552, R557). -/

namespace Sys2Proof.Machine

/-- R550: the number of a path that can hold a session; contexts hold none. -/
def Path.number (p : Path) : Option Nat :=
  match p with
  | .host => some 0
  | .usb => some 1
  | .i2c => some 2
  | .debug => some 3
  | .ctx0 | .ctx255 => none

/-- A path on which a context stores. -/
def Path.isCtx (p : Path) : Bool := p.number.isNone

/-- R550, R552: the level at which a path acts. Contexts 0 and 255 act at MAINTENANCE. -/
def Main.pathLevel (m : Main) (p : Path) : Nat :=
  let at_ := fun (k : Nat) => if m.flag F.SEC_STAT_SESSION && m.get F.SEC_STAT_PATH == k then m.get F.SEC_STAT_LEVEL else 0
  match p with
  | .ctx0 | .ctx255 => 2
  | .host => at_ 0
  | .usb => at_ 1
  | .i2c => at_ 2
  | .debug => at_ 3

/-- R551: a command or access of the session's own path starts its 900 s anew. -/
def Main.touch (m : Main) (p : Path) : Main :=
  if m.flag F.SEC_STAT_SESSION && p.number == some (m.get F.SEC_STAT_PATH) then { m with sec := { m.sec with last := m.now } } else m

/-- R552: a host reaches its channels, the doorbells and MSI-X at every level. -/
def RegName.hostOwn (n : RegName) : Bool :=
  [RegName.PCIE_CH_HTD, .PCIE_CH_HTDCTL, .PCIE_CH_DTH, .PCIE_CH_DTHCTL, .PCIE_DOORBELL, .PCIE_MSIX].contains n

/-- R552: a host reaches the mailbox at every level: the access-control commands are what raises a level (R551; log 138). -/
def RegName.mailbox (n : RegName) : Bool := [RegName.SEC_MBOX, .SEC_MBCTL].contains n

/-- R552: the registers that LOCKED may read. -/
def RegName.lockedRead (n : RegName) : Bool :=
  [RegName.MODE_IDENT, .MODE_CUR, .MODE_REQ, .MODE_STAT, .MODE_CTL, .MODE_RSTCAUSE, .MODE_DIERST, .MODE_TUFTRST, .MODE_CTXRST, .MODE_STBY,
    .MODE_DIE, .SAFE_ID, .SAFE_STATE, .SAFE_PSET, .SAFE_MACHID, .SAFE_OUT, .SAFE_OUTERR, .SAFE_IN, .SAFE_SUPPLY, .SAFE_LINK,
    .SAFE_CH_FUNC, .SAFE_CH_POS, .SAFE_CH_SPEED, .FAULT_SUMMARY, .FAULT_FIRST, .FAULT_LOG, .SURVEY_RECORD].contains n

/-- R552: the registers that SERVICE may write. -/
def RegName.serviceWrite (n : RegName) : Bool :=
  [RegName.SURVEY_CTL, .SURVEY_PLAN, .SURVEY_WVDC, .FAULT_CLASS_ACK, .PWR_REQ, .MODE_REQ].contains n

/-- R552: a path may read a register. -/
def Main.mayRead (m : Main) (p : Path) (n : RegName) : Bool :=
  decide (1 ≤ m.pathLevel p) || n.lockedRead || (p == .host && (n.hostOwn || n.mailbox))

/-- R557: the OTP words that a level may program. -/
def otpWordAt (level k v : Nat) : Bool :=
  (level == 2 || level == 3 || level == 4) &&
    (decide (2 ≤ k ∧ k ≤ 22 ∨ 29 ≤ k ∧ k ≤ 32 ∨ 37 ≤ k ∧ k ≤ 68 ∨ 72 ≤ k ∧ k ≤ 87) || (k == 69 && decide (v < 2))) ||
  level == 4 && decide (k ≤ 1 ∨ 23 ≤ k ∧ k ≤ 28 ∨ 33 ≤ k ∧ k ≤ 36)

/-- R557: the level at which a path may program OTP: its own session's, or for context 255 that of the session it relays. -/
def Main.otpLevel (m : Main) (p : Path) : Nat :=
  match p with
  | .ctx0 => 0
  | .ctx255 => if m.flag F.SEC_STAT_SESSION then m.get F.SEC_STAT_LEVEL else 0
  | _ => m.pathLevel p

/-- R46, R185, R515, R552, R557: a path may write a register. v is the value. -/
def Main.mayWrite (m : Main) (p : Path) (n : RegName) (v : Nat) : Bool :=
  if n = .FAULT_RAISE ∨ n = .FAULT_INJECT then p.isCtx
  else if n = .OTP_PROG then
    bitsOf v 7 1 == 0 && decide (2 ≤ m.pathLevel p) || bitsOf v 7 1 == 1 && otpWordAt (m.otpLevel p) (bitsOf v 0 7) (m.get F.OTP_PROGDATA_DATA)
  else decide (2 ≤ m.pathLevel p) || (decide (1 ≤ m.pathLevel p) && n.serviceWrite) || (p == .host && (n.hostOwn || n.mailbox))

/-! ### The answer to a path (R414, R551, R552) -/

/-- R414: status codes. -/
def stOk : Nat := 0
/-- R414. -/
def stOff : Nat := 1
/-- R414. -/
def stDenied : Nat := 2
/-- R414. -/
def stAlign : Nat := 3
/-- R414. -/
def stOwner : Nat := 4
/-- R414. -/
def stUe : Nat := 5
/-- R414. -/
def stPec : Nat := 6

/-- R414: what the path is answered, kept for reading by claims (log 165). -/
def Main.extAnswer (m : Main) (p : Path) (status : Nat) (data : List Nat) : Main :=
  { m with comm := { m.comm with ext := some { path := p, status := status, data := data } } }

/-- R538, R551, R552: a command that is a write of a register on a path. It is an access of the path's session, it is performed where the path may
write the register, and NAK_DENIED otherwise. In STANDBY the clock of the register stands. -/
def Main.regCmd (m : Main) (p : Path) (n : RegName) (v : Nat) (act : Main → Main) : Main :=
  if m.asleep then m
  else if (m.touch p).mayWrite p n v then (act (m.touch p)).extAnswer p stOk []
  else (m.touch p).extAnswer p stDenied []

end Sys2Proof.Machine
end

