-- ==== Sys2Proof/Machine/Once.lean ====
section
/-! DEFINITION. Effect-once requests of paired blocks and their comparator (R127, R246, R247). -/

namespace Sys2Proof.Machine

/-- The placement entry of a firing's block, as the router of its die holds it. -/
def Main.entryOf (m : Main) (f : Firing) : Nat := m.place f.die.val f.ctx.toNat (f.ia.extractLsb' 12 8).toNat

/-- Whether a firing's block has two copies that both act (R127, R248). -/
def Main.isPaired (m : Main) (f : Firing) : Bool := plPaired (m.entryOf f) && !m.sole f.ctx.toNat

/-- R246: whether the region of a firing's block holds a partner copy, which selects the table root. -/
def Main.isPartner (m : Main) (f : Firing) : Bool :=
  m.tuft.partner.contains (64 * f.die.val + 8 * f.tuft.val + plSlot (m.entryOf f) f.side)

/-- A comparator entry is for a firing's request (R247). -/
def CmpEntry.isFor (e : CmpEntry) (f : Firing) : Bool :=
  e.ctx == f.ctx && e.frame == f.frame && e.ia == f.ia && e.opc == f.i.opc.toNat

/-- The comparator entry of a firing's request, if there is one. -/
def Main.cmpOf (m : Main) (f : Firing) : Option CmpEntry := m.req.cmp.find? (fun e => e.isFor f)

/-- The return address of a firing: an effect-once request also answers the other copy. -/
def Main.retOnce (m : Main) (f : Firing) : Ret := { f.ret with once := (m.cmpOf f).isSome }

/-- The answer of a unit to a request: the results leave, for both copies of an effect-once request (R127). -/
def Main.answer (m : Main) (f : Firing) (o0 o1 : Option Opnd) : Main := (m.reply (m.retOnce f) o0 o1).rpDone f.replay 0

/-- The same answer to DEST0 and DEST1. -/
def Main.answerBoth (m : Main) (f : Firing) (o : Opnd) : Main := m.answer f (some o) (some o)

/-- R250: the comparison window in nanoseconds. -/
def Main.cmpWindow (m : Main) (c : Nat) : Nat :=
  Nat.max 1 (Nat.min 1000 (m.get (F.CTXTAB_PAIR_CMPWIN c))) * 1000

/-- Store a comparator entry in place of an old one, or drop it. -/
def Main.putCmp (m : Main) (old : CmpEntry) (new : List CmpEntry) : Main :=
  { m with req := { m.req with cmp := m.req.cmp.erase old ++ new } }

/-- The second copy of a request arrives (R247): it is compared, be it late or not, and answered with the first copy's result. -/
def Main.second (m : Main) (f : Firing) (e : CmpEntry) : Main :=
  let c := f.ctx.toNat
  let bad := m.flag (F.CTXTAB_PAIR_CMPEN c) &&
    !(e.left == f.left && e.right == f.right && e.third == f.third)
  let m := if bad then (m.bump (F.CTXTAB_PAIR_MISMATCH c)).raiseSrc 27 0 0 c else m
  match e.answer with
  | some a => ((m.putCmp e []).sendRet f.ret a.first a.second).rpDone f.replay 0
  | none => (m.putCmp e [{ e with second := some f.ret }]).rpDone f.replay 0

/-- R242: a request that the comparator serves before f: of a higher PRIO, or of the same PRIO and arrived earlier. -/
def Main.cmpBefore (m : Main) (f : Firing) : Bool :=
  m.req.cmpWait.any (fun g => decide (f.prio < g.prio)) ||
  (m.req.cmpWait.takeWhile (· != f)).any (fun g => decide (f.prio = g.prio))

/-- A first copy of a request (R247): it takes a comparator entry and is performed by body, or waits until one is free. -/
def Main.firstCopy (m : Main) (f : Firing) (body : Main → Main) : Main :=
  if m.flag (F.CTXTAB_PAIR_CMPEN f.ctx.toNat) && (decide (1024 ≤ m.req.cmp.length) || m.cmpBefore f) then
    if m.req.cmpWait.contains f then m
    else Main.bump { m with req := { m.req with cmpWait := m.req.cmpWait ++ [f] } } (F.CTXTAB_PAIR_STALLS f.ctx.toNat)
  else
    let e : CmpEntry := { ctx := f.ctx, frame := f.frame, ia := f.ia, opc := f.i.opc.toNat, left := f.left,
                          right := f.right, third := f.third, first := f.side, answer := none, second := none,
                          deadline := m.now + m.cmpWindow f.ctx.toNat, expired := false }
    let m := m.uncmp f
    body { m with req := { m.req with cmp := m.req.cmp ++ [e] } }

/-- A firing of an effect-once operation (R127, R247): the copy that arrives first is performed by body, the second one is only
compared and answered, with the oldest request of its key that has had no second copy. A first copy whose work was parked is performed when it
is replayed. -/
def Main.once (m : Main) (f : Firing) (body : Main → Main) : Main :=
  if !m.isPaired f then body (m.uncmp f)
  else match m.req.cmp.find? (fun e => e.isFor f && e.first != f.side && e.second.isNone) with
    | some e => (m.uncmp f).second f e
    | none =>
      if f.replay.isSome && m.req.cmp.any (fun e => e.isFor f && e.first == f.side && e.answer.isNone) then body (m.uncmp f)
      else m.firstCopy f body

/-- PAIR_WINDOW_EXPIRY (R247): a window closes without the second copy. The die named is that of the missing copy. -/
def Main.pairWindowExpiry (m : Main) (ctx : BitVec 8) (frame : BitVec 24) (ia : BitVec 20) : Main :=
  match m.req.cmp.find? (fun e => e.ctx == ctx && e.frame == frame && e.ia == ia && e.second.isNone && !e.expired) with
  | none => m
  | some e =>
    if !m.flag (F.CTXTAB_PAIR_CMPEN ctx.toNat) || decide (m.now < e.deadline) then m
    else
      let d := plDie (m.place 0 ctx.toNat (ia.extractLsb' 12 8).toNat) (!e.first)
      ((m.putCmp e [{ e with expired := true }]).bump (F.CTXTAB_PAIR_CMPTMO ctx.toNat)).raiseSrc 28 0 d ctx.toNat

/-- PAIR_WINDOW_EXPIRY: the comparator entry of a request, named by its key. -/
def execPairWindowExpiry (ctx : BitVec 8) (frame : BitVec 24) (ia : BitVec 20) (s : State) :
    Host.Outcome State Fault Refusal :=
  s.onMain fun m => m.pairWindowExpiry ctx frame ia

end Sys2Proof.Machine
end

