-- ==== Sys2Proof/Machine/Translate.lean ====
section
/-! DEFINITION. Virtual addresses, page tables, TLBs and walks (R271 to R278). -/

namespace Sys2Proof.Machine

/-- How a translated access is made: which TLB, context and table root (R271, R276). -/
structure Xlate where
  owner : TlbOwner
  ctx : BitVec 8
  part : Bool
  deriving DecidableEq, Repr

/-- R131: the effective address of a pointer and an offset. -/
def effAddr (base offset : Nat) : Nat := (base % 2 ^ 48 + offset) % 2 ^ 48

/-- The virtual page number of an address for a page size (R272). -/
def vpnOf (big : Bool) (va : Nat) : Nat := if big then va / 2 ^ 25 else va / 2 ^ 16

/-- The physical address that an entry gives (R272). -/
def TlbEntry.paOf (e : TlbEntry) (va : Nat) : Nat := if e.big then e.pa + va % 2 ^ 25 else e.pa + va % 2 ^ 16

/-- A TLB hit (R276). -/
def Main.tlbFind (m : Main) (x : Xlate) (va : Nat) : Option TlbEntry :=
  m.tuft.tlb.find? (fun e => e.owner == x.owner && e.ctx == x.ctx && e.part == x.part && e.vpn == vpnOf e.big va)

/-- R276: the number of entries of a TLB. -/
def TlbOwner.size : TlbOwner → Nat
  | .tuft _ _ => 256
  | .flumes d => if d = 0 then 64 else 128

/-- R276: insert an entry. Pseudo-LRU picks the victim of a full TLB: a free value here (log 29). -/
def Main.tlbInsert (m : Main) (e : TlbEntry) : Main :=
  let mine := m.tuft.tlb.filter (fun x => x.owner == e.owner)
  let rest := m.tuft.tlb.filter (fun x => x.owner != e.owner)
  if mine.contains e then m
  else if mine.length < e.owner.size then { m with tuft := { m.tuft with tlb := rest ++ mine ++ [e] } }
  else
    let r := m.takeFree
    { r.2 with tuft := { r.2.tuft with tlb := rest ++ mine.eraseIdx (r.1 % mine.length) ++ [e] } }

/-- R276: the walk cache of a tuft, 32 entries. -/
def Main.wcInsert (m : Main) (e : WalkEntry) : Main :=
  let mine := m.tuft.wcache.filter (fun x => x.die == e.die && x.tuft == e.tuft)
  let rest := m.tuft.wcache.filter (fun x => !(x.die == e.die && x.tuft == e.tuft))
  if mine.contains e then m
  else if mine.length < 32 then { m with tuft := { m.tuft with wcache := rest ++ mine ++ [e] } }
  else
    let r := m.takeFree
    { r.2 with tuft := { r.2.tuft with wcache := rest ++ mine.eraseIdx (r.1 % mine.length) ++ [e] } }

/-- A walk-cache hit at a level. -/
def Main.wcFind (m : Main) (x : Xlate) (level tag : Nat) : Option Nat :=
  match x.owner with
  | .flumes _ => none
  | .tuft d t => (m.tuft.wcache.find? (fun e => e.die == d && e.tuft == t && e.ctx == x.ctx && e.part == x.part &&
      e.level == level && e.tag == tag)).map (fun e => e.base)

/-- Remember a table for later walks (R276: only a tuft has a walk cache). -/
def Main.wcKeep (m : Main) (x : Xlate) (level tag base : Nat) : Main :=
  match x.owner with
  | .flumes _ => m
  | .tuft d t => m.wcInsert { die := d, tuft := t, ctx := x.ctx, part := x.part, level := level, tag := tag, base := base }

/-- What a physical read of a walk meets (R275): the entry, a target at pa that makes it wait, an error. -/
inductive WalkRead
  | ok (entry : Nat) (m : Main)
  | wait (pa : Nat)
  | err (m : Main)

/-- R275: whether a walk of a die can read an address now: none for not yet, otherwise yes or no. -/
def Main.walkGate (m : Main) (s pa : Nat) : Option Bool :=
  match regionOf pa with
  | .none_ _ => some false
  | .regs _ _ => some false
  | .fsram _ _ => some true
  | .dram d _ =>
    if !m.pop d || !m.dieLive d || m.lostFrom s d then some false else if m.flag (F.MEMCTL_STAT_READY d) then some true else none
  | .scratch d b _ _ =>
    if !m.compute d || !m.reaches s d then some false
    else match m.get (F.BANK_PWR_STATE d b) with
      | 0 => some true
      | 1 => if m.flag (F.BANK_PWR_AUTOWAKE d b) then none else some false
      | 2 => some false
      | _ => none

/-- The die from which a walk reads, and whether it is a flume's. -/
def TlbOwner.reader : TlbOwner → Nat × Bool
  | .tuft d _ => (d.val, false)
  | .flumes d => (d.val, true)

/-- A walk read of one table entry (R275): physical, and not checked against ownership. -/
def Main.walkRead (m : Main) (x : Xlate) (pa : Nat) : WalkRead :=
  match m.walkGate x.owner.reader.1 pa with
  | none => .wait pa
  | some false => .err m
  | some true =>
    match (m.freeWait x.owner.reader.1 x.owner.reader.2 pa).readMem pa 8 with
    | (some v, m) => .ok v m
    | (none, m) => .err m

/-- The outcome of a walk (R272 to R275): a mapping, a fault with level and reason, or not yet, for the target at a physical address. -/
inductive Walk
  | ok (e : TlbEntry) (m : Main)
  | fault (level reason : Nat) (m : Main)
  | wait (pa : Nat)

/-- R273: what a table entry says at a level: 0 a further table, 1 a page; or the reason of the fault. -/
def pteKind (level e : Nat) : Except Nat Bool :=
  if bitsOf e 0 1 = 0 then .error 0
  else if bitsOf e 5 7 ≠ 0 then .error 1
  else
    let leaf := bitsOf e 1 1 == 1
    match level with
    | 1 => if leaf then .error 1 else .ok false
    | 2 => if leaf then (if bitsOf e 12 13 ≠ 0 then .error 1 else .ok true) else .ok false
    | _ => if leaf then (if bitsOf e 12 4 ≠ 0 then .error 1 else .ok true) else .error 1

/-- PA[39:12] of an entry as an address (R273). -/
def ptePa (e : Nat) : Nat := bitsOf e 12 28 * 4096

/-- The TLB entry of a leaf (R276). -/
def leafEntry (x : Xlate) (big : Bool) (va e : Nat) : TlbEntry :=
  { owner := x.owner, ctx := x.ctx, part := x.part, big := big, vpn := vpnOf big va, pa := ptePa e,
    r := bitsOf e 2 1 == 1, w := bitsOf e 3 1 == 1, is_ := bitsOf e 4 1 == 1 }

/-- The level-3 read of a walk. -/
def Main.walk3 (m : Main) (x : Xlate) (va base : Nat) : Walk :=
  match m.walkRead x (base + bitsOf va 16 9 * 8) with
  | .wait a => .wait a
  | .err m => .fault 3 2 m
  | .ok e m =>
    match pteKind 3 e with
    | .error r => .fault 3 r m
    | .ok _ => .ok (leafEntry x false va e) m

/-- The level-2 read of a walk. -/
def Main.walk2 (m : Main) (x : Xlate) (va base : Nat) : Walk :=
  match m.walkRead x (base + bitsOf va 25 11 * 8) with
  | .wait a => .wait a
  | .err m => .fault 2 2 m
  | .ok e m =>
    match pteKind 2 e with
    | .error r => .fault 2 r m
    | .ok true => .ok (leafEntry x true va e) m
    | .ok false => (m.wcKeep x 2 (bitsOf va 25 23) (ptePa e)).walk3 x va (ptePa e)

/-- The level-1 read of a walk. -/
def Main.walk1 (m : Main) (x : Xlate) (va base : Nat) : Walk :=
  match m.walkRead x (base + bitsOf va 36 12 * 8) with
  | .wait a => .wait a
  | .err m => .fault 1 2 m
  | .ok e m =>
    match pteKind 1 e with
    | .error r => .fault 1 r m
    | .ok _ => (m.wcKeep x 1 (bitsOf va 36 12) (ptePa e)).walk2 x va (ptePa e)

/-- R271: the root of a context's tables. -/
def Main.ptRoot (m : Main) (c : Nat) (part : Bool) : Nat :=
  (if part then m.get (F.CTXTAB_PAIR_PROOT c) else m.get (F.CTXTAB_PTROOT_ROOT c)) * 4096

/-- R272, R276: a walk starts at the deepest table that the walk cache holds. -/
def Main.walk (m : Main) (x : Xlate) (va : Nat) : Walk :=
  match m.wcFind x 2 (bitsOf va 25 23) with
  | some b => m.walk3 x va b
  | none =>
    match m.wcFind x 1 (bitsOf va 36 12) with
    | some b => m.walk2 x va b
    | none => m.walk1 x va (m.ptRoot x.ctx.toNat x.part)

/-- R271: translation is enabled for a context. -/
def Main.xlateOn (m : Main) (c : Nat) : Bool := m.flag (F.CTXTAB_PTROOT_EN c)

/-- R163, R277, R278: remove the TLB entries of a context for the page of an address, or all of them with the walk caches. -/
def Main.tlbDrop (m : Main) (c : BitVec 8) (va : Option Nat) : Main :=
  { m with tuft := { m.tuft with
      tlb := m.tuft.tlb.filter (fun e => e.ctx != c || match va with
        | some a => e.vpn != vpnOf e.big a
        | none => false),
      wcache := m.tuft.wcache.filter (fun e => e.ctx != c || match va with
        | some a => !((e.level == 1 && e.tag == bitsOf a 36 12) || (e.level == 2 && e.tag == bitsOf a 25 23))
        | none => false) } }

end Sys2Proof.Machine
end

