-- ==== Sys2Proof/Machine/MemOps.lean ====
section
/-! DEFINITION. Memory, atomic, alias and I-structure operations (R130 to R139): the checks at the tuft and the issue of the
request. MEMORY_RESPONSE (MemResponse.lean) performs it at its target. -/

namespace Sys2Proof.Machine

/-- What an operation needs of a page (R274): read, write. -/
def MemOp.needs : MemOp → Bool × Bool
  | .load | .iload | .pload => (true, false)
  | .store | .istore | .iclear | .pstore => (false, true)
  | _ => (true, true)

/-- An atomic operation (R134). -/
def MemOp.atomic : MemOp → Bool
  | .aadd | .aand | .aor | .axor | .axchg | .acas => true
  | _ => false

/-- An I-structure operation (R138). -/
def MemOp.istr : MemOp → Bool
  | .iload | .istore | .iclear => true
  | _ => false

/-- Whether the right operand is an offset (R130, R138): not for the atomics. -/
def MemOp.offsets (o : MemOp) : Bool := !o.atomic

/-- R130: the data operands of a request. -/
def MemOp.data (o : MemOp) (f : Firing) : Word × Word :=
  match o with
  | .store | .istore | .pstore => (f.third.value, 0)
  | .acas => (f.right.value, f.third.value)
  | _ => (f.right.value, 0)

/-- The virtual address of a memory operation (R131). -/
def Firing.va (f : Firing) (o : MemOp) : Nat :=
  effAddr f.left.value.toNat (if o.offsets then f.right.value.toNat else 0)

/-- R131, R133, R256: the alignment that an access of n bytes must have. -/
def aligned (pa n : Nat) (aliasNo : Nat) : Bool :=
  if aliasNo = 3 then pa / 0x100000 == (pa + n - 1) / 0x100000 else pa % n == 0

/-- The alias number of an address (R254). -/
def aliasOf (pa : Nat) : Nat :=
  match regionOf pa with
  | .scratch _ _ _ a => a
  | .fsram _ a => a
  | _ => 0

/-- R266: the MiB of field SRAM that is reserved for context 255. -/
def reservedFsram (pa : Nat) : Bool :=
  match regionOf pa with
  | .fsram off _ => decide (off < 0x100000)
  | _ => false

/-- Register space (R254). -/
def isRegs (pa : Nat) : Bool :=
  match regionOf pa with
  | .regs _ _ => true
  | _ => false

/-- Scratch of a compute die. -/
def isScratch (pa : Nat) : Bool :=
  match regionOf pa with
  | .scratch _ _ _ _ => true
  | _ => false

/-- R274: the detail of a PROTECTION fault, 0 when there is none. -/
def protDetail (c : Nat) (o : MemOp) (pa : Nat) (r w : Bool) : Nat :=
  b2n (o.needs.1 && !r) + 2 * b2n (o.needs.2 && !w) + 4 * b2n (isRegs pa) + 8 * b2n (reservedFsram pa && c != 255)

/-- Put a request into the tuft's requests (R124). -/
def Main.issue (m : Main) (f : Firing) (o : MemOp) (pa bytes : Nat) : Main :=
  let d := o.data f
  { m with req := { m.req with
      reqs := m.req.reqs ++ [{ f := f, op := o, pa := pa, bytes := bytes, data := d.1, data2 := d.2 }] } }

/-- The checks after translation, in the order of R350: protection, I-structure type, alias (log 221), alignment. -/
def Main.memChecked (m : Main) (f : Firing) (o : MemOp) (va : Nat) (e : TlbEntry) : Main :=
  let pa := e.paOf va
  let n := f.w / 8
  let p := protDetail f.ctx.toNat o pa e.r e.w
  if p ≠ 0 then m.parkOp f fcProtection p va
  else if o.istr != e.is_ || (e.is_ && !isScratch pa) then m.parkOp f fcIstructType 0 va
  else if (o.atomic || o.istr) && aliasOf pa != 0 then m.parkOp f fcAliasAtomic 0 va
  else if !aligned pa n (aliasOf pa) then m.parkOp f fcMisaligned 0 va
  else m.issue f o pa n

/-- How a firing's accesses are translated. -/
def Main.xlateOf (m : Main) (f : Firing) : Xlate := { owner := .tuft f.die f.tuft, ctx := f.ctx, part := m.isPartner f }

/-- A translated operation at the TLB (R271, R276): a hit goes on, a miss waits for a walk. -/
def Main.xlateFor (m : Main) (f : Firing) (va : Nat) (hit : Main → TlbEntry → Main) : Main :=
  if !m.xlateOn f.ctx.toNat then m.parkOp f fcTranslation 1 va
  else match m.tlbFind (m.xlateOf f) va with
    | some e => hit m e
    | none =>
      Main.bump { m with req := { m.req with walks := m.req.walks ++ [f] } } (F.TUFT_TLBSTAT_MISSES f.die.val f.tuft.val)

/-- A memory operation of a firing (R130, R138). -/
def Main.memOp (m : Main) (f : Firing) (o : MemOp) : Main :=
  if !f.left.isAddress then m.badOperand f 0
  else m.xlateFor f (f.va o) fun m e => m.memChecked f o (f.va o) e

/-- LOAD (R130, R131). -/
def execLoad (f : Firing) (s : State) : Host.Outcome State Fault Refusal :=
  s.onMain fun m => m.fireReq f .load fun m => m.memOp f .load

/-- STORE (R130, R131). -/
def execStore (f : Firing) (s : State) : Host.Outcome State Fault Refusal :=
  s.onMain fun m => m.fireReq f .store fun m => m.memOp f .store

/-- AADD (R130, R134). -/
def execAadd (f : Firing) (s : State) : Host.Outcome State Fault Refusal :=
  s.onMain fun m => m.fireReq f .aadd fun m => m.memOp f .aadd

/-- AAND (R130, R134). -/
def execAand (f : Firing) (s : State) : Host.Outcome State Fault Refusal :=
  s.onMain fun m => m.fireReq f .aand fun m => m.memOp f .aand

/-- AOR (R130, R134). -/
def execAor (f : Firing) (s : State) : Host.Outcome State Fault Refusal :=
  s.onMain fun m => m.fireReq f .aor fun m => m.memOp f .aor

/-- AXOR (R130, R134). -/
def execAxor (f : Firing) (s : State) : Host.Outcome State Fault Refusal :=
  s.onMain fun m => m.fireReq f .axor fun m => m.memOp f .axor

/-- AXCHG (R130, R134). -/
def execAxchg (f : Firing) (s : State) : Host.Outcome State Fault Refusal :=
  s.onMain fun m => m.fireReq f .axchg fun m => m.memOp f .axchg

/-- ACAS (R130, R134). -/
def execAcas (f : Firing) (s : State) : Host.Outcome State Fault Refusal :=
  s.onMain fun m => m.fireReq f .acas fun m => m.memOp f .acas

/-- ILOAD (R138). -/
def execIload (f : Firing) (s : State) : Host.Outcome State Fault Refusal :=
  s.onMain fun m => m.fireReq f .iload fun m => m.memOp f .iload

/-- ISTORE (R138). -/
def execIstore (f : Firing) (s : State) : Host.Outcome State Fault Refusal :=
  s.onMain fun m => m.fireReq f .istore fun m => m.memOp f .istore

/-- ICLEAR (R138). -/
def execIclear (f : Firing) (s : State) : Host.Outcome State Fault Refusal :=
  s.onMain fun m => m.fireReq f .iclear fun m => m.memOp f .iclear

/-! ### Performing a request at memory -/

/-- Whether an access of a die to an address uses port B of its bank (R262, R266): a culvert access. -/
def viaPortB (die : Nat) (pa : Nat) : Bool :=
  match regionOf pa with
  | .scratch d _ _ _ => d != die
  | .fsram _ _ => die != 0
  | _ => false

/-- What the result of a read is (R131): by FLAGS, in W bits extended by SX. -/
def Firing.loaded (f : Firing) (v : Nat) : Opnd :=
  match f.i.flags.toNat with
  | 1 => opnd tyFp64 v
  | 2 => opnd tyFp32 v
  | 3 => opnd (if canonical v then tyPtr else tyInt) v
  | _ => { value := extInt f.w f.sx v, typ := tyInt }

/-- The new value of an atomic, or none when it writes nothing (R134). -/
def MemOp.newValue (o : MemOp) (bytes old : Nat) (d d2 : Word) : Option Nat :=
  let x := d.toNat % 256 ^ bytes
  match o with
  | .aadd => some ((old + x) % 256 ^ bytes)
  | .aand => some (old &&& x)
  | .aor => some (old ||| x)
  | .axor => some (old ^^^ x)
  | .axchg => some x
  | .acas => if old = x then some (d2.toNat % 256 ^ bytes) else none
  | _ => none

/-- Presence state of an I-structure word: 0 EMPTY, 1 FULL, 2 DEFERRED (R137). -/
def Main.presence (m : Main) (wa : Nat) : Nat := nmGet m.mem.istr wa 0

/-- Set the presence state of a word. -/
def Main.setPresence (m : Main) (wa st : Nat) : Main :=
  { m with mem := { m.mem with istr := nmPut m.mem.istr wa st 0 } }

/-- R139: defer a read in the table of its die. -/
def Main.deferRead (m : Main) (f : Firing) (die : Fin 8) (wa : Nat) : Main :=
  let d : DeferEntry := { die := die, word := wa, ret := f.ret, flags := f.i.flags }
  Main.rpDone ({ m with req := { m.req with defer := m.req.defer ++ [d] } }.setPresence wa 2) f.replay 0

/-- The typed value that a deferred read delivers (R139, R131). -/
def DeferEntry.opnd (d : DeferEntry) (v : Nat) : Opnd :=
  match d.flags.toNat with
  | 1 => Machine.opnd tyFp64 v
  | 2 => Machine.opnd tyFp32 v
  | 3 => Machine.opnd (if canonical v then tyPtr else tyInt) v
  | _ => Machine.opnd tyInt v

/-- R139: deliver the deferred reads of a word in the order in which they were recorded. -/
def Main.deliverDeferred (m : Main) (wa v : Nat) : Main :=
  let mine := m.req.defer.filter (fun d => d.word == wa)
  let m := { m with req := { m.req with defer := m.req.defer.filter (fun d => d.word != wa) } }
  mine.foldl (fun m d => (m.sendRet d.ret (some (d.opnd v)) (some (d.opnd v))).observe d.ret.ctx) m

end Sys2Proof.Machine
end

