-- ==== Sys2Proof/Machine/RunnelEng.lean ====
section
/-! DEFINITION. The runnel engine (R310 to R323): what it holds of a runnel, room and visibility, aborting and committing packets,
receiving words, watermarks, enable and disable. The operations (RunnelOps.lean) and the interface units use these. -/

namespace Sys2Proof.Machine

/-! ### Unit enables (R365) -/

/-- A unit holds itself enabled (R365). -/
def Main.live (m : Main) (u : UnitId) : Bool := m.ust.live.contains u

/-- The field of the table that holds a unit's bit, and the bit. -/
def UnitId.place (u : UnitId) : Fld × Nat :=
  match u with
  | .runnel d i => (F.UST_RUN_EN d (i / 64), i % 64)
  | .flume d i => (F.UST_FLUME_EN d, i)
  | .channel n => (F.UST_OUT_EN (n / 64), n % 64)
  | .sluice n => (F.UST_SLUICE_EN (n / 64), n % 64)
  | .iface n => (F.UST_UNIT_EN (n / 64), n % 64)

/-- The die on which a unit lies. -/
def UnitId.die (u : UnitId) : Nat :=
  match u with
  | .runnel d _ => d
  | .flume d _ => d
  | _ => 0

/-- The unit's enable in the table. -/
def Main.ustOn (m : Main) (u : UnitId) : Bool := bitsOf (m.get u.place.1) u.place.2 1 == 1

/-- R4, R126: a request from a die meets an enabled unit; one to a die that does not answer is judged by the table, and one to an absent die meets none
that is disabled. -/
def Main.serves (m : Main) (s : Nat) (u : UnitId) : Bool := if m.reaches s u.die then m.live u else !m.pop u.die || m.ustOn u

/-! ### Configuration (R312, R313, R333, R482) -/

/-- R125: the runnel ID of a runnel. -/
def rnId (d i : Nat) : Nat := i + d * 2 ^ 14

/-- First slot of the word store (R310, R482). -/
def Main.rnBase (m : Main) (d i : Nat) : Nat :=
  if d = 0 ∧ i = 4095 then 32640 else if d = 0 ∧ i = 4094 then 32512 else m.get (F.RUNNEL_CFG_BASE d i)

/-- Slots of the runnel (R310, R482). -/
def Main.rnCap (m : Main) (d i : Nat) : Nat :=
  if d = 0 ∧ (i = 4095 ∨ i = 4094) then 128 else m.get (F.RUNNEL_CFG_CAP d i)

/-- CFG.PUSH (R317, R482). -/
def Main.rnPush (m : Main) (d i : Nat) : Bool :=
  !(d == 0 && (i == 4095 || i == 4094)) && m.flag (F.RUNNEL_CFG_PUSH d i)

/-- The producer endpoint: KIND and ID (R313, R482). -/
def Main.rnProd (m : Main) (d i : Nat) : Nat × Nat :=
  if d = 0 ∧ i = 4094 then (1, 0xFE) else (m.get (F.RUNNEL_PROD_KIND d i), m.get (F.RUNNEL_PROD_ID d i))

/-- The consumer endpoint: KIND and ID (R313, R482). -/
def Main.rnCons (m : Main) (d i : Nat) : Nat × Nat :=
  if d = 0 ∧ i = 4095 then (1, 0xFE) else (m.get (F.RUNNEL_CONS_KIND d i), m.get (F.RUNNEL_CONS_ID d i))

/-- A runnel with a unit endpoint crosses into an interface clock (R322). -/
def Main.rnCrosses (m : Main) (d i : Nat) : Bool := (m.rnProd d i).1 == 1 || (m.rnCons d i).1 == 1

/-! ### The engine's record -/

/-- What the engine holds of a runnel. -/
def Main.rn (m : Main) (d i : Nat) : Runnel :=
  (m.runnels.find? (fun r => r.die == d && r.idx == i)).getD
    { die := d, idx := i, pkts := [], open_ := none, held := [], out := 0 }

/-- R314: the slots that an open packet holds. A doomed or aborted packet holds none (log 33). -/
def OpenPkt.slots (p : OpenPkt) : Nat := if p.doomed || p.aborted then 0 else Nat.max 1 p.words.length

/-- R314: occupancy. -/
def Runnel.occ (r : Runnel) : Nat :=
  (r.pkts.map (fun p => p.words.length - p.got)).sum + (match r.open_ with
    | some p => p.slots
    | none => 0)

/-- R319: watermark events for a change of occupancy. -/
def Main.watermark (m : Main) (d i old new : Nat) : Main :=
  let ev := fun (m : Main) (low : Nat) =>
    m.event (640 + m.get (F.RUNNEL_WMARK_SRC d i)) (rnId d i + low * 2 ^ 17 + Nat.min new 0x3FFF * 2 ^ 18)
  let hi := m.get (F.RUNNEL_WMARK_HI d i)
  let lo := m.get (F.RUNNEL_WMARK_LO d i)
  let m := if m.flag (F.RUNNEL_WMARK_HIEN d i) && decide (old < hi ∧ hi ≤ new) then ev m 0 else m
  if m.flag (F.RUNNEL_WMARK_LOEN d i) && decide (lo < old ∧ new ≤ lo) then ev m 1 else m

/-- Store the record of a runnel. No more packets can be unseen than it holds. -/
def Main.storeRn (m : Main) (r : Runnel) : Main :=
  let r := { r with commitLag := Nat.min r.commitLag r.pkts.length }
  let rest := m.runnels.filter (fun x => !(x.die == r.die && x.idx == r.idx))
  let blank := r.pkts.isEmpty && r.open_.isNone && r.held.isEmpty && r.out == 0 && r.frees.isEmpty
  { m with runnels := if blank then rest else rest ++ [r] }

/-- The words that the consumer side of a runnel sees (R323). -/
def Runnel.seen (r : Runnel) : Nat := ((r.pkts.take (r.pkts.length - r.commitLag)).map (fun p => p.words.length - p.got)).sum

/-- R319, R323: the occupancy that the engine side sees: what a unit producer has committed is not all visible to it yet, nor is what a
unit consumer has freed. -/
def Main.rnShown (m : Main) (r : Runnel) : Nat :=
  if (m.rnProd r.die r.idx).1 = 1 then r.seen
  else if (m.rnCons r.die r.idx).1 = 1 then r.occ + r.frees.length
  else r.occ

/-- Store the record of a runnel, with the watermark events of the change (R319, R323). -/
def Main.putRn (m : Main) (r : Runnel) : Main :=
  (m.storeRn r).watermark r.die r.idx (m.rnShown (m.rn r.die r.idx)) (m.rnShown r)

/-- Requests held by the engine of a die (RUNNEL.ENG.HELD). -/
def Main.rnHeld (m : Main) (d : Nat) : Nat := ((m.runnels.filter (fun r => r.die == d)).map (fun r => r.held.length)).sum

/-- R72, R73: a push runnel of a throttled consumer reports full. -/
def Main.rnBlocked (m : Main) (d i : Nat) : Bool := m.rnPush d i && m.throttled (m.rnCons d i).2

/-- R314, R323: the producer side finds room for n more words: the slots in use, and those freed that it has not seen yet. -/
def Main.rnRoomFor (m : Main) (r : Runnel) (n : Nat) : Bool :=
  decide (r.occ + r.frees.length + n ≤ m.rnCap r.die r.idx) && !m.rnBlocked r.die r.idx

/-- There is room for one more word. -/
def Main.rnRoom (m : Main) (r : Runnel) : Bool := m.rnRoomFor r 1

/-- R581: the period in ps of a unit's side of its runnels. -/
def unitPs (u : Nat) : Nat :=
  if u ≤ 6 then 8000
  else if u ≤ 0x13 then 12500
  else if u ≤ 0x2F then 10000
  else if u ≤ 0x37 then 4000
  else if u ≤ 0x39 then 16667
  else if u = 0x60 ∨ u = 0x61 then 40000
  else 5000

/-- The period in ps of the side of an endpoint: a context's is the field die's, 800 MHz. -/
def sidePs (e : Nat × Nat) : Nat := if e.1 = 1 then unitPs e.2 else 1250

/-- R323: by how many ps a commit is seen by the consumer side at the latest, and a freed slot by the producer side. -/
def Main.commitBound (m : Main) (d i : Nat) : Nat := 2 * sidePs (m.rnCons d i) + sidePs (m.rnProd d i)
def Main.freeBound (m : Main) (d i : Nat) : Nat := 2 * sidePs (m.rnProd d i) + sidePs (m.rnCons d i)

/-- R322, R323: the producer side's synchronised free count stands at most lag slots behind: never at a slot that the count has not reached,
nor behind one that is past its bound. -/
def Main.rnSeeFrees (m : Main) (d i lag : Nat) : Main :=
  let r := m.rn d i
  let out := fun (k : Nat) => (r.frees.filter (fun t => decide (1000 * m.now + k < t))).length
  let n := Nat.max (out (m.freeBound d i)) (Nat.min lag (out 0))
  if r.frees.length ≤ n then m else m.putRn { r with frees := r.frees.drop (r.frees.length - n) }

/-- R322, R323: the consumer side's synchronised commit count stands at most lag packets behind, and behind none that is past its bound. -/
def Main.rnSeeCommits (m : Main) (d i lag : Nat) : Main :=
  let r := m.rn d i
  let n := Nat.min lag (r.pkts.filter (fun p => decide (1000 * m.now < 1000 * p.at_ + m.commitBound d i))).length
  if r.commitLag ≤ n then m else m.putRn { r with commitLag := n }

/-- R323: what has crossed by now on every runnel, at the latest. -/
def Main.rnCross (m : Main) : Main :=
  m.runnels.foldl (fun m r => (m.rnSeeFrees r.die r.idx r.frees.length).rnSeeCommits r.die r.idx r.commitLag) m

/-- R322, R323: the consumer side frees n slots of a runnel, one in each of its cycles. -/
def Main.rnFrees (m : Main) (r : Runnel) (n : Nat) : Runnel :=
  if m.rnCrosses r.die r.idx then
    let c := sidePs (m.rnCons r.die r.idx)
    let t := Nat.max (1000 * m.now + m.freeBound r.die r.idx) ((r.frees.getLast?.map (fun t => t + c)).getD 0)
    { r with frees := r.frees ++ (List.range n).map (fun k => t + k * c) }
  else r

/-- R323: the consumer side sees a packet. -/
def Runnel.visible (r : Runnel) : Bool := decide (r.commitLag < r.pkts.length)

/-- Take the next serial of the producer's sequence (R141, R142). -/
def Main.rnSerial (m : Main) (d i : Nat) : Nat × Main :=
  let s := m.get (F.RUNNEL_SEQ_SER d i)
  (s, m.set (F.RUNNEL_SEQ_SER d i) ((s + 1) % 2 ^ 16))

/-- R144: the fault token of a packet abort goes to the producer's handler, when the producer is a context. -/
def Main.rnFault (m : Main) (d i code : Nat) (by_ : Option Ret) : Main :=
  let p := m.rnProd d i
  if p.1 = 1 then m
  else
    let b : Ret := by_.getD { die := 0, tuft := 0, ctx := 0, frame := 0, ia := 0, once := false, side := false, dest0 := 0,
                              dest1 := 0, tagop := 0 }
    m.faultOnly { ctx := p.2, code := code, detail := rnId d i % 65536, object := rnId d i, frame := b.frame, side := b.side,
                  ia := b.ia, die := b.die, tuft := b.tuft }

/-- R144: abort the open packet of a runnel with a code: its words are rewound and its slots freed; it stays open. -/
def Main.rnAbort (m : Main) (d i code : Nat) : Main :=
  let r := m.rn d i
  match r.open_ with
  | none => m
  | some p =>
    if p.aborted then m
    else
      let m := m.putRn { r with open_ := some { p with words := [], aborted := true } }
      (m.bump (F.RUNNEL_STAT_ABORTS d i)).rnFault d i code p.by_

/-- R486: in SURVEY mode a permission packet on the request runnel is discarded. -/
def Main.rnDiscards (m : Main) (d i : Nat) (words : List Opnd) : Bool :=
  d == 0 && i == 4095 && m.mode == 2 && match words with
    | w :: _ => decide (0x40 ≤ bitsOf w.value.toNat 0 8 ∧ bitsOf w.value.toNat 0 8 ≤ 0x7F)
    | [] => false

/-- R315: make a packet visible; the open packet is then o. False when R486 discards the packet. -/
def Main.rnCommit (m : Main) (d i serial : Nat) (words : List Opnd) (o : Option OpenPkt) : Bool × Main :=
  let r := { m.rn d i with open_ := o }
  if m.rnDiscards d i words then (false, (m.putRn r).bump (F.RUNNEL_STAT_ABORTS d i))
  else (true, m.putRn { r with pkts := r.pkts ++ [{ serial := serial, words := words, got := 0, since := m.now, at_ := m.now }],
                               commitLag := r.commitLag + b2n (m.rnCrosses d i) })

/-- The EMPTYPKT word (R42, R141). -/
def emptyPkt : Opnd := opnd tyEmpty 0

/-- R311: a corrected read of the word store is counted. -/
def Main.rnCe (m : Main) (d : Nat) (ecc : Ecc) : Main :=
  if ecc = .corrected then m.bump (F.RUNNEL_ENG_CE d) else m

/-- R311: the corrected reads among those of several words, up to the first uncorrectable one. -/
def Main.rnCes (m : Main) (d : Nat) (eccs : List Ecc) : Main :=
  (eccs.takeWhile (fun e => e != .uncorrectable)).foldl (fun m e => m.rnCe d e) m

/-- A word that the consumer side takes (R141, R311): its value, its index, whether it is the last, and its packet's serial;
lost when the rest of the packet has been dropped (R146). -/
inductive Taken
  | none_
  | word (o : Opnd) (index : Nat) (last : Bool) (serial : Nat) (m : Main)
  | lost (index : Nat) (m : Main)

/-- Take the next visible word of a runnel (R141, R146, R311). -/
def Main.rnTake (m : Main) (d i : Nat) (ecc : Ecc) : Taken :=
  let r := m.rn d i
  match (if r.visible then r.pkts else []) with
  | [] => .none_
  | p :: ps =>
    if ecc = .uncorrectable then
      .lost p.got ((((m.putRn { m.rnFrees r (p.words.length - p.got) with pkts := ps }).bump (F.RUNNEL_ENG_UE d)).bump (F.RUNNEL_STAT_BADPKT d i)).raiseSrc 16 d d i)
    else match p.words[p.got]? with
      | none => .none_
      | some o =>
        let last := decide (p.got + 1 = p.words.length)
        .word o p.got last p.serial
          ((m.putRn { m.rnFrees r 1 with pkts := if last then ps else { p with got := p.got + 1 } :: ps }).rnCe d ecc)

/-- The packets of a runnel once the one at the head has left at a time: the next can be taken from then on. -/
def headSince (now : Nat) : List Packet → List Packet
  | [] => []
  | p :: ps => { p with since := Nat.max p.since now } :: ps

/-- A unit takes a whole visible packet (R412): its words, or none when none is visible. -/
def Main.rnTakePkt (m : Main) (d i : Nat) : Option (List Nat × Main) :=
  let r := m.rn d i
  match (if r.visible then r.pkts else []) with
  | [] => none
  | p :: ps => some ((p.words.drop p.got).map (fun o => o.value.toNat), m.putRn { m.rnFrees r (p.words.length - p.got) with pkts := headSince m.now ps })

/-- The packet that a unit would take next (R412). -/
def Main.rnPeekPkt (m : Main) (d i : Nat) : Option (List Opnd) :=
  match (if (m.rn d i).visible then (m.rn d i).pkts else []) with
  | [] => none
  | p :: _ => some (p.words.drop p.got)

/-- The packet at the head of the runnel that a unit consumes, without its EMPTYPKT words (R410, R412). -/
def Main.unitHead (m : Main) (i : Nat) : Option (List Nat) :=
  if !m.live (.runnel 0 i) then none
  else (m.rnPeekPkt 0 i).map (fun ws => (ws.filter (fun o => o.typ != tyEmpty)).map (fun o => o.value.toNat))

/-- A unit consumes the packet at the head of its runnel. -/
def Main.unitDrop (m : Main) (i : Nat) : Main :=
  match m.rnTakePkt 0 i with
  | some p => p.2
  | none => m

/-- R311: a unit takes the packet that it has read, word by word, with what each word met. -/
def Main.unitTake (m : Main) (i : Nat) (eccs : List Ecc) : Main := (m.unitDrop i).rnCes 0 eccs

/-- R311: a word of those that a unit reads meets an uncorrectable error: the packet is lost. -/
def Main.unitLose (m : Main) (i : Nat) (eccs : List Ecc) : Main :=
  match (m.rnCes 0 eccs).rnTake 0 i .uncorrectable with
  | .lost _ m => m
  | _ => m

/-- A unit commits a packet of words (R412, R416): false when it finds no room. A write fault aborts the packet (R144, R311; log 203). -/
def Main.rnUnitCommit (m : Main) (i : Nat) (words : List Opnd) (io : RnIo) : Bool × Main :=
  let m := m.rnSeeFrees 0 i io.lag
  if !m.live (.runnel 0 i) || !m.rnRoomFor (m.rn 0 i) words.length then (false, m)
  else
    let s := m.rnSerial 0 i
    if io.ecc = .uncorrectable then (true, s.2.bump (F.RUNNEL_STAT_ABORTS 0 i))
    else s.2.rnCommit 0 i s.1 words (s.2.rn 0 i).open_

/-! ### Enable and disable (R312, R321) -/

/-- The interface units (R409): unit number and number of TX runnels. -/
def unitTx (u : Nat) : Option Nat :=
  if u ≤ 6 then some 8
  else if 0x10 ≤ u ∧ u ≤ 0x13 then some 4
  else if 0x20 ≤ u ∧ u ≤ 0x2F then some 1
  else if 0x30 ≤ u ∧ u ≤ 0x37 then some 1
  else if u = 0x38 ∨ u = 0x39 then some 1
  else if u = 0x40 ∨ u = 0x41 then some 1
  else if 0x50 ≤ u ∧ u ≤ 0x5F then some 0
  else if u = 0x60 ∨ u = 0x61 then some 1
  else none

/-- R313: an endpoint is valid on a runnel. -/
def endpointOk (d i : Nat) (e : Nat × Nat) : Bool :=
  e.1 == 0 || (d == 0 && ((unitTx e.2).isSome || ((i == 4094 || i == 4095) && e.2 == 0xFE)))

/-- R310: the words of a die's word store. -/
def rnStore (d : Nat) : Nat := if d = 0 then 32768 else 131072

/-- A power of two. -/
def isPow2 (n : Nat) : Bool := n != 0 && (List.range 18).any (fun k => 2 ^ k == n)

/-- Whether the UST holds the enable of a runnel (R365). -/
def Main.ustRun (m : Main) (d i : Nat) : Bool := bitsOf (m.get (F.UST_RUN_EN d (i / 64))) (i % 64) 1 == 1

/-- The runnels of a die that are enabled in the UST. -/
def Main.ustRuns (m : Main) (d : Nat) : List Nat :=
  (List.range 256).flatMap fun w =>
    let x := m.get (F.UST_RUN_EN d w)
    if x = 0 then [] else ((List.range 64).filter (fun b => bitsOf x b 1 == 1)).map (fun b => 64 * w + b)

/-- R312, R313, R482: whether a UST write may enable a runnel. -/
def Main.rnEnableOk (m : Main) (d i : Nat) : Bool :=
  let b := m.rnBase d i
  let c := m.rnCap d i
  let island := d == 0 && (i == 4094 || i == 4095)
  c != 0 && decide (b + c ≤ rnStore d) && (island || d != 0 || decide (b + c ≤ 32512)) &&
  (m.ustRuns d).all (fun j => j == i || decide (b + c ≤ m.rnBase d j ∨ m.rnBase d j + m.rnCap d j ≤ b)) &&
  endpointOk d i (m.rnProd d i) && endpointOk d i (m.rnCons d i) &&
  !((m.rnProd d i).1 == 1 && (m.rnCons d i).1 == 1) && (!m.rnCrosses d i || isPow2 c)

/-- R321: a runnel is disabled: stored words are discarded, the open packet is aborted, held requests are parked. -/
def Main.rnDisable (m : Main) (d i : Nat) : Main :=
  let r := m.rn d i
  let m := m.putRn { r with pkts := [], held := [] }
  let m := m.rnAbort d i fcUnitDisabled
  r.held.foldl (fun m f => m.parkOp f fcUnitDisabled (rnId d i % 65536) (rnId d i)) m

/-- R321: a context reset of a runnel's endpoints. -/
def Main.rnContextReset (m : Main) (c : Nat) (r : Runnel) : Main :=
  let isC := fun (e : Nat × Nat) => e.1 == 0 && e.2 == c
  let r := { r with held := r.held.filter (fun f => f.ctx.toNat != c) }
  let prod := isC (m.rnProd r.die r.idx)
  let whole := r.open_.filter (fun p => !p.aborted)
  let m := if prod && whole.isSome then m.bump (F.RUNNEL_STAT_ABORTS r.die r.idx) else m
  let r := if prod then { r with open_ := none } else r
  let r := if isC (m.rnCons r.die r.idx) then
      match r.pkts with
      | p :: ps => if p.got = 0 then r else { m.rnFrees r (p.words.length - p.got) with pkts := ps }
      | [] => r
    else r
  m.putRn r

/-- R321: a die reset or warm reset loses everything that the engine of a die holds. -/
def Main.rnDieReset (m : Main) (d : Nat) : Main :=
  { m with runnels := m.runnels.filter (fun r => r.die != d) }

end Sys2Proof.Machine
end

