-- ==== Sys2Proof/Machine/SurvBase.lean ====
section
/-! DEFINITION. The object that a survey run has in hand (R439, R440, R443), and the receivers that its stimulus makes deaf (R442), the
record (R443 to R445, R460, R461), and a WINDING pair in progress (R451, R452). -/

namespace Sys2Proof.Machine

/-- A survey run is in progress (R443). -/
def Main.survRuns (m : Main) : Bool := m.get F.SURVEY_STAT_STATE == 1

/-- R440: a measurement that drives current or voltage into its object. -/
def survStimulus (kind param : Nat) : Bool :=
  match kind with
  | 2 => bitsOf param 0 8 != 0
  | 3 | 4 | 5 | 7 => true
  | 6 => bitsOf param 0 1 == 1
  | _ => false

/-- KIND, GROUP, index and PARAM of the object whose turn it is; the index of WINDING counts motor ports. -/
def Main.survCur (m : Main) : Option (Nat × Nat × Nat × Nat) :=
  if !m.survRuns then none
  else
    let k := m.get F.SURVEY_STAT_PLANIDX
    some (m.get (F.SURVEY_PLAN_KIND k), m.get (F.SURVEY_PLAN_GROUP k), m.get (F.SURVEY_PLAN_FIRST k) + m.surv.done,
      m.get (F.SURVEY_PLAN_PARAM k))

/-- R442: the axis receivers under stimulus, as port and receiver. -/
def Main.survPairs (m : Main) : List (Nat × Nat) :=
  match m.survCur with
  | some (kind, group, i, param) =>
    if !survStimulus kind param || m.surv.stimOff || m.mode != 2 then []
    else if kind = 6 then [(i, 0), (i, 2)]
    else if group = 1 then [(i / 3, i % 3)] else []
  | none => []

/-- R442: a port ignores the edges of a receiver from the start of a stimulus until 10 µs after its end. -/
def Main.survDeaf (m : Main) (n rx : Nat) : Bool := m.surv.deaf.any (fun x => x.port == n && x.rx == rx)

/-- R442: a port with a deaf receiver: CNT holds and its references stand. -/
def Main.survPort (m : Main) (n : Nat) : Bool := m.surv.deaf.any (fun x => x.port == n)

/-- R442: a receiver has its TERM resistor: not while it is under stimulus. -/
def Main.axisTerm (m : Main) (n rx : Nat) : Bool := bitsOf (m.get (F.AXIS_CFG_TERM n)) rx 1 == 1 && !m.survPairs.contains (n, rx)

/-- R442: what a deaf receiver reads. -/
def Main.survReads (m : Main) (n rx : Nat) (level : Bool) : Main :=
  { m with surv := { m.surv with deaf := m.surv.deaf.map (fun x => if x.port = n ∧ x.rx = rx then { x with level := level } else x) } }

/-! ### The run and its record (R443 to R445, R460, R461) -/

/-- The plan entries of a run. -/
def Main.survN (m : Main) : Nat := Nat.min 64 (m.get F.SURVEY_CTL_NPLAN)

/-- SURVEY.STAT as a word (R462). -/
def Main.survStat (m : Main) : Nat :=
  m.get F.SURVEY_STAT_STATE + m.get F.SURVEY_STAT_ERR * 2 ^ 2 + m.get F.SURVEY_STAT_CFGREF * 2 ^ 6 +
  m.get F.SURVEY_STAT_PLANIDX * 2 ^ 8 + m.get F.SURVEY_STAT_ENTRIES * 2 ^ 16 + m.get F.SURVEY_STAT_NOTOK * 2 ^ 32

/-- R445: the end of a run, with its token and its event. -/
def Main.survEnd (m : Main) (state err : Nat) : Main :=
  let m := (m.set F.SURVEY_STAT_STATE state).set F.SURVEY_STAT_ERR err
  let m := { m with surv := { m.surv with done := 0, pair := 0, stimOff := false, wind := none } }
  let c := BitVec.ofNat 8 (m.get F.SURVEY_NOTE_CTX)
  let m := if !m.flag F.SURVEY_NOTE_EN then m
    else m.send { value := w64 m.survStat, ia := BitVec.ofNat 20 (m.get F.SURVEY_NOTE_IA),
                  port := BitVec.ofNat 2 (m.get F.SURVEY_NOTE_PORT), typ := tyInt, wsel := 0, ctx := c, frame := 0,
                  stamp := BitVec.ofNat 32 m.now, prio := m.newPrio c, side := false, odie := 0, otuft := 0, pass := false,
                  replay := none }
  m.event 896 0

/-- Go to the next plan entry from k that has objects; the run is DONE after the last. -/
def Main.survSeek (m : Main) : Nat → Nat → Main
  | 0, _ => m.survEnd 2 0
  | n + 1, k =>
    if m.survN ≤ k then m.survEnd 2 0
    else
      let m := m.set F.SURVEY_STAT_PLANIDX k
      if m.get (F.SURVEY_PLAN_COUNT k) = 0 then m.survSeek n (k + 1) else m

/-- The next object of the run. -/
def Main.survNext (m : Main) : Main :=
  if !m.survRuns then m
  else
    let k := m.get F.SURVEY_STAT_PLANIDX
    let kind := m.get (F.SURVEY_PLAN_KIND k)
    if kind = 5 ∧ m.surv.pair < 2 then { m with surv := { m.surv with pair := m.surv.pair + 1, wind := none } }
    else
      let m := { m with surv := { m.surv with pair := 0, done := m.surv.done + 1, wind := none } }
      if m.surv.done < m.get (F.SURVEY_PLAN_COUNT k) then m
      else { m with surv := { m.surv with done := 0 } }.survSeek 64 (k + 1)

/-- The object code of the object in hand (R439). -/
def Main.survObject (m : Main) (kind group i : Nat) : Nat :=
  group * 4096 + (if kind = 5 then 3 * i + m.surv.pair else i)

/-- R445, R458, R461: an entry is written for the object in hand; a full record ends the run. -/
def Main.survEntry (m : Main) (status cls vala valb : Nat) : Main :=
  match m.survCur with
  | none => m
  | some (kind, group, i, _) =>
    let n := m.get F.SURVEY_STAT_ENTRIES
    if 8192 ≤ n then m.survEnd 3 2
    else
      let obj := m.survObject kind group i
      let word := fun (j v : Nat) (m : Main) => m.set (F.SURVEY_RECORD_WORD n j) v
      let m := word 0 (kind + status * 2 ^ 8 + cls * 2 ^ 12 + obj * 2 ^ 16 + m.surv.seq % 2 ^ 32 * 2 ^ 32) m
      let m := word 3 m.now (word 2 valb (word 1 vala m))
      let m := { m.set F.SURVEY_STAT_ENTRIES (n + 1) with surv := { m.surv with seq := m.surv.seq + 1 } }
      if status = 0 then m else (m.bump F.SURVEY_STAT_NOTOK).event 897 (obj + status * 2 ^ 16)

/-! ### WINDING (R450 to R452) -/

/-- The motor port whose WINDING pair is in progress, the pair, and PARAM. -/
def Main.windPort (m : Main) : Option (Nat × Wind × Nat) :=
  match m.survCur, m.surv.wind with
  | some (5, _, i, param), some w => some (i, w, param)
  | _, _ => none

/-- R452: CNT of the axis port that a WINDING watches. -/
def Main.survWatch (m : Main) (param : Nat) : Int := sgn 64 (m.get (F.AXIS_CNT_CNT (bitsOf param 16 6)))

/-- Set the WINDING pair in progress. -/
def Main.withWind (m : Main) (w : Option Wind) : Main := { m with surv := { m.surv with wind := w } }

/-- R452: CNT of an axis port has changed: the pair that watches it ends when that is by more than MOVLIM. -/
def Main.windWatch (m : Main) (n : Nat) : Main :=
  match m.windPort with
  | some (_, w, param) =>
    if bitsOf param 16 6 = n ∧ Nat.max 1 (bitsOf param 22 10) < (m.survWatch param - w.cnt).natAbs then m.withWind (some { w with moved := true })
    else m
  | none => m

/-- R452: an overcurrent trip or a gate closure ends the pair of a motor port. -/
def Main.windAbort (m : Main) (k : Nat) : Main :=
  match m.windPort with
  | some (i, _, _) => if i = k then (m.survEntry 6 0 0 0).survNext else m
  | none => m

end Sys2Proof.Machine
end

