-- ==== Sys2Proof/Machine/Refs.lean ====
section
/-! DEFINITION. Phase references (R192 to R205): sources, interpolation, reversals, standstill, crossing events, the excursion
guard, and the commands on them. -/

namespace Sys2Proof.Machine

/-! ### Configuration (R192, R193, R195, R231) -/

/-- SRC.EN; reference 1 is always enabled (R192). -/
def Main.refEn (m : Main) (r : Nat) : Bool := r == 1 || m.flag (F.REF_SRC_EN r)
/-- SRC.KIND. -/
def Main.refKind (m : Main) (r : Nat) : Nat := if r = 1 then 1 else m.get (F.REF_SRC_KIND r)
/-- SRC.SEL. -/
def Main.refSel (m : Main) (r : Nat) : Nat := if r = 1 then 0 else m.get (F.REF_SRC_SEL r)
/-- SCALE.NUM, signed. -/
def Main.refNum (m : Main) (r : Nat) : Int := if r = 1 then 65536 else sgn 32 (m.get (F.REF_SCALE_NUM r))
/-- SCALE.DEN; 0 acts as 1 (R194). -/
def Main.refDen (m : Main) (r : Nat) : Int := if r = 1 then 1 else Nat.max 1 (m.get (F.REF_SCALE_DEN r))
/-- WIN.SHIFT (R195, R231). -/
def Main.refShift (m : Main) (r : Nat) : Nat := if r = 1 then 16 else Nat.min 32 (m.get (F.REF_WIN_SHIFT r))
/-- The rule of a reference (R196): 0 forward, 1 reverse, 2 either. -/
def Main.refRule (m : Main) (r : Nat) : Nat := if r = 1 then 0 else m.get (F.REF_WIN_DIR r)

/-- Nothing known of a reference yet. -/
def RefSt.zero (r : Nat) : RefSt :=
  { r := r, pos := 0, p0 := 0, x0 := 0, x := 0, src := 0, far := 0, dir := true, rem := 0, edges := 0, steps := 0, lastEdge := 0,
    lastAdv := none, periods := [], stand := true, samp := none, samp2 := none, vneg := none, lastWin := 0, farWin := 0,
    over_ := false }

/-- The record of a reference. -/
def Main.refSt (m : Main) (r : Nat) : RefSt := (m.ref.refs.find? (fun s => s.r == r)).getD (RefSt.zero r)

/-- Store the record of a reference. -/
def Main.putRef (m : Main) (s : RefSt) : Main :=
  let rest := m.ref.refs.filter (fun x => x.r != s.r)
  { m with ref := { m.ref with refs := if s = RefSt.zero s.r then rest else rest ++ [s] } }

/-- The position of a reference in 2^-16 units (R192). -/
def Main.refPos (m : Main) (r : Nat) : Int :=
  if r = 1 then (m.wall.ns * 65536 + m.wall.frac / 2 ^ 24 : Nat) else (m.refSt r).pos

/-- A position shifted by the window shift (R195, R204). -/
def shiftPos (p : Int) (shift : Nat) : Int := p / (2 ^ shift : Nat)

/-- The window of a position (R195). -/
def windowOf (p : Int) (shift : Nat) : Nat := uns 32 (shiftPos p shift)

/-- R207: the condition of a stamp s at window w under a rule; first is the sign of d found at the first evaluation (true for
negative), none at the first evaluation itself. -/
def stampHolds (rule s w : Nat) (first : Option Bool) : Bool :=
  let d := uns 32 ((w : Int) - s)
  match rule with
  | 0 => decide (d < 2 ^ 31)
  | 1 => decide (uns 32 ((s : Int) - w) < 2 ^ 31)
  | _ => d == 0 || match first with
    | some neg => decide (2 ^ 31 ≤ d) != neg
    | none => false

/-- The sign of d (R207): true for negative. -/
def stampSign (s w : Nat) : Bool := decide (2 ^ 31 ≤ uns 32 ((w : Int) - s))

/-- R194: the position of a reading. -/
def Main.refE (m : Main) (st : RefSt) (x : Int) : Int := st.p0 + (x - st.x0) * m.refNum st.r / m.refDen st.r

/-- The direction of the source reading that makes the position travel in its direction (R194: a negative NUM inverts). -/
def Main.refUp (m : Main) (st : RefSt) : Bool := st.dir == decide (0 ≤ m.refNum st.r)

/-- a lies beyond b in a direction. -/
def beyond (up : Bool) (a b : Int) : Bool := if up then decide (b < a) else decide (a < b)

/-! ### Crossing events and the excursion guard -/

/-- R204: the points crossed from window position a to b, in order of travel. -/
def crossPoints (step phase : Nat) (a b : Int) : List Int :=
  if step = 0 then []
  else
    let s : Int := step
    let idx := fun (w : Int) => (w - phase) / s
    if a < b then (List.range (idx b - idx a).toNat).map (fun (k : Nat) => phase + (idx a + 1 + (k : Int)) * s)
    else
      let top := idx (a - 1)
      (List.range (top - idx (b - 1)).toNat).map (fun (k : Nat) => phase + (top - (k : Int)) * s)

/-- R204, R205: the events of a reference after its position has moved. -/
def Main.refEvents (m : Main) (r : Nat) : Main :=
  let st := m.refSt r
  let w := shiftPos (m.refPos r) (m.refShift r)
  let rule := m.refRule r
  let pts := if (st.lastWin < w ∧ rule ≠ 1) ∨ (w < st.lastWin ∧ rule ≠ 0) then
      crossPoints (m.get (F.REF_XEVT_XSTEP r)) (m.get (F.REF_XEVT_XPHASE r)) st.lastWin w else []
  let m := pts.foldl (fun m p => m.event (383 + r) (uns 32 p)) m
  let far := if rule = 1 then (if w < st.farWin then w else st.farWin) else (if st.farWin < w then w else st.farWin)
  let excur := if rule = 0 then (far - w).toNat else if rule = 1 then (w - far).toNat else 0
  let lim := m.get (F.REF_GUARD_REVLIM r)
  let hit := decide (lim ≠ 0 ∧ lim < excur)
  let m := if hit && !st.over_ then (m.set (F.REF_STAT_GUARDHIT r) 1).raiseSrc 30 0 0 r else m
  m.putRef { m.refSt r with lastWin := w, farWin := far, over_ := hit }

/-- EXCUR (R205). -/
def Main.refExcur (m : Main) (r : Nat) : Nat :=
  let st := m.refSt r
  let w := shiftPos (m.refPos r) (m.refShift r)
  match m.refRule r with
  | 0 => Nat.min 0xFFFFFFFF (st.farWin - w).toNat
  | 1 => Nat.min 0xFFFFFFFF (w - st.farWin).toNat
  | _ => 0

/-! ### Readings -/

/-- R200: count a declared reversal. -/
def Main.refReversal (m : Main) (r : Nat) : Main := m.bump (F.REF_STAT_REVERSALS r)

/-- R200: the reading of a source that is followed without interpolation, or of a new sample: beyond the furthest reading the
position follows, within the hysteresis it holds, and further back a reversal is declared. -/
def Main.refFollow (m : Main) (st : RefSt) (x : Int) : Main :=
  let up := m.refUp st
  let e := m.refE st x
  if x = st.far ∨ beyond up x st.far then
    m.putRef { st with x := x, far := x, pos := if beyond st.dir e st.pos then e else st.pos }
  else if (x - st.far).natAbs ≤ m.get (F.REF_WIN_REVHYST st.r) then m.putRef { st with x := x }
  else
    (m.putRef { st with x := x, far := x, dir := !st.dir, pos := e }).refReversal st.r

/-- PAVG (R198): how many edge periods are averaged, and their sum. -/
def Main.refPeriods (m : Main) (st : RefSt) : Nat × Nat :=
  let ps := st.periods.take (2 ^ m.get (F.REF_WIN_PAVG st.r))
  (ps.length, ps.sum)

/-- R202: an edge source has seen no edge for 4 × P or for 2^32 ns at a time. -/
def Main.refStill (m : Main) (st : RefSt) (t : Nat) : Bool :=
  let p := m.refPeriods st
  decide (2 ^ 32 ≤ t - st.lastEdge) || (p.1 != 0 && decide (4 * p.2 ≤ (t - st.lastEdge) * p.1))

/-- R202: the state of a reference after one more edge: before the second edge after a reversal or an enable it stands. -/
def RefSt.edge (st : RefSt) (ts : Nat) : RefSt :=
  { st with steps := Nat.min 2 (st.steps + 1), lastEdge := ts, stand := decide (st.steps + 1 < 2) }

/-- R194: the difference of two values of an absolute source modulo its range, in (-range/2, range/2]. -/
def unwrapDiff (range new old : Int) : Int :=
  let d := (new - old) % range
  if range < 2 * d then d - range else d

/-- R199, R200, R202: a sample of a sampled source at a wall time. After only one sample since its enable the reference stands (log 232). -/
def Main.refSample (m : Main) (r : Nat) (x : Int) (src : Int) (τ : Nat) : Main :=
  let st := m.refSt r
  let m := m.refFollow { st with src := src } x
  let st' := m.refSt r
  m.putRef { st' with samp := some (m.refE st' x, τ), samp2 := st.samp, stand := st.samp.isNone || st.x == x }

/-- The references that follow a port or input, enabled and with a kind among ks (R193). -/
def Main.refsOn (m : Main) (ks : List Nat) (sel : Nat) : List Nat :=
  (List.range 49).filter (fun r => decide (2 ≤ r) && m.refEn r && ks.contains (m.refKind r) && m.refSel r == sel)

/-- R377, R381: the references that follow a lost source stand. -/
def Main.refsStand (m : Main) (ks : List Nat) (sel : Nat) : Main :=
  (m.refsOn ks sel).foldl (fun m r =>
    m.putRef { m.refSt r with stand := true, edges := 0, periods := [], lastAdv := none, samp2 := none }) m

/-! ### The axis ports that feed references -/

/-- The axis port of a number. -/
def Main.axis (m : Main) (n : Nat) : AxisSt :=
  (m.port.axes.find? (fun a => a.n == n)).getD
    { n := n, raw := 0, a := false, b := false, z := false, quarters := 2, sc := 0, lost := 0, ssi := none, ssiFree := 0, ssiWord := none,
      ssiLast := none }

/-- Store an axis port. -/
def Main.putAxis (m : Main) (x : AxisSt) : Main :=
  { m with port := { m.port with axes := m.port.axes.filter (fun y => y.n != x.n) ++ [x] } }

/-- AXIS[n].CFG.MODE (R372). -/
def Main.axisMode (m : Main) (n : Nat) : Nat := m.get (F.AXIS_CFG_MODE n)

/-- R377, R442: the port that feeds a reference has lost a receiver that its mode uses, or has one under stimulus. -/
def Main.refLost (m : Main) (r : Nat) : Bool :=
  decide (2 ≤ m.refKind r ∧ m.refKind r ≤ 4) && (m.flag (F.AXIS_STAT_LOS (m.refSel r)) || m.survPort (m.refSel r))

/-- Set the list of deaf receivers. -/
def Main.withDeaf (m : Main) (l : List Deaf) : Main := { m with surv := { m.surv with deaf := l } }

/-- R442: the level of a receiver is taken. -/
def AxisSt.hear (x : AxisSt) (rx : Nat) (level : Bool) : AxisSt :=
  if rx = 0 then { x with a := level } else if rx = 1 then { x with b := level } else { x with z := level }

/-- R442: a receiver that has been deaf hears again: a level that has changed marks the position as lost. -/
def Main.survHears (m : Main) (x : Deaf) : Main :=
  let p := m.axis x.port
  let was := if x.rx = 0 then p.a else if x.rx = 1 then p.b else p.z
  let m := m.withDeaf (m.surv.deaf.filter (fun y => !(y.port == x.port && y.rx == x.rx)))
  let m := if was != x.level then (m.set (F.AXIS_STAT_LOSTPOS x.port) 1).putAxis (p.hear x.rx x.level) else m
  m.refsStand [2, 3, 4] x.port

/-- R442: the receivers whose 10 µs are over. -/
def Main.survHear (m : Main) : Main :=
  (m.surv.deaf.filter (fun x => x.till.any (fun t => decide (t ≤ m.now)))).foldl Main.survHears m

/-- R442: the receivers under stimulus are deaf; those whose stimulus has ended are so for 10 µs more. -/
def Main.survSync (m : Main) : Main :=
  let ls := m.survPairs
  let old := m.surv.deaf.map (fun x =>
    if ls.contains (x.port, x.rx) then { x with till := none } else { x with till := some (x.till.getD (m.now + 10000)) })
  let new := (ls.filter (fun p => !m.survDeaf p.1 p.2)).map (fun p =>
    let x := m.axis p.1
    { port := p.1, rx := p.2, till := none, level := if p.2 = 0 then x.a else if p.2 = 1 then x.b else x.z })
  (ls.foldl (fun m p => m.refsStand [2, 3, 4] p.1) m).withDeaf (old ++ new)

/-! ### Interpolation (R198, R199, R218) -/

/-- R198: an edge source extrapolates. -/
def RefSt.extrapolates (st : RefSt) : Bool := decide (2 ≤ st.edges) && st.lastAdv.isSome && !st.stand && !st.periods.isEmpty

/-- R198: the distance to the position of the next edge in the direction of travel. -/
def Main.refDelta (m : Main) (st : RefSt) : Nat :=
  (m.refE st (if m.refUp st then st.far + 1 else st.far - 1) - m.refE st st.far).natAbs

/-- Move a position by a distance in the direction of travel. -/
def RefSt.ahead (st : RefSt) (p : Int) (d : Nat) : Int := if st.dir then p + d else p - d

/-- R198, R199: the position of a reference at the current nanosecond. It holds while the port that feeds it has lost a signal (R377).
The reversal of a WALL reference: log 257. -/
def Main.refInterp (m : Main) (r : Nat) : Main :=
  let st := m.refSt r
  if m.refLost r then m
  else match m.refKind r with
  | 1 => m.refFollow { st with stand := false } m.now
  | 2 | 7 =>
    if st.extrapolates then
      let p := m.refPeriods st
      let d := m.refDelta st
      let off := Nat.min (d * (m.now - st.lastAdv.getD 0) * p.1 / p.2) (d - 1)
      m.putRef { st with pos := st.ahead (m.refE st st.far) off }
    else m
  | 3 | 4 | 5 | 9 =>
    match st.samp, st.samp2 with
    | some (s, τ), some (s2, τ2) =>
      if st.x ≠ st.far ∨ st.stand = true then m
      else
        let t := Nat.min (m.now - τ) (τ - τ2)
        let cand := s + (s - s2) * t / (τ - τ2 : Nat)
        m.putRef { st with pos := if beyond st.dir cand st.pos then cand else st.pos }
    | _, _ => m
  | 6 => m.refFollow st (m.refPos (m.refSel r))
  | 8 =>
    let a := st.rem + sgn 64 (m.get (F.REF_VEL_VEL r))
    m.putRef { st with pos := st.pos + a / 65536, rem := a % 65536, stand := m.get (F.REF_VEL_VEL r) == 0 }
  | _ => m

/-- R198, R200, R202: an edge of a COUNT or MAINS source, with its new reading and its timestamp. What is extrapolated
since the timestamp is part of the position at once. -/
def Main.refEdge (m : Main) (r : Nat) (x : Int) (ts : Nat) : Main :=
  let st := m.refSt r
  let st := if !st.stand && m.refStill st ts then { st with edges := 0, periods := [], lastAdv := none } else st
  let up := m.refUp st
  if beyond up x st.far then
    let periods := match st.lastAdv with
      | some t0 => ((ts - t0) :: st.periods).take 8
      | none => st.periods
    let st := { st.edge ts with x := x, far := x, pos := m.refE st x, edges := st.edges + 1, lastAdv := some ts, periods := periods }
    (m.putRef st).refInterp r
  else if (x - st.far).natAbs ≤ m.get (F.REF_WIN_REVHYST r) then
    m.putRef { st.edge ts with x := x, lastAdv := none }
  else
    (m.putRef { st with x := x, far := x, dir := !st.dir, pos := m.refE st x, edges := 1, steps := 1, lastEdge := ts, lastAdv := some ts,
                        periods := [], stand := true }).refReversal r

/-- R421: TIME.RATE, limited to ±500 ppm. -/
def Main.rate (m : Main) : Int :=
  let r := sgn 40 (m.get F.TIME_RATE_TRIM)
  if r < -549755813 then -549755813 else if 549755813 < r then 549755813 else r

/-- One nanosecond of wall time at the trimmed rate (R421). -/
def Main.tick (m : Main) : Main :=
  let f := (((m.wall.frac : Int) + 2 ^ 40 + m.rate)).toNat
  { m with wall := { m.wall with ns := m.wall.ns + f / 2 ^ 40, frac := f % 2 ^ 40 } }

/-- REFERENCE_STEP (R198): every nanosecond, each enabled reference is interpolated, DERIVED ones after their sources, and its
events are raised. In STANDBY wall time alone goes on (R538). -/
def Main.referenceStep (m : Main) : Main :=
  m.tick.unlessStandby fun m =>
  let on := (List.range 49).filter (fun r => decide (2 ≤ r) && m.refEn r)
  let m := (on.filter (fun r => m.refKind r != 6)).foldl (fun m r => m.refInterp r) m
  let m := (on.filter (fun r => m.refKind r == 6)).foldl (fun m r => m.refInterp r) m
  (1 :: on).foldl (fun m r => m.refEvents r) m

/-- REFERENCE_STANDSTILL (R202): an edge source without an edge for 4 × P stands, and its history restarts empty. -/
def Main.referenceStandstill (m : Main) (r : Nat) : Main :=
  let st := m.refSt r
  if !m.refEn r || !(m.refKind r == 2 || m.refKind r == 7) || st.stand || !m.refStill st m.now then m
  else m.putRef { st with stand := true, edges := 0, periods := [], lastAdv := none }

/-- REFERENCE_STANDSTILL. -/
def execReferenceStandstill (r : Fin 49) (s : State) : Host.Outcome State Fault Refusal :=
  s.onMain fun m => m.referenceStandstill r.val

/-- R218: the current velocity of a reference, in 2^-16 units per ns as a fraction; 0 while the position is held. -/
def Main.refVel1 (m : Main) (r : Nat) : Int × Nat :=
  let st := m.refSt r
  if !m.refEn r || m.refLost r then (0, 1)
  else match m.refKind r with
  | 1 => (65536, 1)
  | 2 | 7 =>
    if st.extrapolates then
      let p := m.refPeriods st
      let v : Int := m.refDelta st * p.1
      (if st.dir then v else -v, Nat.max 1 p.2)
    else (0, 1)
  | 3 | 4 | 5 | 9 =>
    match st.samp, st.samp2 with
    | some (s, τ), some (s2, τ2) => if st.x ≠ st.far ∨ st.stand = true ∨ τ ≤ τ2 then (0, 1) else (s - s2, τ - τ2)
    | _, _ => (0, 1)
  | 8 => (sgn 64 (m.get (F.REF_VEL_VEL r)), 65536)
  | _ => (0, 1)

/-- R218: the current velocity, for KIND DERIVED that of its source scaled. -/
def Main.refVelocity (m : Main) (r : Nat) : Int × Nat :=
  if m.refKind r = 6 ∧ m.refEn r = true then
    let v := m.refVel1 (m.refSel r)
    if (m.refSt r).x ≠ (m.refSt r).far then (0, 1) else (v.1 * m.refNum r, v.2 * (m.refDen r).toNat)
  else m.refVel1 r

/-- R218: the position of a reference predicted a number of nanoseconds ahead. -/
def Main.refPredict (m : Main) (r lead : Nat) : Int :=
  let v := m.refVelocity r
  m.refPos r + v.1 * lead / v.2

/-- STAT.STAND (R202, R377). -/
def Main.refStand (m : Main) (r : Nat) : Bool :=
  if r = 1 then false
  else if !m.refEn r then true
  else match m.refKind r with
  | 0 => true
  | 1 => false
  | 6 =>
    let s := m.refSel r
    !m.refEn s || match m.refKind s with
      | 1 => false
      | 8 => m.get (F.REF_VEL_VEL s) == 0
      | _ => (m.refSt s).stand || m.refLost s
  | 8 => m.get (F.REF_VEL_VEL r) == 0
  | _ => (m.refSt r).stand || m.refLost r

/-- STAT.PERIOD (R202, R231): the mean of the edge periods, rounded down, or the interval of the last two samples (log 236). -/
def Main.refPeriod (m : Main) (r : Nat) : Nat :=
  let st := m.refSt r
  if r = 1 ∨ m.refEn r = false ∨ m.refStand r = true then 0
  else match m.refKind r with
  | 2 | 7 => let p := m.refPeriods st; if p.1 = 0 then 0 else p.2 / p.1
  | 3 | 4 | 5 | 9 => match st.samp, st.samp2 with
    | some a, some b => a.2 - b.2
    | _, _ => 0
  | _ => 0

/-! ### Configuration writes (R197, R200) -/

/-- R193, R375: the current reading of a source. -/
def Main.refSource (m : Main) (r : Nat) : Int :=
  let sel := m.refSel r
  match m.refKind r with
  | 1 => m.now
  | 2 | 3 | 4 => (m.axis sel).raw
  | 5 => m.get (F.ANA_RES_VAL_ANGLE sel)
  | 6 => m.refPos sel
  | 9 => (m.refSt r).src
  | _ => 0

/-- R197: every token and entry held on a reference is evaluated anew after it has been enabled. -/
def Main.refAfresh (m : Main) (r : Nat) : Main :=
  { m with
    tuft := { m.tuft with weir := m.tuft.weir.map (fun w => if w.tok.wsel.toNat = r then { w with seen := none } else w) },
    ref := { m.ref with outs := m.ref.outs.map (fun o => if o.ref = r then { o with seen := none } else o) } }

/-- R194, R197: EN changes from 0 to 1: the position continues from its current value. -/
def Main.refEnable (m : Main) (r : Nat) : Main :=
  let st := m.refSt r
  let x := m.refSource r
  let w := shiftPos st.pos (m.refShift r)
  let vel := sgn 64 (m.get (F.REF_VEL_VEL r))
  let dir := if m.refKind r = 8 ∧ vel ≠ 0 then decide (0 < vel) else st.dir
  (m.putRef { st with p0 := st.pos, x0 := x, x := x, src := x, far := x, dir := dir, edges := 0, steps := 0, lastEdge := m.now,
                      lastAdv := none, periods := [], stand := m.refKind r != 1, samp := none, samp2 := none, lastWin := w, farWin := w,
                      over_ := false }).refAfresh r

/-- R197: a configuration write that is ignored. -/
def Main.refCfgRef (m : Main) (r : Nat) : Main := m.set (F.REF_STAT_CFGREF r) 1

/-- A write to REF[r].SRC (R193, R197). While EN is 1 a reserved KIND is not the KIND that stands (log 231). -/
def Main.refSrcWrite (m : Main) (r v : Nat) : Main :=
  if r ≤ 1 then m
  else
    let kind := bitsOf v 0 4
    let sel := bitsOf v 4 6
    let en := bitsOf v 10 1 == 1
    if m.refEn r then
      if !en && kind == m.refKind r && sel == m.refSel r then m.set (F.REF_SRC_EN r) 0 else m.refCfgRef r
    else
      let m := if kind < 10 then m.set (F.REF_SRC_KIND r) kind else m
      let m := m.set (F.REF_SRC_SEL r) sel
      if en then (m.set (F.REF_SRC_EN r) 1).refEnable r else m

/-- A write to REF[r].SCALE (R197). -/
def Main.refScaleWrite (m : Main) (r v : Nat) : Main :=
  if r ≤ 1 then m
  else if m.refEn r then m.refCfgRef r
  else (m.set (F.REF_SCALE_NUM r) (bitsOf v 0 32)).set (F.REF_SCALE_DEN r) (bitsOf v 32 32)

/-- A write to REF[r].WIN (R197, R231): DIR 0b11 leaves DIR unchanged. -/
def Main.refWinWrite (m : Main) (r v : Nat) : Main :=
  if r ≤ 1 then m
  else if m.refEn r then m.refCfgRef r
  else
    let m := m.set (F.REF_WIN_SHIFT r) (bitsOf v 0 6)
    let m := if bitsOf v 6 2 = 3 then m else m.set (F.REF_WIN_DIR r) (bitsOf v 6 2)
    (m.set (F.REF_WIN_PAVG r) (bitsOf v 8 2)).set (F.REF_WIN_REVHYST r) (bitsOf v 16 8)

/-- REF_SRC_WRITE (R197): a write to a reference's configuration. -/
def execRefSrcWrite (r : Fin 49) (reg : RefReg) (v : Word) (s : State) : Host.Outcome State Fault Refusal :=
  s.onMain fun m => match reg with
    | .src => m.refSrcWrite r.val v.toNat
    | .scale => m.refScaleWrite r.val v.toNat
    | .win => m.refWinWrite r.val v.toNat

/-- A write to REF[r].PRESET (R197). -/
def Main.refPresetWrite (m : Main) (r v : Nat) : Main :=
  if r = 0 then m
  else if m.refEn r then m.set (F.REF_STAT_PRESETREF r) 1
  else
    let p := sgn 64 v
    let w := shiftPos p (m.refShift r)
    m.putRef { m.refSt r with pos := p, rem := 0, lastWin := w, farWin := w }

/-- REF_PRESET_WRITE. -/
def execRefPresetWrite (r : Fin 49) (v : Word) (s : State) : Host.Outcome State Fault Refusal :=
  s.onMain fun m => m.refPresetWrite r.val v.toNat

/-- A write to REF[r].VEL (R200): for a VIRTUAL reference, a sign other than that of the last non-zero VEL is a declared reversal. -/
def Main.refVelWrite (m : Main) (r v : Nat) : Main :=
  if r = 0 then m
  else
    let m := m.set (F.REF_VEL_VEL r) v
    let vel := sgn 64 v
    let neg := decide (vel < 0)
    let st := m.refSt r
    if vel = 0 then m
    else if m.refKind r ≠ 8 then m.putRef { st with vneg := some neg }
    else
      let m' := m.putRef { st with vneg := some neg, dir := !neg }
      if st.vneg = some (!neg) then m'.refReversal r else m'

/-- REF_VEL_WRITE. -/
def execRefVelWrite (r : Fin 49) (v : Word) (s : State) : Host.Outcome State Fault Refusal :=
  s.onMain fun m => m.refVelWrite r.val v.toNat

/-- A write to REF[r].SAMPLET (R199, R231): commits the reading in SAMPLE as a sample at that time. -/
def Main.refSampletWrite (m : Main) (r v : Nat) : Main :=
  if r = 0 then m
  else
    let m := m.set (F.REF_SAMPLET_TIME r) v
    if m.refKind r ≠ 9 then m
    else
      let new := sgn 64 (m.get (F.REF_SAMPLE_VALUE r))
      let st := m.refSt r
      if m.refEn r then m.refSample r (st.x + unwrapDiff (2 ^ 64) new st.src) new v
      else m.putRef { st with src := new }

/-- REF_SAMPLET_WRITE. -/
def execRefSampletWrite (r : Fin 49) (time : Word) (s : State) : Host.Outcome State Fault Refusal :=
  s.onMain fun m => m.refSampletWrite r.val time.toNat

end Sys2Proof.Machine
end

