-- ==== Sys2Proof/Machine/Outputs.lean ====
section
/-! DEFINITION. The output units of the field die (R383 to R394, R398 to R402): what an applied channel write does, DAC conversions,
motor shadows and loads, timers, the enable bits and the safety gate. -/

namespace Sys2Proof.Machine

/-! ### Interface units bound to runnels (R409, R410) -/

/-- The RX runnel of a unit, while the unit is enabled. -/
def Main.unitRx (m : Main) (u : Nat) : Option Nat :=
  if m.live (.iface u) && m.flag (F.UST_BIND_RXEN u) then some (m.get (F.UST_BIND_RX u)) else none

/-- The k-th TX runnel of a unit, while the unit is enabled. -/
def Main.unitTxRn (m : Main) (u k : Nat) : Option Nat :=
  if m.live (.iface u) && m.flag (F.UST_BIND_TXEN u) && decide (k ≤ m.get (F.UST_BIND_NTX u)) then
    some (m.get (F.UST_BIND_TXBASE u) + k) else none

/-! ### DAC channels (R383, R384) -/

/-- The DAC channel of a number. -/
def Main.dac (m : Main) (n : Nat) : DacSt := (m.port.dacs.find? (fun d => d.n == n)).getD { n := n, start := none, held := none }

/-- Store a DAC channel. -/
def Main.putDac (m : Main) (d : DacSt) : Main :=
  { m with port := { m.port with dacs := m.port.dacs.filter (fun x => x.n != d.n) ++ [d] } }

/-- A conversion starts. -/
def Main.dacStart (m : Main) (n code : Nat) : Main :=
  (m.set (F.AXIS_DAC_CODE n) code).putDac { n := n, start := some m.now, held := none }

/-- DAC_WRITE (R384): an applied write starts a conversion, or is held until 1 µs after the previous start. -/
def Main.dacWrite (m : Main) (n code : Nat) : Main :=
  let d := m.dac n
  let soon := match d.start with
    | some t => decide (m.now < t + 1000)
    | none => false
  if !soon then m.dacStart n code
  else
    let m := if d.held.isSome then m.bump (F.AXIS_DAC_DEFERS n) else m
    m.putDac { d with held := some code }

/-- DAC_DEFERRED_START (R384). -/
def Main.dacDeferred (m : Main) (n : Nat) : Main :=
  let d := m.dac n
  match d.held, d.start with
  | some code, some t => if m.now < t + 1000 then m else m.dacStart n code
  | _, _ => m

/-- DAC_DEFERRED_START: a held DAC write starts. -/
def execDacDeferredStart (n : Fin 64) (s : State) : Host.Outcome State Fault Refusal := s.onMain fun m => m.dacDeferred n.val

/-! ### Motor ports (R385 to R389) -/

/-- A phase at rest. -/
def PhaseSt.zero : PhaseSt := { on := false, since := 0, short := false, modeAt := 0 }

/-- The motor port of a number. -/
def Main.motor (m : Main) (k : Nat) : MotorSt :=
  (m.port.motors.find? (fun x => x.m == k)).getD
    { m := k, periods := 0, zero := 0, topped := false, ctl := 0x15, written := [], phases := [PhaseSt.zero, PhaseSt.zero, PhaseSt.zero], follow := false,
      tripped := false, group := false, samples := [], first := 0 }

/-- Store a motor port. -/
def Main.putMotor (m : Main) (x : MotorSt) : Main :=
  { m with port := { m.port with motors := m.port.motors.filter (fun y => y.m != x.m) ++ [x] } }

/-- R387: load shadow words of a motor port. A loaded control word ends the hold of a cleared trip (R389). -/
def Main.motorLoad (m : Main) (k : Nat) (ws : List Nat) : Main :=
  if ws = [] then m
  else
    let x := m.motor k
    let pend := m.get (F.MOTOR_SHADOW_PENDING k)
    let act := m.get (F.MOTOR_CMP_ACTIVE k)
    let cmp := ws.foldl (fun a w => if w < 3 then a - bitsOf a (20 * w) 20 * 2 ^ (20 * w) + bitsOf pend (20 * w) 20 * 2 ^ (20 * w)
                                    else a) act
    let m := m.set (F.MOTOR_CMP_ACTIVE k) cmp
    let old := m.get (F.MOTOR_CTL_MODES k)
    let phases := (List.range 3).map (fun i =>
      let p := x.phases.getD i PhaseSt.zero
      if ws.contains 3 && bitsOf old (2 * i) 2 != bitsOf x.ctl (2 * i) 2 then { p with modeAt := m.now } else p)
    let m := if ws.contains 3 then m.set (F.MOTOR_CTL_MODES k) x.ctl else m
    m.putMotor { x with written := x.written.filter (fun p => !ws.contains p.1), phases := phases,
                        tripped := x.tripped && !(ws.contains 3 && !m.flag (F.MOTOR_CTL_OCTRIP k)) }

/-- MOTOR_SHADOW_WRITE (R387, R398): an applied write of word w enters the shadow; word 3 marks a TRIPLE shadow READY. -/
def Main.motorShadow (m : Main) (k w v : Nat) : Main :=
  let x := m.motor k
  let m := if w < 3 then
      let p := m.get (F.MOTOR_SHADOW_PENDING k)
      m.set (F.MOTOR_SHADOW_PENDING k) (p - bitsOf p (20 * w) 20 * 2 ^ (20 * w) + v % 2 ^ 20 * 2 ^ (20 * w))
    else m
  let x := { x with ctl := if w = 3 then v % 64 else x.ctl, written := nmIns x.written w m.now }
  let m := m.putMotor x
  if m.flag (F.MOTOR_CFG_TRIPLE k) && w == 3 then m.set (F.MOTOR_SHADOW_READY k) 1 else m

/-- R387: words due load: each by itself, or with TRIPLE together with a due control word while the shadow is READY. -/
def Main.motorLoadDue (m : Main) (k : Nat) (due : List Nat) : Main :=
  if !m.flag (F.MOTOR_CFG_TRIPLE k) then m.motorLoad k due
  else if m.flag (F.MOTOR_SHADOW_READY k) && due.contains 3 then
    (m.motorLoad k due).set (F.MOTOR_SHADOW_READY k) 0
  else m

/-- R387: what loads at a load point: the words written at least 20 ns before it. -/
def Main.motorLoadPoint (m : Main) (k : Nat) : Main :=
  m.motorLoadDue k (((m.motor k).written.filter (fun p => decide (p.2 + 20 ≤ m.now))).map (fun p => p.1))

/-- R387: with LOAD 3 every word that stands in the shadow loads in the next 1 ns step. -/
def Main.motorsNow (m : Main) : Main :=
  ((List.range 16).filter (fun k => m.get (F.MOTOR_CFG_LOAD k) == 3)).foldl
    (fun m k => m.motorLoadDue k ((m.motor k).written.map (fun p => p.1))) m

/-- What falls due at the end of a nanosecond: motor words (R387), and what crosses the runnels of the units at the latest (R323),
and receivers that hear again (R442). -/
def Main.stepEnd (m : Main) : Main := m.motorsNow.rnCross.survHear

/-- REFERENCE_STEP (R198, R323, R387): one nanosecond. -/
def execReferenceStep (s : State) : Host.Outcome State Fault Refusal :=
  s.onMain fun m => m.referenceStep.unlessStandby Main.stepEnd

/-- R385: PERIOD in effect. -/
def Main.motorPeriod (m : Main) (k : Nat) : Nat :=
  let p := Nat.max 1000 (Nat.min 1000000 (m.get (F.MOTOR_PER_PERIOD k)))
  if m.flag (F.MOTOR_CFG_ALIGN k) then p else p / 2 * 2

/-- R385: the ns since the carrier's last zero (log 211). -/
def Main.carrierTime (m : Main) (k : Nat) : Nat := (m.now - (m.motor k).zero) % m.motorPeriod k

/-- R385: the carrier c(t). -/
def Main.carrier (m : Main) (k : Nat) : Nat :=
  let t := m.carrierTime k
  if m.flag (F.MOTOR_CFG_ALIGN k) then t else Nat.min t (m.motorPeriod k - t)

/-- CMP of a phase. -/
def Main.motorCmp (m : Main) (k ph : Nat) : Nat := bitsOf (m.get (F.MOTOR_CMP_ACTIVE k)) (20 * ph) 20

/-- R385: the ideal signal of a phase is on while c(t) ≥ CMP; where c falls to CMP it goes off (as in the example of R390). -/
def Main.idealOn (m : Main) (k ph : Nat) : Bool :=
  decide (m.motorCmp k ph ≤ m.carrier k) &&
  (m.flag (F.MOTOR_CFG_ALIGN k) || decide (m.carrierTime k + m.motorCmp k ph < m.motorPeriod k))

/-- R385: the carrier reaches its top half a period after its zero, and its zero a period after the last. -/
def Main.pointDue (m : Main) (k : Nat) (top : Bool) : Bool :=
  let x := m.motor k
  let per := m.motorPeriod k
  if m.flag (F.MOTOR_CFG_ALIGN k) then !top && decide (x.zero + per ≤ m.now)
  else if top then !x.topped && decide (x.zero + per / 2 ≤ m.now)
  else x.topped && decide (x.zero + per ≤ m.now)

/-- MOTOR_CARRIER_POINT (R385, R387, R388, R400): a carrier zero or top. -/
def Main.motorPoint (m : Main) (k : Nat) (top : Bool) : Main :=
  if !m.pointDue k top then m
  else
    let x := m.motor k
    let x := if top then { x with topped := true }
      else { x with periods := x.periods + 1, zero := m.now - m.carrierTime k, topped := false,
                    follow := x.follow || m.flag (F.MOTOR_CTL_OE k) }
    let m := m.putMotor x
    let sel := fun (v : Nat) => v == 2 || v == b2n top
    let m := if sel (m.get (F.MOTOR_CFG_LOAD k)) then m.motorLoadPoint k else m
    let smp := m.get (F.MOTOR_ADC_SAMPLE k)
    let m := if smp ≠ 3 ∧ sel smp = true then
        let x := m.motor k
        if x.group then m.bump (F.MOTOR_STAT_SKIPS k)
        else
          let point := x.zero + (if top then m.motorPeriod k / 2 else 0)
          m.putMotor { x with group := true, samples := [], first := point + m.get (F.MOTOR_ADC_DELAY k) }
      else m
    let pe := m.get (F.MOTOR_ADC_PEVT k)
    if (pe = 1 ∧ top = false) ∨ 2 ≤ pe then m.event (432 + k) (b2n top + x.periods % 65536 * 65536) else m

/-- MOTOR_CARRIER_POINT: the carrier of a motor port reaches zero or top. -/
def execMotorCarrierPoint (k : Fin 16) (top : Bool) (s : State) : Host.Outcome State Fault Refusal :=
  s.onMain fun m => m.motorPoint k.val top

/-- R386: how long the ideal signal of a phase stays as it is from now on, from CMP and the carrier: none when it does not change. -/
def Main.idealLength (m : Main) (k ph : Nat) (on : Bool) : Option Nat :=
  let per := m.motorPeriod k
  let cmp := m.motorCmp k ph
  let t := m.carrierTime k
  let stop := if m.flag (F.MOTOR_CFG_ALIGN k) then per else per - cmp
  if cmp = 0 ∨ stop ≤ cmp then none
  else some (if on then stop - t else if t < cmp then cmp - t else per - t + cmp)

/-- IDEAL_SIGNAL_CHANGE (R385, R386): the ideal signal of a phase takes the level that carrier and CMP give it; the output pulse that follows is suppressed when it would be
shorter than MINPW, or when the ideal pulse is no longer than DEAD. -/
def Main.idealChange (m : Main) (k ph : Nat) (on : Bool) : Main :=
  let x := m.motor k
  let len := m.idealLength k ph on
  let dead := m.get (F.MOTOR_PER_DEAD k)
  let short := len.any (fun len => decide (len ≤ dead ∨ len - dead < m.get (F.MOTOR_PER_MINPW k)))
  let p := x.phases.getD ph PhaseSt.zero
  if p.on = on ∨ m.idealOn k ph ≠ on then m
  else m.putMotor { x with phases := x.phases.set ph { p with on := on, since := m.now, short := short } }

/-- IDEAL_SIGNAL_CHANGE: the carrier crosses a phase's CMP. -/
def execIdealSignalChange (k : Fin 16) (ph : Fin 3) (on : Bool) (s : State) : Host.Outcome State Fault Refusal :=
  s.onMain fun m => m.idealChange k.val ph.val on

/-- R386, R389, R400: whether the high and the low side of a phase are active now. -/
def Main.phaseSides (m : Main) (k ph : Nat) : Bool × Bool :=
  let x := m.motor k
  let p := x.phases.getD ph PhaseSt.zero
  let mode := bitsOf (m.get (F.MOTOR_CTL_MODES k)) (2 * ph) 2
  let act := x.follow && !x.tripped && m.flag (F.MOTOR_CTL_OE k)
  let since := if mode = 0 then Nat.max p.since p.modeAt else p.modeAt
  let late := decide (m.get (F.MOTOR_PER_DEAD k) ≤ m.now - since)
  let hi := (mode == 2) || (mode == 0 && p.on && !p.short)
  let lo := (mode == 3) || (mode == 0 && !p.on && !p.short)
  (act && late && hi, act && late && lo)

/-- R450, R451: whether the high and the low side of a phase are active while the survey engine drives the port: the pair's first phase follows
the ideal signal and its second one the opposite, with DEAD and MINPW (R386); the third phase is OFF. -/
def Main.windSides (m : Main) (k ph : Nat) : Bool × Bool :=
  match m.windPort with
  | some (i, w, _) =>
    let act := i == k && !w.moved && !(m.motor k).tripped && decide (w.step ≤ 2) && !w.short && decide (m.get (F.MOTOR_PER_DEAD k) ≤ m.now - w.at_)
    let first := m.surv.pair
    if ph = first then (act && w.on, act && !w.on)
    else if ph = (first + 1) % 3 then (act && !w.on, act && w.on)
    else (false, false)
  | none => (false, false)

/-- R386, R402: the levels of a phase's two output pins; none while the port is neither enabled nor driven by the survey engine, which leaves
them inactive (R450, R452): high impedance. POL makes an output active-low. -/
def Main.motorPins (m : Main) (k ph : Nat) : Option (Bool × Bool) :=
  let pol := fun (j : Nat) => bitsOf (m.get (F.MOTOR_CFG_POL k)) (2 * ph + j) 1 == 1
  let sides := if m.flag (F.MOTOR_CTL_OE k) then m.phaseSides k ph else m.windSides k ph
  if m.flag (F.MOTOR_CTL_OE k) || (m.motor k).drv then some (sides.1 != pol 0, sides.2 != pol 1) else none

/-- R389: an overcurrent trip. It ends a WINDING pair of the port (R452). -/
def Main.motorTrip (m : Main) (k : Nat) : Main :=
  let x := m.motor k
  let phases := x.phases.map (fun p => { p with modeAt := m.now })
  let m := m.putMotor { x with tripped := true, ctl := 0x15, phases := phases, written := x.written.filter (fun p => p.1 != 3) }
  let m := ((m.set (F.MOTOR_CTL_MODES k) 0x15).set (F.MOTOR_SHADOW_READY k) 0).set (F.MOTOR_CTL_OCTRIP k) 1
  ((m.bump (F.MOTOR_STAT_OCTRIPS k)).raiseSrc 34 0 0 k).windAbort k

/-- R388: a complete group updates IVAL and commits its packet. -/
def Main.motorGroup (m : Main) (k : Nat) (x : MotorSt) (io : RnIo) : Main :=
  let avg := fun (m : Main) (g : Int × Int × Int → Int) => m.takeQuot ((x.samples.map g).foldl (· + ·) 0) x.samples.length
  let qu := avg m (fun s => s.1)
  let qv := avg qu.2 (fun s => s.2.1)
  let qw := avg qv.2 (fun s => s.2.2)
  let u := qu.1
  let v := qv.1
  let w := qw.1
  let m := qw.2
  let m := m.set (F.MOTOR_IVAL_CUR k) (uns 16 u + uns 16 v * 2 ^ 16 + uns 16 w * 2 ^ 32)
  let m := m.set (F.MOTOR_IVAL_SEQ k) ((m.get (F.MOTOR_IVAL_SEQ k) + 1) % 2 ^ 16)
  let m := m.putMotor { x with group := false, samples := [] }
  match m.unitRx (0x50 + k) with
  | none => m
  | some i =>
    match m.rnUnitCommit i ([uns 64 u, uns 64 v, uns 64 w, x.first].map (opnd tyInt)) io with
    | (true, m) => m
    | (false, m) => m.bump (F.MOTOR_STAT_RUNFULL k)

/-- MOTOR_ADC_SAMPLE (R388, R389): one simultaneous sample of the three currents of a port, DELAY after its point or 200 ns after the one
before. -/
def Main.motorSample (m : Main) (k : Nat) (iu iv iw : Int) (io : RnIo) : Main :=
  let x := m.motor k
  if !x.group || decide (m.now < x.first + 200 * x.samples.length) then m
  else
    let lim := m.get (F.MOTOR_ADC_OCLIM k)
    let over_ := decide (lim ≠ 0 ∧ (lim < iu.natAbs ∨ lim < iv.natAbs ∨ lim < iw.natAbs))
    let m := if over_ then m.motorTrip k else m
    let x := m.motor k
    let x := { x with samples := x.samples ++ [(iu, iv, iw)] }
    if x.samples.length < 2 ^ m.get (F.MOTOR_ADC_OVS k) then m.putMotor x else m.motorGroup k x io

/-- MOTOR_ADC_SAMPLE: the three converters of a port sample. -/
def execMotorAdcSample (k : Fin 16) (iu iv iw : BitVec 16) (io : RnIo) (s : State) : Host.Outcome State Fault Refusal :=
  s.onMain fun m => m.motorSample k.val iu.toInt iv.toInt iw.toInt io

/-! ### GPIO outputs (R391, R392, R398) -/

/-- A pin's latch. -/
def Main.gpioLatch (m : Main) (n : Nat) : Bool := bitsOf (m.get (F.GPIO_OUT_LATCH (n / 64))) (n % 64) 1 == 1

/-- Set a pin's latch. -/
def Main.gpioSet (m : Main) (n : Nat) (v : Bool) : Main :=
  let w := m.get (F.GPIO_OUT_LATCH (n / 64))
  let b := 2 ^ (n % 64)
  m.set (F.GPIO_OUT_LATCH (n / 64)) (if bitsOf w (n % 64) 1 = 1 then (if v then w else w - b) else (if v then w + b else w))

/-- GPIO_CHANNEL_WRITE (R398): 0 low, 1 high, 2 toggle. -/
def Main.gpioChannel (m : Main) (n v : Nat) : Main :=
  match v % 4 with
  | 0 => m.gpioSet n false
  | 1 => m.gpioSet n true
  | _ => m.gpioSet n (!m.gpioLatch n)

/-- GPIO_OUT_WRITE (R392): a direct write of a word of GPIO.OUT; bits of owned channels are ignored, and the write is counted
once when there is one. -/
def Main.gpioOutWrite (m : Main) (k v : Nat) : Main :=
  let owned := fun (b : Nat) => m.flag (F.OUTSCHED_OWN_OWNED (0x200 + 64 * k + b))
  let old := m.get (F.GPIO_OUT_LATCH k)
  let new := (List.range 64).foldl (fun a b => a + (if owned b then bitsOf old b 1 else bitsOf v b 1) * 2 ^ b) 0
  let m := if (List.range 64).any owned then m.bump F.GPIO_STAT_OWNEDWR else m
  m.set (F.GPIO_OUT_LATCH k) new

/-- GPIO_OUT_WRITE. -/
def execGpioOutWrite (k : Fin 7) (v : Word) (s : State) : Host.Outcome State Fault Refusal :=
  s.onMain fun m => m.gpioOutWrite k.val v.toNat

/-! ### Timers (R393, R394) -/

/-- The timer of a number. -/
def Main.timer (m : Main) (t : Nat) : TimerSt :=
  (m.port.timers.find? (fun x => x.t == t)).getD
    { t := t, run := false, start := 0, wait := 0, newPer := none, newWidth := none, pulseEnd := 0, up := true, turn := 0,
      ready := 0 }

/-- Store a timer. -/
def Main.putTimer (m : Main) (x : TimerSt) : Main :=
  { m with port := { m.port with timers := m.port.timers.filter (fun y => y.t != x.t) ++ [x] } }

/-- R394: PEND, signed. -/
def Main.timerPend (m : Main) (t : Nat) : Int := sgn 32 (m.get (F.TIMER_STEP_PEND t))

/-- R394: PER and WIDTH of a step pulse. -/
def Main.stepPer (m : Main) (t : Nat) : Nat := Nat.max 250 (m.get (F.TIMER_PER_PER t))
def Main.stepWidth (m : Main) (t : Nat) : Nat := Nat.max 100 (Nat.min (m.stepPer t - 50) (m.get (F.TIMER_PER_WIDTH t)))

/-- R394: when the sign of PEND changes, DIRPIN changes after the pulse in progress, and the next pulse waits DIRSU. -/
def Main.timerDir (m : Main) (t : Nat) : Main :=
  let x := m.timer t
  let p := m.timerPend t
  if p = 0 ∨ decide (0 < p) = x.up then m
  else
    let at_ := Nat.max m.now x.pulseEnd
    m.putTimer { x with up := decide (0 < p), turn := if m.now < x.turn then 0 else at_,
                        ready := Nat.max x.ready (at_ + m.get (F.TIMER_STEP_DIRSU t)) }

/-- R394: steps join PEND. A sum outside 32 bits has no stated result: PEND is then a free value (log 47). -/
def Main.timerAdd (m : Main) (t : Nat) (d : Int) : Main :=
  let p := m.timerPend t + d
  if -2 ^ 31 ≤ p ∧ p < 2 ^ 31 then m.set (F.TIMER_STEP_PEND t) (uns 32 p)
  else m.takeFree.2.set (F.TIMER_STEP_PEND t) (m.takeFree.1 % 2 ^ 32)

/-- R394: steps are added to a timer in STEP mode. R393: PEND that this brings to 0 raises the event. -/
def Main.timerSteps (m : Main) (t : Nat) (d : Int) : Main :=
  let was := m.timerPend t
  let m := (m.timerAdd t d).timerDir t
  if was ≠ 0 ∧ m.timerPend t = 0 then m.event (448 + t) (m.get (F.TIMER_POS_POS t)) else m

/-- TIMER_CHANNEL_WRITE (R393). -/
def Main.timerChannel (m : Main) (t v : Nat) : Main :=
  let x := m.timer t
  match m.get (F.TIMER_CFG_MODE t) with
  | 1 => m.putTimer { x with newPer := some v }
  | 2 => m.putTimer { x with run := true, start := m.now, wait := v }
  | 3 => m.timerSteps t (sgn 32 v)
  | 4 => m.putTimer { x with newWidth := some v }
  | _ => m

/-- R393: the mode or the period of a timer has been written: a periodic timer starts its period, in PULSE mode with its pulse. -/
def Main.timerRestart (m : Main) (t : Nat) : Main :=
  let x := m.timer t
  let pulse := m.get (F.TIMER_CFG_MODE t) = 4 ∧ m.get (F.TIMER_PER_PER t) ≠ 0
  m.putTimer { x with run := false, start := m.now, wait := 0, newPer := none, newWidth := none,
                      pulseEnd := if pulse then m.now + m.get (F.TIMER_PER_WIDTH t) else x.pulseEnd }

/-! ### SSI triggers (R379) -/

/-- R379: BITS in effect. -/
def Main.ssiBits (m : Main) (n : Nat) : Nat := Nat.max 8 (Nat.min 32 (m.get (F.AXIS_SSI_BITS n)))

/-- R379: the period in ps of the SSI clock: 800 MHz ÷ (2 × (DIV + 1)). -/
def Main.ssiPs (m : Main) (n : Nat) : Nat := 2500 * (Nat.max 99 (Nat.min 3999 (m.get (F.AXIS_SSI_DIV n))) + 1)

/-- R379: the rising edges that follow the first falling one. -/
def Main.ssiEdges (m : Main) (n : Nat) : Nat := m.ssiBits n + m.get (F.AXIS_SSI_EXTRA n)

/-- R379: ns from the first falling edge to the sample of the last bit, DELAY after the last rising edge. -/
def Main.ssiTime (m : Main) (n : Nat) : Nat :=
  (m.ssiPs n * (2 * m.ssiEdges n - 1) / 2 + 999) / 1000 + m.get (F.AXIS_SSI_DELAY n)

/-- R379, R400: the level of the Z pair of a port in SSI mode: the clock, which idles high; none while it is not enabled: high impedance. -/
def Main.ssiClock (m : Main) (n : Nat) : Option Bool :=
  let x := m.axis n
  if m.axisMode n ≠ 5 ∨ x.clk = false then none
  else some (match x.ssi with
    | some f =>
      let t := 1000 * (m.now - f.start)
      !(decide (t < m.ssiPs n * m.ssiEdges n) && decide (2 * (t % m.ssiPs n) < m.ssiPs n))
    | none => true)

/-- R379: a trigger starts a frame, or is skipped during a frame or within TM. -/
def Main.ssiStart (m : Main) (n : Nat) : Main :=
  let x := m.axis n
  if !x.clk then m
  else if x.ssi.isSome || decide (m.now < x.ssiFree) then m.bump (F.AXIS_SSIVAL_SKIPS n)
  else m.putAxis { x with ssi := some { start := m.now } }

/-- R379: an expiry event of a timer triggers the axis ports in SSI mode that name it. -/
def Main.ssiExpiry (m : Main) (t : Nat) : Main :=
  ((List.range 64).filter (fun n => m.axisMode n == 5 && m.flag (F.AXIS_SSI_TRIGSRC n) && m.get (F.AXIS_SSI_TIM n) == t)).foldl Main.ssiStart m

/-- TIMER_EXPIRY (R393, R379): an expiry in PERIODIC or ONESHOT mode; in PULSE mode the start of the next period. -/
def Main.timerExpiry (m : Main) (t : Nat) : Main :=
  let x := m.timer t
  let per := m.get (F.TIMER_PER_PER t)
  let fire := fun (m : Main) =>
    let m := m.bump (F.TIMER_STAT_EXPIRIES t)
    (m.event (448 + t) (m.get (F.TIMER_STAT_EXPIRIES t))).ssiExpiry t
  match m.get (F.TIMER_CFG_MODE t) with
  | 1 =>
    if per = 0 ∨ m.now < x.start + per then m
    else
      let m := match x.newPer with
        | some p => m.set (F.TIMER_PER_PER t) p
        | none => m
      fire (m.putTimer { x with start := x.start + per, newPer := none, pulseEnd := m.now + m.get (F.TIMER_PER_WIDTH t) })
  | 2 =>
    if !x.run || decide (m.now < x.start + x.wait) then m
    else fire (m.putTimer { x with run := false, pulseEnd := m.now + m.get (F.TIMER_PER_WIDTH t) })
  | 4 =>
    if per = 0 ∨ m.now < x.start + per then m
    else
      let m := match x.newWidth with
        | some w => m.set (F.TIMER_PER_WIDTH t) w
        | none => m
      m.putTimer { x with start := x.start + per, newWidth := none,
                          pulseEnd := x.start + per + m.get (F.TIMER_PER_WIDTH t) }
  | _ => m

/-- TIMER_EXPIRY: a timer expires. -/
def execTimerExpiry (t : Fin 64) (s : State) : Host.Outcome State Fault Refusal := s.onMain fun m => m.unlessStandby fun m => m.timerExpiry t.val

/-- A GPIO that is driven (R400). -/
def Main.gpioDriven (m : Main) (n : Nat) : Bool := decide (n < 448) && m.flag (F.GPIO_CFG_OE n)

/-- PINCONF (R392): a lower-numbered enabled timer names the same pin. -/
def Main.pinConf (m : Main) (t : Nat) : Bool :=
  let pin := m.get (F.TIMER_CFG_PIN t)
  decide (pin < 448) && (List.range t).any (fun u => m.get (F.TIMER_CFG_MODE u) != 0 && m.get (F.TIMER_CFG_PIN u) == pin)

/-- R394: both pins of a step timer are driven. A timer in conflict over its pin still runs (R392). -/
def Main.stepDriven (m : Main) (t : Nat) : Bool :=
  m.gpioDriven (m.get (F.TIMER_CFG_PIN t)) && m.gpioDriven (m.get (F.TIMER_CFG_DIRPIN t))

/-- TIMER_STEP_PULSE (R394): one step pulse. -/
def Main.stepPulse (m : Main) (t : Nat) : Main :=
  let x := m.timer t
  let p := m.timerPend t
  if m.get (F.TIMER_CFG_MODE t) ≠ 3 ∨ p = 0 ∨ m.now < x.ready ∨ m.stepDriven t = false then m
  else
    let d : Int := if 0 < p then 1 else -1
    let m := (m.set (F.TIMER_STEP_PEND t) (uns 32 (p - d))).set (F.TIMER_POS_POS t)
      (uns 64 (sgn 64 (m.get (F.TIMER_POS_POS t)) + d))
    let m := m.putTimer { x with pulseEnd := m.now + m.stepWidth t, ready := m.now + m.stepPer t }
    if p - d = 0 then m.event (448 + t) (m.get (F.TIMER_POS_POS t)) else m

/-- TIMER_STEP_PULSE: a timer in STEP mode emits a pulse. -/
def execTimerStepPulse (t : Fin 64) (s : State) : Host.Outcome State Fault Refusal := s.onMain fun m => m.unlessStandby fun m => m.stepPulse t.val

/-! ### Pin levels (R392 to R394, R402) -/

/-- R393, R394: the level that a timer gives its PIN: its pulse, active-low with POL. -/
def Main.timerOut (m : Main) (t : Nat) : Bool := decide (m.now < (m.timer t).pulseEnd) != m.flag (F.TIMER_CFG_POL t)

/-- R394: the level that a step timer gives its DIRPIN: the direction, from the end of the pulse in progress on. -/
def Main.timerDirOut (m : Main) (t : Nat) : Bool := (m.timer t).up != decide (m.now < (m.timer t).turn)

/-- R392, R394: the timer that drives a pin, and whether the pin is its DIRPIN. A timer in conflict over its PIN drives nothing; a
PIN goes before a DIRPIN (log 212). -/
def Main.pinTimer (m : Main) (n : Nat) : Option (Nat × Bool) :=
  let on := (List.range 64).filter (fun t => m.get (F.TIMER_CFG_MODE t) != 0 && !m.pinConf t)
  match on.find? (fun t => m.get (F.TIMER_CFG_PIN t) == n) with
  | some t => some (t, false)
  | none => (on.find? (fun t => m.get (F.TIMER_CFG_MODE t) == 3 && m.get (F.TIMER_CFG_DIRPIN t) == n)).map (fun t => (t, true))

/-- R391, R392, R402: what a GPIO pin drives: none for high impedance, as when it is not enabled, when no timer names a pin whose SRC is 1,
and for the high level of an open drain (log 212). -/
def Main.gpioPin (m : Main) (n : Nat) : Option Bool :=
  let level := if !m.flag (F.GPIO_CFG_SRC n) then some (m.gpioLatch n)
    else (m.pinTimer n).map (fun p => if p.2 then m.timerDirOut p.1 else m.timerOut p.1)
  if !m.flag (F.GPIO_CFG_OE n) || (m.flag (F.GPIO_CFG_OD n) && level == some true) then none else level

/-! ### Channels (R215, R398) -/

/-- R398: a value that the channel takes. -/
def Main.chanValueOk (m : Main) (c v : Nat) : Bool :=
  if c < 0x40 then decide (-131072 ≤ sgn 64 v ∧ sgn 64 v ≤ 131071)
  else if c < 0x140 then (if c % 4 = 3 then decide (v < 64) else decide (v < 2 ^ 20))
  else if c < 0x3C0 then decide (v < 3)
  else if m.get (F.TIMER_CFG_MODE (c - 0x400)) = 3 then decide (v < 2 ^ 31 ∨ 2 ^ 64 - 2 ^ 31 ≤ v) else decide (v < 2 ^ 32)

/-- R218, R398: a write reaches its output unit. -/
def Main.applyOut (m : Main) (c v : Nat) : Main :=
  if c < 0x40 then m.dacWrite c (v % 2 ^ 18)
  else if c < 0x140 then m.motorShadow ((c - 0x100) / 4) (c % 4) v
  else if c < 0x3C0 then m.gpioChannel (c - 0x200) v
  else m.timerChannel (c - 0x400) (v % 2 ^ 32)

/-! ### Enables and the gate (R399 to R402) -/

/-- R399: a safety-gated output. -/
def Main.gated (m : Main) (o : OutSel) : Bool :=
  match o with
  | .dac _ | .motor _ => true
  | .gpio n => bitsOf (m.get (F.GPIO_GATEMAP_GATED (n.val / 64))) (n.val % 64) 1 == 1
  | .res _ | .tape _ => false

/-- R474: the island's gate is open for an output. -/
def Main.gateOpen (m : Main) (o : OutSel) : Bool :=
  match o with
  | .dac n => bitsOf m.port.openDac n.val 1 == 1
  | .motor k => bitsOf m.port.openMot k.val 1 == 1
  | .gpio n => bitsOf m.port.openGpio n.val 1 == 1
  | .res _ | .tape _ => true

/-- R400: the modes that accept the enable of a gated output. -/
def gateMode (mode : Nat) : Bool := [3, 4, 5, 6, 8, 9].contains mode

/-- R400, R518: the modes that accept the enable of an output. -/
def Main.modeAllows (m : Main) (mode : Nat) (o : OutSel) : Bool :=
  if m.gated o then gateMode mode else decide (3 ≤ mode)

/-- The enable bit of an output. -/
def Main.enabled (m : Main) (o : OutSel) : Bool :=
  match o with
  | .dac n => m.flag (F.AXIS_DAC_OE n.val)
  | .motor k => m.flag (F.MOTOR_CTL_OE k.val)
  | .gpio n => m.flag (F.GPIO_CFG_OE n.val)
  | .res i => m.flag (F.ANA_RES_CFG_EN i.val)
  | .tape p => m.flag (F.TAPE_CTL_GO p.val)

/-- Write the enable bit of an output. A motor port's outputs stay inactive until the next carrier zero (R400). -/
def Main.putEnable (m : Main) (o : OutSel) (v : Nat) : Main :=
  match o with
  | .dac n => m.set (F.AXIS_DAC_OE n.val) v
  | .motor k => (m.set (F.MOTOR_CTL_OE k.val) v).putMotor { m.motor k.val with follow := false, drv := false }
  | .gpio n => m.set (F.GPIO_CFG_OE n.val) v
  | .res i =>
    let m := m.set (F.ANA_RES_CFG_EN i.val) v
    let rest := m.port.ress.filter (fun x => x.i != i.val)
    let m : Main := { m with port := { m.port with ress := rest ++ [{ i := i.val, held := true, start := m.now }] } }
    if v = 0 then m.refsStand [5] i.val else m
  | .tape p =>
    let m := m.set (F.TAPE_CTL_GO p.val) v
    if v = 0 then { m with port := { m.port with tapes := m.port.tapes.map (fun t => if t.p = p.val then { t with holes := none, want := false } else t) } }
    else m

/-- R381, R400, R402: the excitation of a resolver interface: frequency in Hz, peak in 10 mV, and ns since it started at phase 0; none: high
impedance. -/
def Main.excPin (m : Main) (i : Nat) : Option (Nat × Nat × Nat) :=
  if !m.flag (F.ANA_RES_CFG_EN i) then none
  else some (m.get (F.ANA_RES_CFG_EXCF i), m.get (F.ANA_RES_CFG_AMP i), m.now - ((m.port.ress.find? (fun x => x.i == i)).map (fun x => x.start)).getD 0)

/-- R383, R402: the code that a DAC drives or settles to; none: high impedance. -/
def Main.dacPin (m : Main) (n : Nat) : Option Int :=
  if m.flag (F.AXIS_DAC_OE n) then some (sgn 18 (m.get (F.AXIS_DAC_CODE n))) else none

/-- R400: the refusal of an enable write. -/
def Main.oeRef (m : Main) (o : OutSel) : Main :=
  match o with
  | .dac n => m.set (F.AXIS_DAC_OEREF n.val) 1
  | .motor k => m.set (F.MOTOR_CTL_OEREF k.val) 1
  | .gpio n => m.set (F.GPIO_CFG_OEREF n.val) 1
  | .res i => m.set (F.ANA_RES_VAL_OEREF i.val) 1
  | .tape p => m.set (F.TAPE_CTL_OEREF p.val) 1

/-- R400: a write of an enable bit. -/
def Main.enableWrite (m : Main) (o : OutSel) (v : Bool) : Main :=
  if !v then (if m.enabled o then m.putEnable o 0 else m)
  else if m.enabled o then m
  else if m.modeAllows m.mode o && (!m.gated o || m.gateOpen o) then m.putEnable o 1
  else m.oeRef o

/-- OUTPUT_ENABLE_WRITE (R400). -/
def execOutputEnableWrite (o : OutSel) (v : Bool) (s : State) : Host.Outcome State Fault Refusal :=
  s.onMain fun m => m.enableWrite o v

/-- Every output with an enable bit. -/
def allOutputs : List OutSel :=
  (List.finRange 64).map OutSel.dac ++ (List.finRange 16).map OutSel.motor ++ (List.finRange 448).map OutSel.gpio ++
  (List.finRange 16).map OutSel.res ++ (List.finRange 2).map OutSel.tape

/-- R400: the modes that accept the enable of an SSI clock. -/
def clkMode (mode : Nat) : Bool := decide (3 ≤ mode)

/-- R400: entering a mode clears the enables that the mode refuses, without GATEDROP: an SSI clock stops, with the frame in progress (log 248). -/
def Main.modeClears (m : Main) (mode : Nat) : Main :=
  let m := if clkMode mode then m
    else { m with port := { m.port with axes := m.port.axes.map (fun x => if x.clk then { x with clk := false, ssi := none } else x) } }
  let m := if gateMode mode then m
    else { m with port := { m.port with motors := m.port.motors.map (fun x => { x with drv := false }) } }
  (allOutputs.filter (fun o => m.enabled o && !m.modeAllows mode o)).foldl (fun m o => m.putEnable o 0) m

/-- R401: a gated output is dropped by the gate. -/
def Main.gateDrop (m : Main) (o : OutSel) : Main :=
  let m := m.putEnable o 0
  match o with
  | .dac n => (m.set (F.AXIS_DAC_GATEDROP n.val) 1).bump (F.AXIS_DAC_GATEDROPS n.val)
  | .motor k => (m.set (F.MOTOR_CTL_GATEDROP k.val) 1).bump (F.MOTOR_STAT_GATEDROPS k.val)
  | .gpio n => (m.set (F.GPIO_CFG_GATEDROP n.val) 1).bump F.GPIO_STAT_GATEDROPS
  | _ => m

/-- R401, R452: a motor port that the survey engine drives loses its outputs, and its pair, when its gate is closed. -/
def Main.windGate (m : Main) : Main :=
  (m.port.motors.filter (fun x => x.drv && !m.gateOpen (.motor (Fin.ofNat 16 x.m)))).foldl
    (fun m x => (m.windAbort x.m).putMotor { m.motor x.m with drv := false }) m

/-- R401: every enabled gated output whose gate is closed is dropped. -/
def Main.gateDrops (m : Main) : Main :=
  Main.windGate ((allOutputs.filter (fun o => m.enabled o && m.gated o && !m.gateOpen o)).foldl Main.gateDrop m)

/-- GATE_CLOSURE (R401): the gate lines take new values. -/
def Main.setGates (m : Main) (dac mot gpio : Nat) : Main :=
  Main.gateDrops { m with port := { m.port with openDac := dac, openMot := mot, openGpio := gpio } }

end Sys2Proof.Machine
end

