-- ==== Sys2Proof/Machine/Axis.lean ====
section
/-! DEFINITION. The axis ports, resolver interfaces and general analog inputs (R372 to R382) and the GPIO inputs (R391). -/

namespace Sys2Proof.Machine

/-! ### Axis ports -/

/-- R380: in HALL mode STAT.HALL shows the Hall state of the receivers. -/
def Main.hallShow (m : Main) (n : Nat) : Main :=
  let x := m.axis n
  if m.axisMode n = 6 then m.set (F.AXIS_STAT_HALL n) (b2n x.a + 2 * b2n x.b + 4 * b2n x.z) else m

/-- R377: the receivers that a mode checks, as a mask of A, B and Z. -/
def losMask (mode : Nat) : Nat :=
  if 1 ≤ mode ∧ mode ≤ 4 then 7 else if mode = 5 then 1 else 0

/-- R380: raise a cause of an axis port, if it is enabled. -/
def Main.axisCause (m : Main) (n k : Nat) : Main :=
  if bitsOf (m.get (F.AXIS_EVT_CAUSEEN n)) (k - 1) 1 = 1 then m.event (320 + n) (k + m.get (F.AXIS_CNT_CNT n) % 2 ^ 24 * 256) else m

/-- R380, cause 1: a counter step brings CNT from a to b, to the compare value or past it. -/
def cmpCrossed (cmp a b : Int) : Bool := decide ((a < cmp ∧ cmp ≤ b) ∨ (b ≤ cmp ∧ cmp < a))

/-- CNT takes a value, and a WINDING that watches the port sees it (R452). -/
def Main.putCnt (m : Main) (n v : Nat) : Main := (m.set (F.AXIS_CNT_CNT n) v).windWatch n

/-- R377, R442: the references of a kind that follow a port and are not held by a lost signal or a stimulus. -/
def Main.refsLive (m : Main) (kind n : Nat) : List Nat := (m.refsOn [kind] n).filter (fun r => !m.refLost r)

/-- R374, R375, R442: counter steps: CNT and the raw count move by d, and references of KIND COUNT see the edge. Under a stimulus CNT holds. -/
def Main.axisStep (m : Main) (n : Nat) (d : Int) (ts : Nat) : Main :=
  if d = 0 ∨ m.survPort n = true then m
  else
    let x := m.axis n
    let old := sgn 64 (m.get (F.AXIS_CNT_CNT n))
    let m := (m.putCnt n (uns 64 (old + d))).putAxis { x with raw := x.raw + d }
    let m := if cmpCrossed (sgn 64 (m.get (F.AXIS_CMP_VALUE n))) old (old + d) then m.axisCause n 1 else m
    (m.refsLive 2 n).foldl (fun m r => m.refEdge r (x.raw + d) ts) m

/-- R373: a quadrature error. -/
def Main.axisQerr (m : Main) (n : Nat) : Main := (m.bump (F.AXIS_STAT_QERR n)).axisCause n 2

/-- R377: what the loss of a receiver that the mode uses does. -/
def Main.axisLost (m : Main) (n rx : Nat) : Main :=
  (((m.set (F.AXIS_STAT_LOS n) 1).axisCause n 3).raiseSrc 31 0 0 (n + rx * 64)).refsStand [2, 3, 4] n

/-- The quadrant of the angle that a pair of comparator levels shows: sine on A, cosine on B (R378). -/
def quadrant (a b : Bool) : Nat :=
  match a, b with
  | true, true => 0
  | true, false => 1
  | false, false => 2
  | false, true => 3

/-- R378: the quarter count brought to the quadrant of the levels, within its period. -/
def alignQuarters (q : Int) (a b : Bool) : Int := q / 4 * 4 + quadrant a b

/-- A write to AXIS[n].CFG (R372, R376). One with MODE SSI enables the clock, where the device's mode accepts it (R400, log 248). -/
def Main.axisCfgWrite (m : Main) (n v : Nat) : Main :=
  let mode := bitsOf v 0 4
  let bad := decide (7 ≤ mode ∨ (mode = 4 ∧ 32 ≤ n))
  let old := m.axisMode n
  let mode' := if bad then old else mode
  let qm := bitsOf v 4 2
  let qm' := if qm = 3 then m.get (F.AXIS_CFG_QMULT n) else qm
  let dir := bitsOf v 23 1
  let used := (m.refsOn [2, 3, 4] n) != []
  let locked := used && !(mode' == old && qm' == m.get (F.AXIS_CFG_QMULT n) && dir == m.get (F.AXIS_CFG_DIRINV n))
  let inv := bitsOf v 17 3
  let was := m.get (F.AXIS_CFG_INV n)
  let m := if bad || locked then m.set (F.AXIS_STAT_CFGERR n) 1 else m
  let m := if locked then m
    else ((m.set (F.AXIS_CFG_MODE n) mode').set (F.AXIS_CFG_QMULT n) qm').set (F.AXIS_CFG_DIRINV n) dir
  let m := (m.set (F.AXIS_CFG_FILT n) (bitsOf v 6 8)).set (F.AXIS_CFG_IDXQUAL n) (bitsOf v 16 1)
  let m := if bitsOf v 14 2 = 3 then m else m.set (F.AXIS_CFG_IDXMODE n) (bitsOf v 14 2)
  let m := (m.set (F.AXIS_CFG_INV n) inv).set (F.AXIS_CFG_TERM n) (bitsOf v 20 3)
  let x := m.axis n
  let flip := fun (k : Nat) (l : Bool) => l != (bitsOf inv k 1 != bitsOf was k 1)
  let x := { x with a := flip 0 x.a, b := flip 1 x.b, z := flip 2 x.z }
  let changed := m.axisMode n != old
  let x := if changed then { x with quarters := alignQuarters x.quarters x.a x.b, ssi := none, ssiLast := none } else x
  let ssi := decide (m.axisMode n = 5)
  let x := { x with clk := ssi && (clkMode m.mode || x.clk) }
  let m := if ssi && !x.clk then m.set (F.AXIS_DAC_OEREF n) 1 else m
  let m := (m.putAxis x).hallShow n
  if !changed then m
  else
    let now := losMask (m.axisMode n)
    let m := m.set (F.AXIS_STAT_LOS n) 0
    let m := m.set (F.AXIS_STAT_COARSE n) 0
    (List.range 3).foldl (fun m k => if bitsOf (x.lost &&& now) k 1 = 1 then m.axisLost n k else m) m

/-- AXIS_CFG_WRITE. -/
def execAxisCfgWrite (n : Fin 64) (v : Word) (s : State) : Host.Outcome State Fault Refusal :=
  s.onMain fun m => m.axisCfgWrite n.val v.toNat

/-- AXIS_PRESET_WRITE (R374): sets CNT; no event and no reference moves (R375, R380). -/
def execAxisPresetWrite (n : Fin 64) (v : Word) (s : State) : Host.Outcome State Fault Refusal :=
  s.onMain fun m => m.putCnt n.val v.toNat

/-- R376: an accepted index: captures, counts, raises its event, and zeroes CNT as IDXMODE says. -/
def Main.axisIndex (m : Main) (n ts : Nat) : Main :=
  let cnt := m.get (F.AXIS_CNT_CNT n)
  let m := ((m.set (F.AXIS_IDXCAP_CNT n) cnt).set (F.AXIS_IDXTIME_TIME n) ts).bump (F.AXIS_STAT_IDXCOUNT n)
  let m := m.event (256 + n) cnt
  match m.get (F.AXIS_CFG_IDXMODE n) with
  | 1 => (m.putCnt n 0).set (F.AXIS_CFG_IDXMODE n) 0
  | 2 => m.putCnt n 0
  | _ => m

/-- R372, R373: the direction of one quadrature step from levels (a, b) to (a', b'), for a leading B counting up; none for a
change that is not one step. -/
def quadStep (a b a' b' : Bool) : Option Int :=
  let pos := fun (a b : Bool) => match a, b with
    | false, false => 0
    | true, false => 1
    | true, true => 2
    | false, true => 3
  let d := (pos a' b' + 4 - pos a b) % 4
  if d = 0 then some 0 else if d = 1 then some 1 else if d = 3 then some (-1) else none

/-- R380: the place of a Hall state in the forward sequence. -/
def hallPos (h : Nat) : Option Nat := [1, 3, 2, 6, 4, 5].idxOf? h

/-- R380: the step between two Hall states; none for a quadrature error. -/
def hallStep (h h' : Nat) : Option Int :=
  match hallPos h, hallPos h' with
  | some i, some j =>
    if j = (i + 1) % 6 then some 1 else if i = (j + 1) % 6 then some (-1) else if i = j then some 0 else none
  | _, _ => none

/-- DIRINV (R372). -/
def Main.axisSign (m : Main) (n : Nat) (d : Int) : Int := if m.flag (F.AXIS_CFG_DIRINV n) then -d else d

/-- R378: a comparator edge in SINCOS mode moves the quarter count; while COARSE, CNT advances with it. -/
def Main.sincosEdge (m : Main) (n : Nat) (x : AxisSt) (a b : Bool) (ts : Nat) : Main :=
  let d := (quadrant a b + 4 - quadrant x.a x.b) % 4
  let q : Int := if d = 1 then 1 else if d = 3 then -1 else 0
  let coarse := m.flag (F.AXIS_STAT_COARSE n)
  let m := m.putAxis { x with a := a, b := b, quarters := x.quarters + q, sc := if coarse then x.sc + 1024 * q else x.sc }
  if coarse then m.axisStep n (m.axisSign n (1024 * q)) ts else m

/-- R372, R380: the counter step of a change of levels in QUAD, STEPDIR, UPDOWN and HALL modes; none for a quadrature error. -/
def Main.axisCount (m : Main) (n : Nat) (x : AxisSt) (a b z : Bool) : Option Int :=
  match m.axisMode n with
  | 1 =>
    match quadStep x.a x.b a b with
    | none => none
    | some d =>
      match m.get (F.AXIS_CFG_QMULT n) with
      | 0 => some d
      | 1 => some (if a != x.a then d else 0)
      | _ => some (if a && !x.a then d else 0)
  | 2 => some (if a && !x.a then (if b then 1 else -1) else 0)
  | 3 => some ((if a && !x.a then 1 else 0) - (if b && !x.b then 1 else 0))
  | 6 =>
    let h := fun (a b z : Bool) => b2n a + 2 * b2n b + 4 * b2n z
    if h a b z = h x.a x.b x.z then some 0 else hallStep (h x.a x.b x.z) (h a b z)
  | _ => some 0

/-- AXIS_EDGE (R373, R374, R376): the levels accepted in one sample. An index is dealt with before the edges of the sample;
edges of a lost receiver (R377) or of one under stimulus (R442) are ignored. -/
def Main.axisEdge (m : Main) (n : Nat) (a b z : Bool) (ts : Nat) : Main :=
  let x := m.axis n
  let mode := m.axisMode n
  let lost := fun (k : Nat) => bitsOf (x.lost &&& losMask mode) k 1 == 1 || m.survDeaf n k
  let m := ((m.survReads n 0 a).survReads n 1 b).survReads n 2 z
  let a := if lost 0 then x.a else a
  let b := if lost 1 then x.b else b
  let z := if lost 2 then x.z else z
  let index := z && !x.z && decide (1 ≤ mode ∧ mode ≤ 4) && (!m.flag (F.AXIS_CFG_IDXQUAL n) || (a && b))
  let m := if index then m.axisIndex n ts else m
  let x := { x with z := z }
  if mode = 4 then m.sincosEdge n x a b ts
  else
    let m' := m.putAxis { x with a := a, b := b }
    let m' := m'.hallShow n
    match m.axisCount n { x with z := (m.axis n).z } a b z with
    | some d => m'.axisStep n (m.axisSign n d) ts
    | none => m'.axisQerr n

/-- AXIS_EDGE: the levels of A, B and Z after INV, with the timestamp of the stable run. -/
def execAxisEdge (n : Fin 64) (a b z : Bool) (ts : Nat) (s : State) : Host.Outcome State Fault Refusal :=
  s.onMain fun m => m.unlessStandby fun m => m.axisEdge n.val a b z ts

/-- AXIS_INDEX (R376): Z rises. -/
def execAxisIndex (n : Fin 64) (ts : Nat) (s : State) : Host.Outcome State Fault Refusal :=
  s.onMain fun m => m.unlessStandby fun m => m.axisEdge n.val (m.axis n.val).a (m.axis n.val).b true ts

/-- AXIS_LOSS_OF_SIGNAL (R377): a receiver is lost. -/
def Main.axisLoss (m : Main) (n rx : Nat) : Main :=
  let x := m.axis n
  if bitsOf x.lost rx 1 = 1 then m
  else
    let m := m.putAxis { x with lost := x.lost + 2 ^ rx }
    if bitsOf (losMask (m.axisMode n)) rx 1 = 1 then (m.set (F.AXIS_STAT_LOSTPOS n) 1).axisLost n rx else m

/-- AXIS_LOSS_OF_SIGNAL. -/
def execAxisLossOfSignal (n : Fin 64) (rx : Fin 3) (s : State) : Host.Outcome State Fault Refusal :=
  s.onMain fun m => m.axisLoss n.val rx.val

/-- AXIS_SIGNAL_RETURN (R377): counting resumes from the levels then seen; missed steps are not recovered. -/
def Main.axisReturn (m : Main) (n rx : Nat) (level : Bool) : Main :=
  let x := m.axis n
  if bitsOf x.lost rx 1 = 0 then m
  else
    let x := { x with lost := x.lost - 2 ^ rx }
    let x := if bitsOf (losMask (m.axisMode n)) rx 1 = 0 then x
      else match rx with
      | 0 => { x with a := level }
      | 1 => { x with b := level }
      | _ => { x with z := level }
    let x := { x with quarters := alignQuarters x.quarters x.a x.b }
    (m.putAxis x).set (F.AXIS_STAT_LOS n) (b2n (x.lost &&& losMask (m.axisMode n) != 0))

/-- AXIS_SIGNAL_RETURN: the level of the receiver after INV when its signal returns. -/
def execAxisSignalReturn (n : Fin 64) (rx : Fin 3) (level : Bool) (s : State) : Host.Outcome State Fault Refusal :=
  s.onMain fun m => m.axisReturn n.val rx.val level

/-! ### The fine angle (R378) -/

/-- pi in units of 2^-96. -/
def pi96 : Nat := 248902613312231085230521944622

/-- The rest of Euler's series for the arc tangent of y/x in units of 2^-96, n terms from term k on; t is the current term. -/
def atanSeries (y2 r2 : Nat) : Nat → Nat → Nat → Nat
  | 0, _, _ => 0
  | n + 1, k, t => t + atanSeries y2 r2 n (k + 1) (t * (2 * (k + 1)) * y2 / ((2 * k + 3) * r2))

/-- The arc tangent of y/x for 0 ≤ y < x, in whole 1/4096 turns, rounded down (log 43). -/
def atanOct (y x : Nat) : Nat :=
  let r2 := x * x + y * y
  atanSeries (y * y) r2 110 0 (2 ^ 96 * (x * y) / r2) * 2048 / pi96

/-- The angle of a direction within the first quadrant, x > 0 and y ≥ 0, in whole 1/4096 turns rounded down. -/
def atanQuad (y x : Nat) : Nat :=
  if y = 0 then 0
  else if y < x then atanOct y x
  else if y = x then 512
  else 1023 - atanOct x y

/-- R378: phi of a direction (y, x) other than (0, 0), in 0 to 4095. -/
def phiOf (y x : Int) : Nat :=
  if 0 < x ∧ 0 ≤ y then atanQuad y.natAbs x.natAbs
  else if x ≤ 0 ∧ 0 < y then 1024 + atanQuad x.natAbs y.natAbs
  else if x < 0 ∧ y ≤ 0 then 2048 + atanQuad y.natAbs x.natAbs
  else 3072 + atanQuad x.natAbs y.natAbs

/-- R378: the position 4,096 × periods + phi that lies nearest to the middle of the counted quarter. -/
def mergePhi (quarters : Int) (phi : Nat) : Int :=
  let mid := 1024 * quarters + 512
  mid + ((phi - mid + 2048) % 4096 - 2048)

/-- SINCOS_SAMPLE (R378): amplitude check, fine angle, delivery to the references of KIND SINCOS. fast: the signal frequency lies
above 200 kHz. -/
def Main.sincosSample (m : Main) (n : Nat) (s c : Int) (fast : Bool) : Main :=
  if m.axisMode n ≠ 4 then m
  else
    let amp := (s * s + c * c).toNat
    let lo := m.get (F.AXIS_SCAMP_AMIN n)
    let hi := m.get (F.AXIS_SCAMP_AMAX n)
    let y := (s - sgn 16 (m.get (F.AXIS_SCCAL_SOFF n))) * 32768
    let x := (c - sgn 16 (m.get (F.AXIS_SCCAL_COFF n))) * m.get (F.AXIS_SCCAL_CGAIN n)
    let p := if y = 0 ∧ x = 0 then (fun (r : Nat × Main) => (r.1 % 4096, r.2)) m.takeFree else (phiOf y x, m)
    let m := p.2
    let m := m.set (F.AXIS_STAT_COARSE n) (b2n fast)
    let st := m.axis n
    let lost := st.lost &&& 3 != 0
    let m := if fast || lost then m
      else
        let pos := mergePhi st.quarters p.1
        (m.putAxis { st with quarters := pos / 1024, sc := pos }).axisStep n (m.axisSign n (pos - st.sc)) m.now
    let m := if amp < lo * lo ∨ hi * hi < amp then
        ((m.set (F.AXIS_STAT_AMP n) 1).axisCause n 6).raiseSrc 32 0 0 n
      else m
    if lost then m
    else (m.refsLive 3 n).foldl (fun m r => m.refSample r (m.axis n).raw (m.axis n).raw m.now) m

/-- SINCOS_SAMPLE: the two ADC codes of one sample. -/
def execSincosSample (n : Fin 32) (sine cosine : BitVec 16) (fast : Bool) (s : State) : Host.Outcome State Fault Refusal :=
  s.onMain fun m => m.unlessStandby fun m => m.sincosSample n.val sine.toInt cosine.toInt fast

/-! ### SSI (R379) -/

/-- SSI_TRIGGER (R379): with TRIGSRC 0 a trigger comes every PER µs, the first at the sender's time (log 213); a PER of 0 gives none. -/
def Main.ssiTrigger (m : Main) (n : Nat) : Main :=
  let per := 1000 * m.get (F.AXIS_SSI_PER n)
  let x := m.axis n
  let due := match x.ssiLast with
    | some t => decide (t + per ≤ m.now)
    | none => true
  if m.axisMode n ≠ 5 ∨ x.clk = false ∨ m.flag (F.AXIS_SSI_TRIGSRC n) = true ∨ per = 0 ∨ due = false then m
  else (m.putAxis { x with ssiLast := some (match x.ssiLast with
    | some t => m.now - (m.now - t) % per
    | none => m.now) }).ssiStart n

/-- SSI_TRIGGER. -/
def execSsiTrigger (n : Fin 64) (s : State) : Host.Outcome State Fault Refusal := s.onMain fun m => m.unlessStandby fun m => m.ssiTrigger n.val

/-- A Gray-coded word as binary: each bit is the parity of the bits from the top down to it. -/
def grayToBin (x : Nat) : Nat :=
  let y := x ^^^ (x >>> 1)
  let y := y ^^^ (y >>> 2)
  let y := y ^^^ (y >>> 4)
  let y := y ^^^ (y >>> 8)
  y ^^^ (y >>> 16)

/-- SSI_FRAME_COMPLETE (R379): the frame in progress ends, once its last bit has been sampled. startLow: A was low at its start; extra: the extra bits, the first of
them highest. -/
def Main.ssiComplete (m : Main) (n : Nat) (startLow : Bool) (word extra : Nat) : Main :=
  let x := m.axis n
  match x.ssi with
  | none => m
  | some f =>
    let tm := Nat.max 1 (m.get (F.AXIS_SSI_TM n))
    if m.now < f.start + m.ssiTime n then m
    else
    let m := m.putAxis { x with ssi := none, ssiFree := f.start + m.ssiTime n + 1000 * tm }
    let k := m.get (F.AXIS_SSI_EXTRA n)
    let bad := startLow || (k != 0 && bitsOf extra (k - 1) 1 == m.get (F.AXIS_SSI_ERRLVL n))
    if bad then (m.axisCause n 5).raiseSrc 32 0 0 n
    else
      let bits := m.ssiBits n
      let w := word % 2 ^ bits
      let w := if m.flag (F.AXIS_SSI_GRAY n) then grayToBin w else w
      let e := if k = 3 then (fun (r : Nat × Main) => (r.1 % 4, r.2)) m.takeFree else (extra % 2 ^ k, m)
      let m := (e.2.set (F.AXIS_SSIVAL_WORD n) w).set (F.AXIS_SSIVAL_EXTRA n) e.1
      let d : Int := match x.ssiWord with
        | some o => unwrapDiff (2 ^ bits) w o
        | none => w
      let m := if m.survPort n then m else m.putAxis { m.axis n with ssiWord := some w }
      let m := (m.axisStep n d f.start).axisCause n 4
      (m.refsLive 4 n).foldl (fun m r => m.refSample r (m.axis n).raw (m.axis n).raw f.start) m

/-- SSI_FRAME_COMPLETE. -/
def execSsiFrameComplete (n : Fin 64) (startLow : Bool) (word : BitVec 32) (extra : BitVec 3) (s : State) :
    Host.Outcome State Fault Refusal :=
  s.onMain fun m => m.unlessStandby fun m => m.ssiComplete n.val startLow word.toNat extra.toNat

/-! ### Resolvers and general analog inputs (R381, R382) -/

/-- RESOLVER_ANGLE (R381): one demodulated angle with its amplitude. -/
def Main.resolverAngle (m : Main) (i angle ampl : Nat) : Main :=
  if !m.flag (F.ANA_RES_CFG_EN i) then m
  else
    let hold := fun (m : Main) (h : Bool) =>
      let rest := m.port.ress.filter (fun x => x.i != i)
      let start := ((m.port.ress.find? (fun x => x.i == i)).map (fun x => x.start)).getD 0
      ({ m with port := { m.port with ress := rest ++ [{ i := i, held := h, start := start }] } } : Main)
    let m := m.set (F.ANA_RES_VAL_AMPL i) ampl
    if ampl < m.get (F.ANA_RES_CFG_LOSLIM i) then
      let m := if m.flag (F.ANA_RES_VAL_LOS i) then m else (m.set (F.ANA_RES_VAL_LOS i) 1).raiseSrc 33 0 0 i
      (hold m true).refsStand [5] i
    else
      let held := ((m.port.ress.find? (fun x => x.i == i)).map (fun x => x.held)).getD true
      let m := hold (m.set (F.ANA_RES_VAL_LOS i) 0) false
      let m := if held then m.set (F.ANA_RES_VAL_RESTART i) 1 else m
      let m := m.set (F.ANA_RES_VAL_ANGLE i) angle
      (m.refsOn [5] i).foldl (fun m r =>
        let st := m.refSt r
        m.refSample r (st.x + unwrapDiff (2 ^ 16) angle st.src) angle m.now) m

/-- RESOLVER_ANGLE. -/
def execResolverAngle (i : Fin 16) (angle ampl : BitVec 16) (s : State) : Host.Outcome State Fault Refusal :=
  s.onMain fun m => m.resolverAngle i.val angle.toNat ampl.toNat

/-- ANALOG_SAMPLE_GROUP (R382): AVG + 1 consecutive samples and their mean (log 47). -/
def Main.analogGroup (m : Main) (j : Nat) (xs : List Int) (clip : Bool) : Main :=
  if !m.flag (F.ANA_IN_CFG_EN j) || xs.length != m.get (F.ANA_IN_CFG_AVG j) + 1 then m
  else
    let q := m.takeQuot (xs.foldl (· + ·) 0) xs.length
    (q.2.set (F.ANA_IN_VAL_CODE j) (uns 16 q.1)).setIf clip (F.ANA_IN_VAL_OVR j) 1

/-- ANALOG_SAMPLE_GROUP: the samples of one group, and whether one of them clipped. -/
def execAnalogSampleGroup (j : Fin 16) (xs : List (BitVec 16)) (clip : Bool) (s : State) : Host.Outcome State Fault Refusal :=
  s.onMain fun m => m.analogGroup j.val (xs.map BitVec.toInt) clip

/-- The mains detector of an analog input. -/
def Main.mainsLast (m : Main) (j : Nat) : Option Nat := (m.port.mains.find? (fun x => x.j == j)).map (fun x => x.last)

/-- R382: a crossing that follows the last one by a period of 40 to 70 Hz, or is the first in 50 ms, is accepted; for any other the spec
states no result, and whether the detector accepts it is a free value (log 209). -/
def Main.mainsAccepts (m : Main) (j time : Nat) : Bool × Main :=
  match m.mainsLast j with
  | none => (true, m)
  | some t =>
    if t + 50000000 ≤ time ∨ (1000000000 ≤ 70 * (time - t) ∧ 40 * (time - t) ≤ 1000000000) then (true, m)
    else (m.takeFree.1 % 2 == 1, m.takeFree.2)

/-- MAINS_CROSSING (R382, R193): a rising zero crossing at an interpolated time. After 50 ms without one, the first crossing starts a
new period. -/
def Main.mainsCrossing (m : Main) (j time : Nat) : Main :=
  if !m.flag (F.ANA_IN_CFG_EN j) || !m.flag (F.ANA_IN_CFG_MAINS j) then m
  else match m.mainsAccepts j time with
  | (false, m) => m
  | (true, m) =>
    let per := match m.mainsLast j with
      | some t => if time < t + 50000000 then time - t else 0
      | none => 0
    let m := m.set (F.ANA_IN_VAL_PERIOD j) per
    let rest := m.port.mains.filter (fun x => x.j != j)
    let m : Main := { m with port := { m.port with mains := rest ++ [{ j := j, last := time }] } }
    (m.refsOn [7] j).foldl (fun m r => m.refEdge r ((m.refSt r).x + 1) time) m

/-- VAL.PERIOD (R382): 0 while no crossing has arrived for 50 ms. -/
def Main.mainsPeriod (m : Main) (j : Nat) : Nat :=
  match m.mainsLast j with
  | some t => if m.now < t + 50000000 then m.get (F.ANA_IN_VAL_PERIOD j) else 0
  | none => 0

/-- MAINS_CROSSING. -/
def execMainsCrossing (j : Fin 16) (time : Nat) (s : State) : Host.Outcome State Fault Refusal :=
  s.onMain fun m => m.mainsCrossing j.val time

/-! ### GPIO inputs (R391) -/

/-- GPIO_EDGE (R391): the filtered level of a pin, after INV. Pins 0 to 255 raise their event on the selected edges. -/
def Main.gpioEdge (m : Main) (n : Nat) (level : Bool) : Main :=
  let w := m.get (F.GPIO_IN_LEVEL (n / 64))
  let b := 2 ^ (n % 64)
  let was := bitsOf w (n % 64) 1 == 1
  if was == level then m
  else
    let m := m.set (F.GPIO_IN_LEVEL (n / 64)) (if level then w + b else w - b)
    let e := m.get (F.GPIO_CFG_EDGE n)
    if n < 256 ∧ bitsOf e (if level then 0 else 1) 1 = 1 then m.event n (if level then 3 else 0) else m

/-- R391: a write of GPIO_CFG.INV inverts the filtered level. -/
def Main.gpioInvert (m : Main) (n inv : Nat) : Main :=
  if m.get (F.GPIO_CFG_INV n) = inv then m
  else (m.set (F.GPIO_CFG_INV n) inv).gpioEdge n (bitsOf (m.get (F.GPIO_IN_LEVEL (n / 64))) (n % 64) 1 == 0)

/-- GPIO_EDGE. -/
def execGpioEdge (n : Fin 448) (level : Bool) (s : State) : Host.Outcome State Fault Refusal :=
  s.onMain fun m => m.gpioEdge n.val level

end Sys2Proof.Machine
end

