-- ==== Sys2Proof/Machine/Banks.lean ====
section
/-! DEFINITION. Bank handover and bank power (R261, R264, R265), error injection (R82, R292) and the patrol scrub (R269). -/

namespace Sys2Proof.Machine

/-- A compute die whose registers can be written. -/
def Main.onDie (m : Main) (d : Nat) (act : Main → Main) : Main := if m.compute d && m.dieLive d then act m else m

/-- The dredge run that has lent or taken a bank (R297, R301). -/
def Main.drOn (m : Main) (d b : Nat) : Option DredgeSt :=
  m.dredges.find? (fun x => x.die == d && !x.dram && !x.boot && x.bank == b && d != 0)

/-- Store a dredge run. -/
def Main.putDr (m : Main) (x : DredgeSt) : Main :=
  { m with dredges := m.dredges.filter (fun y => y.die != x.die) ++ [x] }

/-- R299, R301, R306: a run is to end with an error after its current strip or line operation; the first reason stays. -/
def Main.drEnding (m : Main) (x : DredgeSt) (err : Nat) : Main := m.putDr { x with ending := some (x.ending.getD err) }

/-- BANK_OWN_WRITE (R261): a handover starts. A write of KIND 5 to 7 leaves the register unchanged (R290). A destructive run loses its
bank (R301). -/
def Main.bankOwn (m : Main) (d b v : Nat) : Main :=
  let kind := bitsOf v 0 3
  if 5 ≤ kind then m
  else
    let m := match m.drOn d b with
      | some x => if x.destr && kind != 3 then m.drEnding x 2 else m
      | none => m
    (((m.set (F.BANK_OWN_KIND d b) kind).set (F.BANK_OWN_ID d b) (bitsOf v 8 8)).set (F.BANK_OWN_SHRD d b) (bitsOf v 16 1)).set
      (F.BANK_OWN_DONE d b) 0

/-- BANK_OWN_WRITE. -/
def execBankOwnWrite (d : Fin 8) (b : Fin 64) (v : Word) (s : State) : Host.Outcome State Fault Refusal :=
  s.onMain fun m => m.onDie d.val fun m => m.bankOwn d.val b.val v.toNat

/-- BANK_HANDOVER_DONE (R261): the drain ends; held accesses of the new owner go on. -/
def execBankHandoverDone (d : Fin 8) (b : Fin 64) (s : State) : Host.Outcome State Fault Refusal :=
  s.onMain fun m => m.onDie d.val fun m => m.set (F.BANK_OWN_DONE d.val b.val) 1

/-- BANK_PWR_WRITE (R264): a request for another state starts the change. A bank in RET or OFF begins to wake at once. -/
def Main.bankPwr (m : Main) (d b v : Nat) : Main :=
  let m := (m.set (F.BANK_PWR_AUTOWAKE d b) (bitsOf v 4 1)).setIf (bitsOf v 5 1 == 1) (F.BANK_PWR_RETEXIT d b) 0
  let req := bitsOf v 0 2
  if req = 3 then m
  else
    let m := m.set (F.BANK_PWR_REQ d b) req
    let m := match m.drOn d b with
      | some x => if req = 0 then m else m.drEnding x 4
      | none => m
    let st := m.get (F.BANK_PWR_STATE d b)
    let mem := { m.mem with change := if st = req then nmDel m.mem.change (64 * d + b) else nmIns m.mem.change (64 * d + b) req }
    let m := { m with mem := mem }
    if (st = 1 ∨ st = 2) ∧ st ≠ req ∧ ¬ (st = 1 ∧ req = 2) then m.set (F.BANK_PWR_STATE d b) 3 else m

/-- BANK_PWR_WRITE. -/
def execBankPwrWrite (d : Fin 8) (b : Fin 64) (v : Word) (s : State) : Host.Outcome State Fault Refusal :=
  s.onMain fun m => m.onDie d.val fun m => m.bankPwr d.val b.val v.toNat

/-- Whether a byte address lies in a bank. -/
def inBank (k a : Nat) : Bool := bankOf a == some k

/-- R264: the contents of a bank are lost. -/
def Main.bankLose (m : Main) (k : Nat) : Main :=
  let f := fun (a : Nat) => !inBank k a
  { m with mem := { m.mem with lost := if m.mem.lost.contains k then m.mem.lost else m.mem.lost ++ [k],
                               rewritten := m.mem.rewritten.filter f, ce := m.mem.ce.filter f, ue := m.mem.ue.filter f } }

/-- BANK_POWER_CHANGE_DONE (R264, R265, R299): an entry, wake or power-up ends. Entry into RET is held while RETBLK is 1, and
every entry while a dredge run restores its strip. -/
def Main.bankChanged (m : Main) (d b : Nat) : Main :=
  let k := 64 * d + b
  match m.mem.change.find? (fun p => p.1 == k) with
  | none => m
  | some (_, req) =>
    let clear := fun (m : Main) => ({ m with mem := { m.mem with change := nmDel m.mem.change k } } : Main)
    if m.get (F.BANK_PWR_STATE d b) = 3 then
      let m := m.set (F.BANK_PWR_STATE d b) 0
      if req = 0 then clear m else m
    else if (m.drOn d b).isSome ∨ (req = 1 ∧ m.flag (F.BANK_DIE_RETBLK d) = true) then m
    else
      let m := (clear m).set (F.BANK_PWR_STATE d b) req
      if req = 2 then m.bankLose k else m

/-- BANK_POWER_CHANGE_DONE. -/
def execBankPowerChangeDone (d : Fin 8) (b : Fin 64) (s : State) : Host.Outcome State Fault Refusal :=
  s.onMain fun m => m.onDie d.val fun m => m.bankChanged d.val b.val

/-- R265: RETBLK follows the junction temperature; when it rises, every bank in RET comes back to ON. -/
def Main.retBlock (m : Main) (d : Nat) (hot : Bool) : Main :=
  let was := m.flag (F.BANK_DIE_RETBLK d)
  let m := m.set (F.BANK_DIE_RETBLK d) (b2n hot)
  if !hot || was then m
  else (List.range 64).foldl (fun m b =>
    if m.get (F.BANK_PWR_STATE d b) = 1 then
      (((m.set (F.BANK_PWR_STATE d b) 0).set (F.BANK_PWR_RETEXIT d b) 1).bump (F.BANK_DIE_RETEXITS d)).raiseSrc 17 d d b
    else m) m

/-! ### Error injection -/

/-- MSCTL_INJECT (R82): armed for the next entry inserted into a tuft's store; both bits together inject only the uncorrectable one. -/
def Main.msInject (m : Main) (d t v : Nat) : Main :=
  let e := if bitsOf v 1 1 = 1 then 2 else bitsOf v 0 1
  if e = 0 then m else { m with tuft := { m.tuft with inj := nmIns m.tuft.inj (8 * d + t) e } }

/-- MSCTL_INJECT. -/
def execMsctlInject (d t : Fin 8) (v : Word) (s : State) : Host.Outcome State Fault Refusal :=
  s.onMain fun m => m.onDie d.val fun m => m.msInject d.val t.val v.toNat

/-- A memory die that can be reached. -/
def Main.onMemDie (m : Main) (d : Nat) (act : Main → Main) : Main :=
  if decide (6 ≤ d) && m.pop d && m.dieLive d then act m else m

/-- MEMCTL_INJECT (R292): armed for the next word written; an uncorrectable error takes precedence (log 95). -/
def Main.memInject (m : Main) (d v : Nat) : Main :=
  let e := if bitsOf v 1 1 = 1 then 2 else bitsOf v 0 1
  if e = 0 then m else { m with mem := { m.mem with inj := nmIns m.mem.inj d e } }

/-- MEMCTL_INJECT. -/
def execMemctlInject (d : Fin 8) (v : Word) (s : State) : Host.Outcome State Fault Refusal :=
  s.onMain fun m => m.onMemDie d.val fun m => m.memInject d.val v.toNat

/-! ### The patrol scrub -/

/-- PATROL_SCRUB_READ (R269): the next word of a memory die. -/
def Main.scrubRead (m : Main) (d : Nat) : Main :=
  if !m.flag (F.MEMCTL_SCRUB_EN d) || !m.flag (F.MEMCTL_STAT_READY d) then m
  else
    let k := nmGet m.mem.scrub d 0
    let wa := (d - 6) * 0x100000000 + 8 * k
    let m := if m.wordUe wa then m.countUe wa 1 else if m.mem.ce.contains wa then m.countCe wa true else m
    let k' := (k + 1) % 2 ^ 29
    let m := { m with mem := { m.mem with scrub := nmPut m.mem.scrub d k' 0 } }
    if k' = 0 then m.bump (F.MEMCTL_SCRUB_PASSES d) else m

/-- PATROL_SCRUB_READ. -/
def execPatrolScrubRead (d : Fin 8) (s : State) : Host.Outcome State Fault Refusal :=
  s.onMain fun m => m.onMemDie d.val fun m => m.scrubRead d.val

end Sys2Proof.Machine
end

