-- ==== Sys2Proof/Machine/RunnelOps.lean ====
section
/-! DEFINITION. The runnel operations (R140 to R146), requests held in the engine, and push delivery (R317, R318). -/

namespace Sys2Proof.Machine

/-! ### The way to a runnel's die (R330) -/

/-- R330: the neighbouring die from which traffic of a die enters another one. -/
def Main.entersFrom (m : Main) (s d : Nat) : List Nat :=
  if s = d then [] else [(m.path s d).getD ((m.path s d).length - 2) s]

/-! ### Results (R129) -/

/-- PKT (R129). NEXT has 16 bits (log 222). -/
def pktVal (d i next serial : Nat) : Opnd := opControl (0x10 + rnId d i * 2 ^ 8 + next % 65536 * 2 ^ 25 + serial * 2 ^ 41)

/-- RSTAT (R129). -/
def rstat (status count d i : Nat) : Opnd := opControl (0x11 + status * 2 ^ 8 + count % 65536 * 2 ^ 12 + rnId d i * 2 ^ 28)

/-- RXINFO (R129). low holds FIRST, LAST and INDEX as bits 12 to 29. -/
def rxinfo (status low d i : Nat) : Opnd := opControl (0x12 + status * 2 ^ 8 + low % 2 ^ 18 * 2 ^ 12 + rnId d i * 2 ^ 30)

/-- The RSTAT of a packet that was not delivered: its COUNT is open (log 34). -/
def Main.rstatLost (m : Main) (f : Firing) (status d i : Nat) : Main :=
  let r := m.takeFree
  r.2.answerBoth f (rstat status r.1 d i)

/-- The RXINFO of a RECV that returns no word: FIRST, LAST and INDEX are open (log 34). -/
def Main.rxNone (m : Main) (f : Firing) (status d i : Nat) : Main :=
  let r := m.takeFree
  r.2.answer f none (some (rxinfo status r.1 d i))

/-! ### Performing a request at the engine; none: it must be held -/

/-- NOWAIT (R140). -/
def Firing.nowait (f : Firing) : Bool := f.i.flags.getLsbD 0

/-- SEND (R141, R144, R486). -/
def Main.rnSend (m : Main) (f : Firing) (d i : Nat) (io : RnIo) : Option Main :=
  let r := m.rn d i
  if m.rnRoom r then
    let s := m.rnSerial d i
    if io.ecc = .uncorrectable then
      some (((s.2.bump (F.RUNNEL_STAT_ABORTS d i)).rnFault d i fcPktEcc (some f.ret)).rstatLost f 3 d i)
    else
      match s.2.rnCommit d i s.1 [f.left] r.open_ with
      | (true, m) => some (m.answerBoth f (rstat 0 1 d i))
      | (false, m) => some (m.rstatLost f 3 d i)
  else if f.nowait then some (m.answerBoth f (rstat 1 0 d i))
  else none

/-- RECV (R141, R146). A RECV that finds others held before it waits behind them; with NOWAIT it finds nothing when they take all that is
visible (DEDUCED, log 242). -/
def Main.rnRecv (m : Main) (f : Firing) (d i : Nat) (io : RnIo) : Option Main :=
  let r := m.rn d i
  let before := r.held.countP (fun h => h.op == some .recv)
  let empty := if f.nowait && decide (r.seen ≤ before) then some (m.rxNone f 4 d i) else none
  if before ≠ 0 ∨ r.visible = false then empty
  else match m.rnTake d i io.ecc with
    | .none_ => empty
    | .word o k last _ m => some (m.answer f (some o) (some (rxinfo 0 (b2n (k == 0) + 2 * b2n last + 4 * k) d i)))
    | .lost _ m => some (m.rxNone f 5 d i)

/-- R330: the neighbouring die over which a request came: that of its arrival, when the engine has held it. -/
def Main.cameFrom (m : Main) (f : Firing) (d : Nat) : List Nat := if f.via.isEmpty then m.entersFrom f.die.val d else f.via

/-- PKTBEGIN (R142). -/
def Main.rnBegin (m : Main) (f : Firing) (d i : Nat) : Option Main :=
  let r := m.rn d i
  if r.open_.isSome then some (m.parkOp f fcPktOpen (rnId d i % 65536) (rnId d i))
  else if !m.rnRoom r then none
  else
    let s := m.rnSerial d i
    let p : OpenPkt := { serial := s.1, next := 0, words := [], doomed := false, aborted := false, by_ := some f.ret,
                         via := s.2.cameFrom f d }
    some ((s.2.putRn { s.2.rn d i with open_ := some p }).answerBoth f (pktVal d i 0 s.1))

/-- R142: the handle names the open packet as it stands. -/
def OpenPkt.handles (p : OpenPkt) (h : Opnd) : Bool :=
  bitsOf h.value.toNat 41 16 == p.serial && bitsOf h.value.toNat 25 16 == p.next % 65536

/-- PKT_STALE (R142). -/
def Main.pktStale (m : Main) (f : Firing) (d i : Nat) : Main := m.parkOp f fcPktStale (rnId d i % 65536) (rnId d i)

/-- R361: a PKTWORD that parked with PKT_STALE, replayed on its packet once that is aborted or doomed, with the packet still open: it is
accepted, and its handle is the packet's next one (log 204). -/
def OpenPkt.takesBack (p : OpenPkt) (f : Firing) : Bool :=
  (p.doomed || p.aborted) && bitsOf f.left.value.toNat 41 16 == p.serial && f.replay.any (fun r => r.code == fcPktStale)

/-- R330: a PKTWORD of the open packet reaches the engine of its runnel. -/
def Main.rnArrives (m : Main) (f : Firing) (d i : Nat) : Main :=
  let r := m.rn d i
  match r.open_ with
  | none => m
  | some p =>
    let new := (m.cameFrom f d).filter (fun x => !p.via.contains x)
    if f.op ≠ some .pktword ∨ p.handles f.left = false ∨ new = [] then m
    else m.storeRn { r with open_ := some { p with via := p.via ++ new } }

/-- PKTWORD (R142, R144). -/
def Main.rnWord (m : Main) (f : Firing) (d i : Nat) (io : RnIo) : Option Main :=
  let r := m.rn d i
  match r.open_ with
  | none => some (m.pktStale f d i)
  | some p =>
    if !p.handles f.left && !p.takesBack f then some (m.pktStale f d i)
    else
      let go := fun (m : Main) (p : OpenPkt) =>
        (m.putRn { m.rn d i with open_ := some { p with next := p.next + 1 } }).answerBoth f (pktVal d i (p.next + 1) p.serial)
      if p.doomed || p.aborted then some (go m p)
      else if m.rnCap d i < p.words.length + 1 ∨ 65535 < p.words.length + 1 then
        some (go (m.rnAbort d i fcPktOversize) { p with words := [], aborted := true })
      else if io.ecc = .uncorrectable then some (go (m.rnAbort d i fcPktEcc) { p with words := [], aborted := true })
      else if !p.words.isEmpty && !m.rnRoom r then none
      else some (go m { p with words := p.words ++ [f.right] })

/-- PKTCOMMIT (R143, R144). -/
def Main.rnCommitOp (m : Main) (f : Firing) (d i : Nat) (io : RnIo) : Main :=
  let r := m.rn d i
  match r.open_ with
  | none => m.pktStale f d i
  | some p =>
    if !p.handles f.left then m.pktStale f d i
    else if p.aborted then (m.putRn { r with open_ := none }).rstatLost f 3 d i
    else if p.doomed then (m.putRn { r with open_ := none }).rstatLost f 2 d i
    else if io.ecc = .uncorrectable ∧ p.words = [] then
      let m := m.rnAbort d i fcPktEcc
      (m.putRn { m.rn d i with open_ := none }).rstatLost f 3 d i
    else
      let words := if p.words = [] then [emptyPkt] else p.words
      match m.rnCommit d i p.serial words none with
      | (true, m) => m.answerBoth f (rstat 0 p.words.length d i)
      | (false, m) => m.rstatLost f 3 d i

/-- PKTABORT (R143). -/
def Main.rnAbortOp (m : Main) (f : Firing) (d i : Nat) : Main :=
  let r := m.rn d i
  match r.open_ with
  | none => m.pktStale f d i
  | some p =>
    if !p.handles f.left then m.pktStale f d i
    else
      let m := if p.aborted then m else m.bump (F.RUNNEL_STAT_ABORTS d i)
      (m.putRn { r with open_ := none }).rstatLost f 3 d i

/-- FLUSH (R145). -/
def Main.rnFlush (m : Main) (f : Firing) (d i : Nat) : Main :=
  let r := m.rn d i
  let doom := fun (p : OpenPkt) => if p.aborted then p else { p with doomed := true, words := [] }
  let n := (r.pkts.map (fun p => p.words.length - p.got)).sum
  (m.putRn { m.rnFrees r n with pkts := [], open_ := r.open_.map doom }).answerBoth f (rstat 0 r.pkts.length d i)

/-- DROPREST (R145, R318). -/
def Main.rnDropRest (m : Main) (f : Firing) (d i : Nat) : Main :=
  let r := m.rn d i
  if m.rnPush d i then (m.putRn { r with out := r.out - 1 }).answerBoth f (rstat 0 0 d i)
  else match r.pkts with
    | p :: ps =>
      if p.got = 0 then m.answerBoth f (rstat 0 0 d i)
      else (m.putRn { m.rnFrees r (p.words.length - p.got) with pkts := ps }).answerBoth f (rstat 0 (p.words.length - p.got) d i)
    | [] => m.answerBoth f (rstat 0 0 d i)

/-- Perform a request at the engine, or none when it must be held there. -/
def Main.rnServe (m : Main) (f : Firing) (d i : Nat) (io : RnIo) : Option Main :=
  match f.op with
  | some .send => m.rnSend f d i io
  | some .recv => m.rnRecv f d i io
  | some .pktbegin => m.rnBegin f d i
  | some .pktword => m.rnWord f d i io
  | some .pktcommit => some (m.rnCommitOp f d i io)
  | some .pktabort => some (m.rnAbortOp f d i)
  | some .flush => some (m.rnFlush f d i)
  | some .droprest => some (m.rnDropRest f d i)
  | _ => some m

/-- R322: what the side of a request has seen of the other side's count. -/
def Main.rnSees (m : Main) (f : Firing) (d i : Nat) (io : RnIo) : Main :=
  match f.op with
  | some .send | some .pktbegin | some .pktword => m.rnSeeFrees d i io.lag
  | some .recv => m.rnSeeCommits d i io.lag
  | _ => m

/-- R320: hold a request in the engine. -/
def Main.rnHold (m : Main) (f : Firing) (d i : Nat) : Main :=
  let r := m.rn d i
  let m := m.storeRn { r with held := r.held ++ [{ f with via := m.cameFrom f d }] }
  m.peak (F.RUNNEL_ENG_PEAK d) (m.rnHeld d)

/-! ### The checks of an operation (R125, R126, R140, R350) -/

/-- R140: the operation is one of the producer's. -/
def Op.producer (o : Op) : Bool :=
  match o with
  | .send | .pktbegin | .pktword | .pktcommit | .pktabort => true
  | _ => false

/-- R4, R125: a request to a die that is not there parks with POWERED_OFF and is counted. -/
def Main.offDie (m : Main) (f : Firing) (d object : Nat) : Main :=
  (m.raiseSrc 6 (if m.compute f.die.val && m.dieLive f.die.val then f.die.val else 0) d d).parkOp f fcPoweredOff d object

/-- R144: a request that goes on with, or closes, the open packet of a runnel once that has been aborted. -/
def Main.rnAborted (m : Main) (f : Firing) (o : Op) (d i : Nat) : Bool :=
  (o == .pktword || o == .pktcommit || o == .pktabort) && m.reaches f.die.val d &&
  (m.rn d i).open_.any (fun p => p.aborted && (p.handles f.left || p.takesBack f))

/-- The checks in the order of R350, and then the engine; a disabled runnel still takes what comes for its aborted packet (R144). A die that does not answer shows no endpoint, so that POWERED_OFF is the condition
that holds there (log 224). -/
def Main.rnRequest (m : Main) (f : Firing) (o : Op) (d i : Nat) (io : RnIo) : Main :=
  let id := rnId d i
  if !m.serves f.die.val (.runnel d i) && !m.rnAborted f o d i then m.parkOp f fcUnitDisabled (id % 65536) id
  else
    let e := if o.producer then m.rnProd d i else m.rnCons d i
    if !m.reaches f.die.val d then m.offDie f d id
    else if e ≠ (0, f.ctx.toNat) ∨ (o = .recv ∧ m.rnPush d i = true) then m.parkOp f fcRunnelAccess (id % 65536) id
    else
      let m := (m.rnSees f d i io).rnArrives f d i
      (m.rnServe f d i io).getD (m.rnHold f d i)

/-- An operation whose right operand is the runnel ID (R125, R140). -/
def Main.rnById (m : Main) (f : Firing) (o : Op) (io : RnIo) : Main :=
  match runnelId f.right.value.toNat with
  | none => m.badOperand f 1
  | some (d, i) => m.once f fun m => m.rnRequest f o d i io

/-- An operation whose operand on a port is a PKT handle (R129, R142). -/
def Main.rnByPkt (m : Main) (f : Firing) (o : Op) (port : Nat) (io : RnIo) : Main :=
  let h := f.left.value.toNat
  if !f.left.isControl 0x10 || bitsOf h 57 7 != 0 then m.badOperand f port
  else match runnelId (bitsOf h 8 17) with
    | none => m.badOperand f port
    | some (d, i) => m.once f fun m => m.rnRequest f o d i io

/-! ### The commands -/

/-- SEND (R141). -/
def execSend (f : Firing) (io : RnIo) (s : State) : Host.Outcome State Fault Refusal :=
  s.onMain fun m => m.fireReq f .send fun m => m.rnById f .send io

/-- RECV (R141). -/
def execRecv (f : Firing) (io : RnIo) (s : State) : Host.Outcome State Fault Refusal :=
  s.onMain fun m => m.fireReq f .recv fun m => m.rnById f .recv io

/-- PKTBEGIN (R142). -/
def execPktbegin (f : Firing) (io : RnIo) (s : State) : Host.Outcome State Fault Refusal :=
  s.onMain fun m => m.fireReq f .pktbegin fun m => m.rnById f .pktbegin io

/-- PKTWORD (R142). -/
def execPktword (f : Firing) (io : RnIo) (s : State) : Host.Outcome State Fault Refusal :=
  s.onMain fun m => m.fireReq f .pktword fun m => m.rnByPkt f .pktword 0 io

/-- PKTCOMMIT (R143). -/
def execPktcommit (f : Firing) (io : RnIo) (s : State) : Host.Outcome State Fault Refusal :=
  s.onMain fun m => m.fireReq f .pktcommit fun m => m.rnByPkt f .pktcommit 2 io

/-- PKTABORT (R143). -/
def execPktabort (f : Firing) (s : State) : Host.Outcome State Fault Refusal :=
  s.onMain fun m => m.fireReq f .pktabort fun m => m.rnByPkt f .pktabort 2 { ecc := .ok, lag := 0 }

/-- FLUSH (R145). -/
def execFlush (f : Firing) (s : State) : Host.Outcome State Fault Refusal :=
  s.onMain fun m => m.fireReq f .flush fun m => m.rnById f .flush { ecc := .ok, lag := 0 }

/-- DROPREST (R145). -/
def execDroprest (f : Firing) (s : State) : Host.Outcome State Fault Refusal :=
  s.onMain fun m => m.fireReq f .droprest fun m => m.rnById f .droprest { ecc := .ok, lag := 0 }

/-- HELD_RUNNEL_REQUEST (R141, R142): a held request is served again; held RECVs only in the order in which they arrived. -/
def Main.heldRunnel (m : Main) (f : Firing) (io : RnIo) : Main :=
  match m.runnels.find? (fun r => r.held.contains f) with
  | none => m
  | some r =>
    let m := m.rnSees f r.die r.idx io
    let r := m.rn r.die r.idx
    let firstRecv := r.held.find? (fun h => h.op == some .recv)
    if f.op = some .recv ∧ firstRecv ≠ some f then m
    else
      let others := r.held.erase f
      let alone := if f.op = some .recv then others.filter (fun h => h.op != some .recv) else others
      match (m.storeRn { r with held := alone }).rnServe f r.die r.idx io with
      | none => m
      | some m' =>
        let r' := m'.rn r.die r.idx
        (m'.storeRn { r' with held := others }).observe f.ctx

/-- HELD_RUNNEL_REQUEST. -/
def execHeldRunnelRequest (f : Firing) (io : RnIo) (s : State) : Host.Outcome State Fault Refusal :=
  s.onMain fun m => m.heldRunnel f io

/-! ### Push delivery -/

/-- R317: the token of word k of a packet. A token for a paired block enters at the field die router (R53). -/
def Main.pushToken (m : Main) (d i : Nat) (c k serial : Nat) (o : Opnd) : Token :=
  let ia := (m.get (F.RUNNEL_PUSH_IA d i) + k) % 2 ^ 20
  let paired := plPaired (m.place 0 c (ia / 4096))
  { value := o.value, ia := BitVec.ofNat 20 ia, port := BitVec.ofNat 2 (m.get (F.RUNNEL_PUSH_PORT d i)), typ := o.typ, wsel := 0,
    ctx := BitVec.ofNat 8 c, frame := BitVec.ofNat 24 (m.get (F.RUNNEL_PUSH_FHI d i) * 4096 + serial % 4096), stamp := 0,
    prio := BitVec.ofNat 4 (m.eff c), side := false, odie := if paired then 0 else fin8 d, otuft := 0, pass := false,
    replay := none }

/-- R318: push may start the next packet. -/
def Main.pushCredit (m : Main) (r : Runnel) : Bool :=
  let cred := Nat.min 4096 (m.get (F.RUNNEL_PUSH_CRED r.die r.idx))
  cred == 0 || decide (r.out < cred)

/-- PUSH_DELIVERY (R317, R318, R72): the next visible word of a push runnel is delivered, or dropped beyond SPAN. -/
def Main.pushDelivery (m : Main) (d i : Nat) (io : RnIo) : Main :=
  let m := m.rnSeeCommits d i io.lag
  let c := (m.rnCons d i).2
  let r := m.rn d i
  match r.pkts with
  | [] => m
  | p :: _ =>
    if !m.live (.runnel d i) || !m.rnPush d i || (m.rnCons d i).1 == 1 || m.dead c || m.throttled c ||
        (p.got == 0 && !m.pushCredit r) then m
    else
      match m.rnTake d i io.ecc with
      | .none_ => m
      | .lost _ m => m
      | .word o k _ serial m =>
        let m := if k = 0 ∧ m.get (F.RUNNEL_PUSH_CRED d i) ≠ 0 then m.storeRn { m.rn d i with out := r.out + 1 } else m
        if m.get (F.RUNNEL_PUSH_SPAN d i) < k then m.bump (F.RUNNEL_STAT_PUSHTRUNC d i)
        else m.send (m.pushToken d i c k serial o)

/-- PUSH_DELIVERY at a runnel. -/
def execPushDelivery (die : Fin 8) (idx : Fin 16384) (io : RnIo) (s : State) : Host.Outcome State Fault Refusal :=
  s.onMain fun m => m.pushDelivery die.val idx.val io

end Sys2Proof.Machine
end

