-- ==== Sys2Proof/Machine/Flume.lean ====
section
/-! DEFINITION. Park handles (R157, R353) and flumes (R154, R155, R279 to R287). -/

namespace Sys2Proof.Machine

/-! ### Handles -/

/-- The park handle in an operand (R125). -/
def Opnd.handle (o : Opnd) : BitVec 32 := BitVec.ofNat 32 (bitsOf o.value.toNat 16 32)

/-- R157, R353: the slot that a handle names for a presenting context: its own, or any when context 0 presents it. -/
def Main.slotOf (m : Main) (ctx : Nat) (h : BitVec 32) : Option ParkSlot :=
  let c := bitsOf h.toNat 15 8
  if ctx ≠ 0 ∧ ctx ≠ c then none
  else m.req.park.slots.find? (fun p => p.ctx.toNat == c && mkHandle p.gen c p.idx == h)

/-- A slot is freed: its KIND in memory reads FREE again (R352; log 56). -/
def Main.unpark (m : Main) (p : ParkSlot) : Main :=
  let c := p.ctx.toNat
  let pa := m.parkPa c p.idx
  let m := { m with req := { m.req with park := { m.req.park with slots := m.req.park.slots.erase p } } }
  let r := m.storeWords (ctxId c 0) pa [m.peek pa 8 / 16 * 16]
  if r.1 then r.2 else r.2.breakCtx c causeParkLost 0

/-- A resolving operation whose handle is not valid (R157). -/
def Main.badHandle (m : Main) (f : Firing) (h : BitVec 32) : Main := m.both f (rpstat 1 h)

/-! ### The flume's state -/

/-- R154: a flume ID: index and die position, or none. -/
def flumeId (x : Nat) : Option (Nat × Nat) :=
  let idx := bitsOf x 0 5
  let die := bitsOf x 5 3
  if x < 256 ∧ die ≤ 5 ∧ (die ≠ 0 ∨ idx < 16) then some (die, idx) else none

/-- The flume ID of a flume. -/
def flId (d i : Nat) : Nat := i + 32 * d

/-- The state of a flume that runs or is parked. -/
def Main.flume (m : Main) (d i : Nat) : Option FlumeSt := m.flumes.find? (fun x => x.die == d && x.idx == i)

/-- Store the state of a flume. -/
def Main.putFlume (m : Main) (x : FlumeSt) : Main :=
  { m with flumes := m.flumes.filter (fun y => !(y.die == x.die && y.idx == x.idx)) ++ [x] }

/-- A flume becomes IDLE. -/
def Main.flIdle (m : Main) (d i : Nat) : Main :=
  Main.set (Main.set { m.unhold (.element d i) with flumes := m.flumes.filter (fun y => !(y.die == d && y.idx == i)) } (F.FLUME_STAT_STATE d i) 0)
    (F.FLUME_STAT_CODE d i) 0

/-- R154, R579: where FLUMEDONE is created: on the field die for a field-die flume. That of a paired block's flume goes to the copy that issued it
(R127; log 57). -/
def flRet (x : FlumeSt) : Ret := if x.die = 0 then { x.ret with die := 0, tuft := 0 } else x.ret

/-- R284: FLUMEDONE with the bytes transferred and the lost words, and the flume is idle. -/
def Main.flDone (m : Main) (x : FlumeSt) : Main :=
  let o := opnd tyFlume (m.get (F.FLUME_PROG_BYTES x.die x.idx) + m.get (F.FLUME_PROG_LOST x.die x.idx) * 2 ^ 40)
  (m.sendRet (flRet x) (some o) (some o)).flIdle x.die x.idx

/-- R285: the flume parks with one fault token. The slot's OBJECT and, but for a translation or protection fault, the detail
hold the flume ID (R348). -/
def Main.flPark (m : Main) (x : FlumeSt) (code detail : Nat) : Main :=
  let det := if code = fcTranslation ∨ code = fcProtection then detail else flId x.die x.idx
  let r := m.park { ctx := x.ret.ctx.toNat, code := code, detail := det, object := flId x.die x.idx, frame := x.ret.frame,
                    side := x.ret.side, ia := x.ret.ia, die := fin8 x.die, tuft := 0, prio := x.prio } (.flume (fin8 x.die) x.idx) false
  if r.1 = 0 then r.2.flIdle x.die x.idx
  else (((r.2.unhold (.element x.die x.idx)).putFlume { x with handle := r.1 }).set (F.FLUME_STAT_STATE x.die x.idx) 2).set (F.FLUME_STAT_CODE x.die x.idx) code

/-! ### Addresses and accesses of a flume -/

/-- What an access of a flume meets. -/
inductive FlOut (α : Type)
  | ok (a : α) (m : Main)
  | wait (pa : Nat)
  | fault (code detail : Nat) (m : Main)

/-- The identity of a flume's accesses (R279). -/
def FlumeSt.id (x : FlumeSt) : AccId :=
  { ctx := x.ret.ctx.toNat, die := x.die, flume := some (64 * x.die + x.idx), external := false, debug := false }

/-- R274: the permissions of a physical address that a flume reads or writes; dest is 16 for the destination. -/
def flProt (c pa : Nat) (r w write : Bool) (dest : Nat) : Nat :=
  let p := b2n (!write && !r) + 2 * b2n (write && !w) + 4 * b2n (isRegs pa) + 8 * b2n (reservedFsram pa && c != 255)
  if p = 0 then 0 else p + dest

/-- The TLB entry for a flume's virtual address (R271, R276): from the flume TLB of its die, or by a walk. -/
def Main.flXlate (m : Main) (x : FlumeSt) (va dest : Nat) : FlOut TlbEntry :=
  let xl : Xlate := { owner := .flumes (fin8 x.die), ctx := x.ret.ctx, part := x.part }
  if !m.xlateOn x.ret.ctx.toNat then .fault fcTranslation (1 + dest) m
  else match m.tlbFind xl va with
    | some e => .ok e m
    | none =>
      match (m.bump (F.FLUME_TLB_MISSES x.die)).walk xl va with
      | .ok e m => .ok e (m.tlbInsert e)
      | .wait a => .wait a
      | .fault level reason m =>
        .fault fcTranslation (level + 4 * reason + dest) (if reason = 2 then m.bump (F.FLUME_TLB_WALKERR x.die) else m)

/-- The physical address of a flume's access (R256, R266, R271, R274, R279). -/
def Main.flAddr (m : Main) (x : FlumeSt) (a : Nat) (phys write : Bool) (dest : Nat) : FlOut Nat :=
  let c := x.ret.ctx.toNat
  if phys then
    let p := flProt c (a % 2 ^ 40) true true write dest
    if p ≠ 0 then .fault fcProtection p m else .ok (a % 2 ^ 40) m
  else match m.flXlate x (a % 2 ^ 48) dest with
    | .wait a => .wait a
    | .fault c d m => .fault c d m
    | .ok e m =>
      let pa := e.paOf (a % 2 ^ 48)
      let p := flProt c pa e.r e.w write dest
      if p ≠ 0 then .fault fcProtection p m else .ok pa m

/-- The parts of n bytes from a that lie in one 64-bit word each, as (address, bytes). -/
def pieces : Nat → Nat → Nat → List (Nat × Nat)
  | 0, _, _ => []
  | fuel + 1, a, n =>
    if n = 0 then []
    else
      let k := Nat.min n (8 - a % 8)
      (a, k) :: pieces fuel (a + k) (n - k)

/-- The physical addresses of the parts of an element. -/
def Main.flAddrs (m : Main) (x : FlumeSt) (phys write : Bool) (dest : Nat) : List (Nat × Nat) → FlOut (List (Nat × Nat))
  | [] => .ok [] m
  | p :: t =>
    match m.flAddr x p.1 phys write dest with
    | .wait a => .wait a
    | .fault c d m => .fault c d m
    | .ok pa m =>
      match m.flAddrs x phys write dest t with
      | .ok l m => .ok ((pa, p.2) :: l) m
      | .wait a => .wait a
      | .fault c d m => .fault c d m

/-- R133: an access through the rotate alias whose bytes do not lie within one bank. -/
def rotateSplit (l : List (Nat × Nat)) : Bool :=
  match l with
  | [] => false
  | p :: t => aliasOf p.1 == 3 && t.any (fun q => q.1 / 0x100000 != p.1 / 0x100000)

/-- Read the parts of an element, in little-endian order. -/
def Main.flRead (m : Main) (x : FlumeSt) : List (Nat × Nat) → FlOut Nat
  | [] => .ok 0 m
  | p :: t =>
    match m.loadPhys x.id p.1 p.2 with
    | (.wait, _) => .wait p.1
    | (.fail c d, m) => .fault c d m
    | (.ok v, m) =>
      match m.flRead x t with
      | .ok u m => .ok (v + u * 256 ^ p.2) m
      | .wait a => .wait a
      | .fault c d m => .fault c d m

/-- R285: what the write of an element would meet first, before any part is written. -/
def Main.flProbe (m : Main) (x : FlumeSt) (v : Nat) : List (Nat × Nat) → FlOut Unit
  | [] => .ok () m
  | p :: t =>
    match m.storePhys x.id p.1 v p.2 with
    | (.wait, _) => .wait p.1
    | (.fail c d, m') => .fault c d m'
    | (.ok _, _) => m.flProbe x v t

/-- A word that a flume's write can lose to port A (R263, R135). -/
def losable (pa : Nat) : Bool :=
  match regionOf pa with
  | .scratch _ _ _ a => a == 0 || a == 3
  | .fsram _ a => a == 0 || a == 3
  | _ => false

/-- R263: count a lost write at its bank. -/
def Main.wlost (m : Main) (pa : Nat) : Main :=
  match regionOf pa with
  | .scratch d b _ _ => m.bump (F.BANK_STAT_WLOST d b)
  | _ => m

/-- Write the parts of an element; bit k of lost tells that word k of the block is lost to port A (R263, R285). -/
def Main.flWrite (m : Main) (x : FlumeSt) (lost : BitVec 8) : Nat → List (Nat × Nat) → Main
  | _, [] => m
  | v, p :: t =>
    let m := if lost.getLsbD (p.1 / 8 % 8) && losable p.1 then (m.wlost p.1).bump (F.FLUME_PROG_LOST x.die x.idx)
             else (m.storePhys x.id p.1 v p.2).2
    m.flWrite x lost (v / 256 ^ p.2) t

/-! ### Elements -/

/-- The address of the start of a row. -/
def rowAddr (base row : Nat) (stride : Int) (phys : Bool) : Nat :=
  uns (if phys then 40 else 48) ((base : Int) + row * stride)

/-- R282: the number of bytes of the ascending element at an offset of a row that starts at da. -/
def elemLen (da off len : Nat) : Nat := Nat.min (64 - (da + off) % 64) (len - off)

/-- R282: the offset of the last element of a row. -/
def lastStart (da len : Nat) : Nat :=
  let e := (da + len - 1) % 64 + 1
  len - Nat.min e len

/-- R282: whether byte address a lies in a source row. -/
def FlumeDesc.inSource (d : FlumeDesc) (a : Nat) : Bool :=
  let delta : Int := (a : Int) - d.src
  let rows := Nat.max 1 d.rows
  if d.sstride = 0 then decide (0 ≤ delta ∧ delta < d.len)
  else if 0 < d.sstride then
    let r := Nat.min (delta / d.sstride).toNat (rows - 1)
    decide (0 ≤ delta ∧ delta - r * d.sstride < d.len)
  else
    let s := -d.sstride
    let r := ((-delta + s - 1) / s).toNat
    decide (r < rows ∧ delta + r * s < d.len)

/-- R282: the cases of overlap in which the destination receives the original source bytes. -/
def FlumeDesc.keeps (d : FlumeDesc) : Bool := (decide (d.dst ≤ d.src) && !d.descend) || (decide (d.src ≤ d.dst) && d.descend)

/-- R282: the overlap whose bytes are unspecified: source and destination in one address space, neither of the two named cases. -/
def FlumeDesc.unsafeOverlap (d : FlumeDesc) : Bool :=
  !d.fill && d.sphys == d.dphys && !d.keeps

/-- The bytes of an element with unspecified overlap: each byte whose address lies in the source is a free value (R282). -/
def Main.freeOverlap (m : Main) (d : FlumeDesc) (a : Nat) : Nat → Nat → Nat × Main
  | 0, _ => (0, m)
  | n + 1, v =>
    let r := if d.inSource a then m.takeFree else (v % 256, m)
    let t := r.2.freeOverlap d (a + 1) n (v / 256)
    (r.1 % 256 + 256 * t.1, t.2)

/-- R283: byte k of the pattern from address a on. -/
def fillValue (pattern a : Nat) : Nat → Nat
  | 0 => 0
  | n + 1 => bitsOf pattern (8 * (a % 8)) 8 + 256 * fillValue pattern (a + 1) n

/-- The bytes of a piece of an element, as plain physical addresses. -/
def pieceBytes (p : Nat × Nat) : List Nat := (List.range p.2).map (fun i => plainPa p.1 + i)

/-- R282: a source byte as the descriptor gives it to the destination: one that an earlier element has overwritten is the original one, where the
rule says so, and otherwise a free value. -/
def Main.srcByte (m : Main) (x : FlumeSt) (d : FlumeDesc) (a now_ : Nat) : Nat × Main :=
  match x.saved.find? (fun s => s.1 == a) with
  | none => (now_, m)
  | some s => if d.sphys == d.dphys && d.keeps then (s.2, m) else m.takeFree

/-- The source bytes of an element, read as v, with those that earlier elements have overwritten (R282). -/
def Main.srcBytes (m : Main) (x : FlumeSt) (d : FlumeDesc) : List Nat → Nat → Nat × Main
  | [], _ => (0, m)
  | a :: as, v =>
    let r := m.srcByte x d a (v % 256)
    let t := r.2.srcBytes x d as (v / 256)
    (r.1 % 256 + 256 * t.1, t.2)

/-- R282: the bytes that an element overwrites, kept for later elements of the descriptor that read them: those of the source, or any where source
and destination are in different address spaces. ps are its pieces from destination address a on. -/
def Main.flSave (m : Main) (x : FlumeSt) (d : FlumeDesc) (a : Nat) (ps : List (Nat × Nat)) : FlumeSt :=
  let bytes := ((ps.map pieceBytes).flatten).zip (List.range 64)
  let kept := bytes.filter (fun b => (d.sphys != d.dphys || d.inSource (a + b.2)) && x.saved.all (fun s => s.1 != b.1))
  if d.fill then x else { x with saved := x.saved ++ kept.map (fun b => (b.1, m.peek b.1 1)) }

/-- R262: the waits of an element's read for port A: at the block of its first part, and at the other block that it lies in, if any. -/
def Main.flWaits (m : Main) (ps : List (Nat × Nat)) (waits : Bool × Bool) : Main :=
  match ps with
  | [] => m
  | p :: t => (t.find? (fun q => q.1 / 64 != p.1 / 64)).elim (m.portWait p.1 waits.1) (fun q => (m.portWait p.1 waits.1).portWait q.1 waits.2)

/-- The value of an element: the pattern, or what the source holds (R282, R283). -/
def Main.elemValue (m : Main) (x : FlumeSt) (d : FlumeDesc) (row off da n : Nat) (waits : Bool × Bool) : FlOut Nat :=
  if d.fill then .ok (fillValue d.src (da + off) n) m
  else
    let sa := rowAddr d.src row d.sstride d.sphys + off
    match m.flAddrs x d.sphys false 0 (pieces 9 sa n) with
    | .wait a => .wait a
    | .fault c e m => .fault c e m
    | .ok ps m =>
      if rotateSplit ps then .fault fcMisaligned 0 m
      else match ps.find? (fun p => m.heldAhead p.1 (.element x.die x.idx)) with
      | some p => .wait p.1
      | none => match m.flRead x ps with
        | .ok v m =>
          let m := m.flWaits ps waits
          let b := m.srcBytes x d (ps.map pieceBytes).flatten v
          if d.unsafeOverlap then
            let r := b.2.freeOverlap d (da + off) n b.1
            .ok r.1 r.2
          else .ok b.1 b.2
        | o => o

/-- R280: whether rows are processed in rising row number: with DESCEND only where that is the descending address order. -/
def FlumeDesc.rowsRise (d : FlumeDesc) : Bool := !d.descend || decide (d.dstride < 0)

/-- R282, R284: the position after an element, and what follows the last one. -/
def Main.flAdvance (m : Main) (x : FlumeSt) (d : FlumeDesc) (row off n : Nat) : Main :=
  let rows := Nat.max 1 d.rows
  let at_ := fun (m : Main) (r o : Nat) => (m.set (F.FLUME_POS_ROW x.die x.idx) r).set (F.FLUME_POS_OFFSET x.die x.idx) o
  let start := fun (r : Nat) => lastStart (rowAddr d.dst r d.dstride d.dphys) d.len
  let finished := fun (m : Main) =>
    let m := at_ m 0 0
    if d.chain then
      ((m.set (F.FLUME_CUR_ADDR x.die x.idx) d.next).set (F.FLUME_CUR_PHYS x.die x.idx) (b2n d.nphys)).putFlume
        { x with desc := none }
    else m.flDone x
  if d.descend then
    (if off ≠ 0 then at_ m row (off - Nat.min off 64)
     else if d.rowsRise then (if row + 1 < rows then at_ m (row + 1) (start (row + 1)) else finished m)
     else if row = 0 then finished m else at_ m (row - 1) (start (row - 1)))
  else if off + n < d.len then at_ m row (off + n)
  else if row + 1 < rows then at_ m (row + 1) 0
  else finished m

/-- What the element at a flume's position comes to: its value and the parts that it writes, or what stops it (R285). -/
def Main.flTry (m : Main) (x : FlumeSt) (e : FlumeDesc) (waits : Bool × Bool) : FlOut (Nat × List (Nat × Nat)) :=
  let row := m.get (F.FLUME_POS_ROW x.die x.idx)
  let off := m.get (F.FLUME_POS_OFFSET x.die x.idx)
  let da := rowAddr e.dst row e.dstride e.dphys
  let n := elemLen da off e.len
  match m.elemValue x e row off da n waits with
  | .wait a => .wait a
  | .fault c det m => .fault c det m
  | .ok v m => match m.flAddrs x e.dphys true 16 (pieces 9 (da + off) n) with
    | .wait a => .wait a
    | .fault c det m => .fault c det m
    | .ok ps m => match ps.find? (fun p => m.heldAhead p.1 (.element x.die x.idx)) with
      | some p => .wait p.1
      | none => match m.flProbe x v ps with
        | .wait a => .wait a
        | .fault c det m => .fault c det m
        | .ok _ _ => .ok (v, ps) m

/-- A flume whose element its engine could do now (R242): it runs, and nothing makes it wait. -/
def Main.flReady (m : Main) (x : FlumeSt) : Bool :=
  match x.desc with
  | none => false
  | some e => x.handle == 0 && m.live (.flume x.die x.idx) && match m.flTry x e (false, false) with
    | .wait _ => false
    | _ => true

/-- R242: the flume engine of the die serves another flume first, of a context of higher EFF. -/
def Main.flBehind (m : Main) (x : FlumeSt) : Bool :=
  m.flumes.any (fun y => y.die == x.die && decide (m.eff x.ret.ctx.toNat < m.eff y.ret.ctx.toNat) && m.flReady y)

/-- FLUME_ELEMENT (R242, R262, R282 to R285, R366, R524, R538): one element is read and written whole, or the flume parks at it. -/
def Main.flElement (m : Main) (d i : Nat) (io : ElemIo) : Main :=
  match m.flume d i with
  | none => m
  | some x =>
    match x.desc with
    | none => m
    | some e =>
      if x.handle ≠ 0 ∨ m.mode = 11 ∨ m.asleep = true then m
      else if !m.live (.flume d i) then m.flPark x fcUnitDisabled 0
      else if m.flBehind x then m
      else match m.flTry x e io.waits.1 with
        | .wait a => m.waitAt a (.element d i)
        | .fault c det m => m.flPark x c det
        | .ok (v, ps) m' =>
          let row := m.get (F.FLUME_POS_ROW d i)
          let off := m.get (F.FLUME_POS_OFFSET d i)
          let da := rowAddr e.dst row e.dstride e.dphys
          let n := elemLen da off e.len
          let y := m'.flSave x e (da + off) ps
          let k := ((ps.take 1).foldl (fun m p => m.portWait p.1 io.waits.2) (m'.unhold (.element d i))).putFlume y
          ((k.flWrite y io.lost v ps).bumpBy (F.FLUME_PROG_BYTES d i) n).flAdvance y e row off n

/-- FLUME_ELEMENT. -/
def execFlumeElement (die : Fin 8) (idx : Fin 32) (io : ElemIo) (s : State) : Host.Outcome State Fault Refusal :=
  s.onMain fun m => m.flElement die.val idx.val io

/-! ### Descriptors -/

/-- R280: a descriptor from its eight words. -/
def FlumeDesc.ofWords (w : Nat → Nat) : FlumeDesc :=
  { src := w 0, dst := w 1, len := bitsOf (w 2) 0 40, rows := bitsOf (w 2) 40 24, sstride := sgn 32 (w 3),
    dstride := sgn 32 (bitsOf (w 3) 32 32), chain := bitsOf (w 4) 0 1 == 1, sphys := bitsOf (w 4) 1 1 == 1,
    dphys := bitsOf (w 4) 2 1 == 1, fill := bitsOf (w 4) 3 1 == 1, descend := bitsOf (w 4) 4 1 == 1,
    nphys := bitsOf (w 4) 5 1 == 1, next := w 5 }

/-- R281: the checks of a descriptor. -/
def descValid (c : Nat) (w : Nat → Nat) : Bool :=
  let d := FlumeDesc.ofWords w
  let phys := d.sphys || d.dphys || d.nphys
  bitsOf (w 4) 6 58 == 0 && w 6 == 0 && w 7 == 0 && (!phys || c == 0 || c == 255) &&
  !(d.sphys && !d.fill && decide (2 ^ 40 ≤ d.src)) && !(d.dphys && decide (2 ^ 40 ≤ d.dst)) &&
  !(d.nphys && decide (2 ^ 40 ≤ d.next)) && !(d.chain && d.next % 64 != 0)

/-- A descriptor comes into force; one of length 0 ends the chain (R284). -/
def Main.flBegin (m : Main) (x : FlumeSt) (d : FlumeDesc) : Main :=
  let row := if d.rowsRise then 0 else Nat.max 1 d.rows - 1
  let off := if d.descend then lastStart (rowAddr d.dst row d.dstride d.dphys) d.len else 0
  if d.len = 0 then m.flDone x
  else ((m.set (F.FLUME_POS_ROW x.die x.idx) row).set (F.FLUME_POS_OFFSET x.die x.idx) off).putFlume { x with desc := some d, saved := [] }

/-- The words of 64 bytes. -/
def wordAt (v k : Nat) : Nat := bitsOf v (64 * k) 64

/-- FLUME_DESCRIPTOR_READ (R281, R284): the next descriptor of a chain is read and checked. -/
def Main.flDescRead (m : Main) (d i : Nat) : Main :=
  match m.flume d i with
  | none => m
  | some x =>
    if x.desc.isSome ∨ x.handle ≠ 0 ∨ m.mode = 11 ∨ m.asleep = true then m
    else if !m.live (.flume d i) then m.flPark x fcUnitDisabled 0
    else
      match m.flAddr x (m.get (F.FLUME_CUR_ADDR d i)) (m.flag (F.FLUME_CUR_PHYS d i)) false 0 with
      | .wait a => m.waitAt a (.element d i)
      | .fault c det m => m.flPark x c det
      | .ok pa m1 =>
        if m1.heldAhead pa (.element d i) then m.waitAt pa (.element d i)
        else match (m1.freeWait d true pa).loadPhys x.id pa 64 with
        | (.wait, _) => m.waitAt pa (.element d i)
        | (.fail c det, m) => m.flPark x c det
        | (.ok v, m) =>
          let m := m.unhold (.element d i)
          if descValid x.ret.ctx.toNat (wordAt v) then m.flBegin x (FlumeDesc.ofWords (wordAt v)) else m.flPark x fcFlumeDesc 0

/-- FLUME_DESCRIPTOR_READ. -/
def execFlumeDescriptorRead (die : Fin 8) (idx : Fin 32) (s : State) : Host.Outcome State Fault Refusal :=
  s.onMain fun m => m.flDescRead die.val idx.val

/-! ### FLISSUE -/

/-- The flumes of a die. -/
def flumesOf (d : Nat) : List Nat := List.range (if d = 0 then 16 else 32)

/-- R154: the flume that an FLISSUE starts: the one named, or with ANY an idle one, whose choice is free (log 58). -/
def Main.flPick (m : Main) (d i : Nat) (any : Bool) : Option Nat × Main :=
  if any then
    let idle := (flumesOf d).filter (fun n => (m.flume d n).isNone && m.live (.flume d n))
    match idle with
    | [] => (none, m)
    | _ =>
      let r := m.takeFree
      (idle[r.1 % idle.length]?, r.2)
  else if (m.flume d i).isNone then (some i, m) else (none, m)

/-- R154: a descriptor has been read and is valid: start the flume. -/
def Main.flStart (m : Main) (f : Firing) (d i va : Nat) (desc : FlumeDesc) : Main :=
  if desc.len = 0 then m.both f (opnd tyFlume 0)
  else match m.flPick d i (f.i.flags.getLsbD 0) with
    | (none, m) => m.parkOp f fcFlumeBusy (flId d i) (flId d i)
    | (some n, m) =>
      let m := ((((m.set (F.FLUME_STAT_STATE d n) 1).set (F.FLUME_STAT_CTX d n) f.ctx.toNat).set (F.FLUME_STAT_SIDE d n)
        (b2n f.side)).set (F.FLUME_STAT_CODE d n) 0)
      let m := (((m.set (F.FLUME_CUR_ADDR d n) va).set (F.FLUME_CUR_PHYS d n) 0).set (F.FLUME_PROG_BYTES d n) 0).set
        (F.FLUME_PROG_LOST d n) 0
      let x : FlumeSt := { die := d, idx := n, ret := f.ret, part := m.isPartner f, desc := none, handle := 0, prio := f.prio }
      (m.flBegin x desc).rpDone f.replay 0

/-- R154, R281: read the first descriptor and check it; the address has been translated. -/
def Main.flChecked (m : Main) (f : Firing) (d i va : Nat) (e : TlbEntry) : Main :=
  let pa := e.paOf va
  let c := f.ctx.toNat
  let p := protDetail c .load pa e.r e.w
  if p ≠ 0 then m.parkOp f fcProtection p va
  else if e.is_ then m.parkOp f fcIstructType 0 va
  else if pa % 64 ≠ 0 then m.parkOp f fcMisaligned 0 va
  else if !m.reaches f.die.val d then m.offDie f d (flId d i)
  else match (m.freeWait f.die.val false pa).loadPhys (ctxId c f.die.val) pa 64 with
    | (.wait, _) => { m.wakeFor pa with req := { m.req with walks := m.req.walks ++ [f] } }
    | (.fail code det, m) => m.parkOp f code det va
    | (.ok v, m) =>
      if descValid c (wordAt v) then m.flStart f d i va (FlumeDesc.ofWords (wordAt v))
      else m.parkOp f fcFlumeDesc (flId d i) (flId d i)

/-- FLISSUE (R154), in the order of R350. -/
def Main.flissue (m : Main) (f : Firing) : Main :=
  if !f.left.isAddress then m.badOperand f 0
  else match flumeId f.right.value.toNat with
    | none => m.badOperand f 1
    | some (d, i) =>
      if !f.i.flags.getLsbD 0 && !m.serves f.die.val (.flume d i) then m.parkOp f fcUnitDisabled (flId d i) (flId d i)
      else m.xlateFor f (f.left.value.toNat % 2 ^ 48) fun m e => m.flChecked f d i (f.left.value.toNat % 2 ^ 48) e

/-- FLISSUE: a flume is started. -/
def execFlissue (f : Firing) (s : State) : Host.Outcome State Fault Refusal :=
  s.onMain fun m => m.fireReq f .flissue fun m => m.flissue f

/-! ### RESUME, KILL, and what ends a flume -/

/-- R155, R359: a flume ends as RESUME with CANCEL ends it. -/
def Main.flCancel (m : Main) (x : FlumeSt) : Main :=
  let m := match m.req.park.slots.find? (fun p => p.work == .flume (fin8 x.die) x.idx) with
    | some p => m.unpark p
    | none => m
  m.flDone x

/-- RESUME (R155, R157, R360). -/
def Main.resume (m : Main) (f : Firing) : Main :=
  let h := f.left.handle
  match m.slotOf f.ctx.toNat h with
  | none => m.badHandle f h
  | some p =>
    match p.work with
    | .flume d i =>
      match m.flume d.val i with
      | none => m.badHandle f h
      | some x =>
        if f.i.flags.getLsbD 0 then (m.flCancel x).both f (rpstat 4 h)
        else
          let m := m.unpark p
          if !m.live (.flume d.val i) then (m.flPark x fcUnitDisabled 0).both f (rpstat 2 h)
          else
            (((m.putFlume { x with handle := 0 }).set (F.FLUME_STAT_STATE d.val i) 1).set (F.FLUME_STAT_CODE d.val i) 0).both f
              (rpstat 0 h)
    | _ => m.badHandle f h

/-- RESUME: a parked flume goes on or is cancelled. -/
def execResume (f : Firing) (s : State) : Host.Outcome State Fault Refusal :=
  s.onMain fun m => m.fireReq f .resume fun m => m.resume f

/-- FLUME_KILL (R291): a write of 1 to FLUME.CTL.KILL. -/
def Main.flKill (m : Main) (d i : Nat) : Main :=
  match m.flume d i with
  | none => m
  | some x => m.flCancel x

/-- FLUME_KILL. -/
def execFlumeKill (die : Fin 8) (idx : Fin 32) (s : State) : Host.Outcome State Fault Refusal :=
  s.onMain fun m => m.flKill die.val idx.val

/-- R286: a context reset stops the context's flumes without FLUMEDONE. -/
def Main.flContextReset (m : Main) (c : Nat) : Main :=
  (m.flumes.filter (fun x => x.ret.ctx.toNat == c)).foldl (fun m x => m.flIdle x.die x.idx) m

/-- R286, R361: the die of flumes is reset, isolated or made dormant. -/
def Main.flDieLost (m : Main) (d : Nat) : Main :=
  (m.flumes.filter (fun x => x.die == d)).foldl (fun m x =>
    let m := match m.req.park.slots.find? (fun p => p.work == .flume (fin8 x.die) x.idx) with
      | some p => m.unpark p
      | none => m
    (m.flIdle x.die x.idx).faultWork
      { ctx := x.ret.ctx.toNat, code := fcFlumeLost, detail := flId x.die x.idx, object := flId x.die x.idx,
        frame := x.ret.frame, side := x.ret.side, ia := x.ret.ia, die := 0, tuft := 0 }) m

end Sys2Proof.Machine
end

