-- ==== Sys2Proof/Machine/Priv.lean ====
section
/-! DEFINITION. The privileged operations (R161 to R163): what the tuft does. MEMORY_RESPONSE performs PLOAD and PSTORE at
their targets. -/

namespace Sys2Proof.Machine

/-- R161: the contexts that may execute privileged operations. -/
def privileged (c : BitVec 8) : Bool := c == 0 || c == 255

/-- R161: PRIV. -/
def Main.privFault (m : Main) (f : Firing) : Main := m.parkOp f fcPriv f.i.opc.toNat 0

/-- R161: the physical address operand. -/
def Opnd.isPhys (o : Opnd) : Bool := o.typ == tyInt && decide (o.value.toNat < 2 ^ 40)

/-- PLOAD and PSTORE at the tuft (R161, R256, R266, R350). -/
def Main.privMem (m : Main) (f : Firing) (o : MemOp) : Main :=
  let pa := (f.left.value.toNat + f.right.value.toNat) % 2 ^ 40
  let n := f.w / 8
  if !f.left.isPhys then m.badOperand f 0
  else if !privileged f.ctx then m.privFault f
  else if reservedFsram pa && f.ctx != 255 then m.parkOp f fcProtection 8 pa
  else if (if isRegs pa then f.w != 64 || pa % 8 != 0 else !aligned pa n (aliasOf pa)) then m.parkOp f fcMisaligned 0 pa
  else m.issue f o pa n

/-- PLOAD (R161). -/
def execPload (f : Firing) (s : State) : Host.Outcome State Fault Refusal :=
  s.onMain fun m => m.fireReq f .pload fun m => m.once f fun m => m.privMem f .pload

/-- PSTORE (R161). -/
def execPstore (f : Firing) (s : State) : Host.Outcome State Fault Refusal :=
  s.onMain fun m => m.fireReq f .pstore fun m => m.once f fun m => m.privMem f .pstore

/-- R161: a slot locator: die position, tuft, slot index; none for a BAD_OPERAND. -/
def locator (x : Nat) : Option (Nat × Nat × Nat) :=
  let d := bitsOf x 18 3
  if x < 2 ^ 21 ∧ 1 ≤ d ∧ d ≤ 5 then some (d, bitsOf x 15 3, bitsOf x 0 15) else none

/-- R4, R161: an instruction memory that cannot be reached. -/
def Main.imemOff (m : Main) (f : Firing) (d : Nat) : Main :=
  (m.raiseSrc 6 (if m.dieLive f.die.val then f.die.val else 0) d d).parkOp f fcPoweredOff d f.left.value.toNat

/-- IMWRITE (R161, R162). -/
def Main.imwrite (m : Main) (f : Firing) : Main :=
  match locator f.left.value.toNat with
  | none => m.badOperand f 0
  | some (d, t, i) =>
    if 3 < f.right.value.toNat then m.badOperand f 1
    else if !privileged f.ctx then m.privFault f
    else if !m.compute d || !m.reaches f.die.val d then m.imemOff f d
    else (m.setSlot (fin8 d) (fin8 t) i (slotKindOf f.right.value.toNat) f.third.value).answerBoth f (opBool true)

/-- IMWRITE. -/
def execImwrite (f : Firing) (s : State) : Host.Outcome State Fault Refusal :=
  s.onMain fun m => m.fireReq f .imwrite fun m => m.once f fun m => m.imwrite f

/-- IMREAD (R161). -/
def Main.imread (m : Main) (f : Firing) : Main :=
  match locator f.left.value.toNat with
  | none => m.badOperand f 0
  | some (d, t, i) =>
    if !privileged f.ctx then m.privFault f
    else if !m.compute d || !m.reaches f.die.val d then m.imemOff f d
    else
      let s := m.slot (fin8 d) (fin8 t) i
      m.answer f (some { value := s.2, typ := tyInt }) (some (opnd tyInt s.1.code))

/-- IMREAD. -/
def execImread (f : Firing) (s : State) : Host.Outcome State Fault Refusal :=
  s.onMain fun m => m.fireReq f .imread fun m => m.once f fun m => m.imread f

/-! ### TLBINV -/

/-- R163: the page of an address is the one that TLBINV names, for a context; a page that is still being walked may be of 32 MiB
(log 93). -/
def invNames (c : BitVec 8) (va : Option Nat) (ctx : BitVec 8) (a : Nat) : Bool :=
  ctx == c && match va with
  | none => true
  | some v => v / 2 ^ 25 == a / 2 ^ 25

/-- The virtual address that an operation which waits for a walk translates (R271): FLISSUE's descriptor, or that of a memory
operation. -/
def Firing.walkVa (f : Firing) : Nat :=
  match f.op with
  | some .aadd | some .aand | some .aor | some .axor | some .axchg | some .acas | some .flissue => f.left.value.toNat % 2 ^ 48
  | _ => effAddr f.left.value.toNat f.right.value.toNat

/-- The context and address of a TLBINV. -/
def Firing.invOf (f : Firing) : BitVec 8 × Option Nat :=
  (BitVec.ofNat 8 f.left.value.toNat, if f.i.flags.getLsbD 0 then none else some (f.right.value.toNat % 2 ^ 48))

/-- R163, R277: a TLBINV whose earlier walks and accesses have been performed is answered. -/
def Main.invDone (m : Main) (v : TlbInv) : Bool :=
  !m.req.walks.any (fun w => v.walks.contains w) && !m.req.reqs.any (fun r => v.reqs.contains r || v.walks.contains r.f)

/-- Answer every TLBINV that is done. What an earlier walk has brought in goes too. -/
def Main.settleInv (m : Main) : Main :=
  let done := m.req.tlbInvs.filter m.invDone
  done.foldl (fun m v =>
    let i := v.f.invOf
    (({ m with req := { m.req with tlbInvs := m.req.tlbInvs.erase v } } : Main).tlbDrop i.1 i.2).answerBoth v.f (opBool true)) m

/-- TLBINV (R163, R277). -/
def Main.tlbinv (m : Main) (f : Firing) : Main :=
  if 256 ≤ f.left.value.toNat then m.badOperand f 0
  else if !privileged f.ctx then m.privFault f
  else
    let i := f.invOf
    let m := m.tlbDrop i.1 i.2
    let v : TlbInv := {
      f := f,
      reqs := m.req.reqs.filter (fun r => !(r.op == .pload || r.op == .pstore) && invNames i.1 i.2 r.f.ctx (r.f.va r.op)),
      walks := m.req.walks.filter (fun w => invNames i.1 i.2 w.ctx w.walkVa) }
    ({ m with req := { m.req with tlbInvs := m.req.tlbInvs ++ [v] } } : Main).settleInv

/-- TLBINV. -/
def execTlbinv (f : Firing) (s : State) : Host.Outcome State Fault Refusal :=
  s.onMain fun m => m.fireReq f .tlbinv fun m => m.once f fun m => m.tlbinv f

end Sys2Proof.Machine
end

