-- ==== Sys2Proof/Machine/Flags.lean ====
section
/-! DEFINITION. Flags: the sticky word of a context (R116, R176, R190), the FP epochs of the tufts and of the epoch unit (R183 to
R186), and the rounding and subnormal controls in force (R170, R187, R189). -/

namespace Sys2Proof.Machine

/-! ### The sticky word -/

/-- The eight flags in the bit order of FPSTICKY (R190). -/
def flagNV : Nat := 1
def flagDZ : Nat := 2
def flagOF : Nat := 4
def flagUF : Nat := 8
def flagNX : Nat := 16
def flagDI : Nat := 32

/-- R190: OR a mask of the eight flags into the sticky word of a context. -/
def Main.stick (m : Main) (c mask : Nat) : Main :=
  let one := fun (m : Main) (p : Nat × Fld) => if mask / 2 ^ p.1 % 2 = 1 then m.set p.2 1 else m
  [(0, F.CTXTAB_FPSTICKY_NV c), (1, F.CTXTAB_FPSTICKY_DZ c), (2, F.CTXTAB_FPSTICKY_OF c), (3, F.CTXTAB_FPSTICKY_UF c),
   (4, F.CTXTAB_FPSTICKY_NX c), (5, F.CTXTAB_FPSTICKY_DI c), (6, F.CTXTAB_FPSTICKY_IOV c),
   (7, F.CTXTAB_FPSTICKY_IDZ c)].foldl one m

/-- R116: IOV of the sticky word. -/
def Main.stickIov (m : Main) (c : Nat) : Main := m.set (F.CTXTAB_FPSTICKY_IOV c) 1

/-- R116: IDZ of the sticky word. -/
def Main.stickIdz (m : Main) (c : Nat) : Main := m.set (F.CTXTAB_FPSTICKY_IDZ c) 1

/-! ### FPCTL in force (R170, R187, R189) -/

/-- The five control bits of a context as FPCTL holds them. -/
def Main.fpctlReg (m : Main) (c : Nat) : Nat :=
  m.get (F.CTXTAB_FPCTL_RM c) + 8 * m.get (F.CTXTAB_FPCTL_SUBN c) + 16 * m.get (F.CTXTAB_FPCTL_CT c)

/-- The control bits that the writes of a context's FPCTL which are being copied replaced, oldest first. -/
def Main.fpctlOlds (m : Main) (c : Nat) : List Nat := (m.req.fpctlCopy.filter (fun p => p.1 == c)).map (fun p => p.2)

/-- What tells a firing from every other: whose it is, where, of which instruction and frame, and when. -/
def Main.firingKey (m : Main) (f : Firing) : List Nat :=
  [f.ctx.toNat, f.die.val, f.tuft.val, f.ia.toNat, f.frame.toNat, b2n f.side, m.now, m.fresh]

/-- The five control bits that a firing uses: those with which it was dispatched, for a divide; otherwise, while writes are being copied, the
new ones or those that one of the writes replaced (R189; log 16). -/
def Main.fpctl (m : Main) (f : Firing) : Nat :=
  match f.ctl with
  | some x => x
  | none =>
    let olds := m.fpctlOlds f.ctx.toNat
    (olds[Config.fpctlPick (m.firingKey f) % (olds.length + 1)]?).getD (m.fpctlReg f.ctx.toNat)

/-- FPCTL.RM in force. -/
def Main.fpRm (m : Main) (f : Firing) : Nat := bitsOf (m.fpctl f) 0 3

/-- Constant-time mode in force (R187). -/
def Main.fpCt (m : Main) (f : Firing) : Bool := bitsOf (m.fpctl f) 4 1 == 1

/-- TRAP mode in force: SUBN is 1 and CT is 0 (R177, R178, R187). -/
def Main.fpTrapMode (m : Main) (f : Firing) : Bool := bitsOf (m.fpctl f) 3 1 == 1 && !m.fpCt f

/-- R170: the effective rounding direction: 0 RNE, 1 RTZ, 2 RDN, 3 RUP, 4 RNA. -/
def Main.fpRounding (m : Main) (f : Firing) (mode31 : Nat) : Nat := if mode31 = 0 then m.fpRm f else mode31 - 1

/-! ### Epochs -/

/-- The epoch unit's record for a side of a context (R183). -/
def Main.unitOf (m : Main) (c : BitVec 8) (side : Bool) : EpochUnit :=
  (m.req.units.find? (fun u => u.ctx == c && u.side == side)).getD
    { ctx := c, side := side, cur := 0, closing := [], waiting := [] }

/-- Store the epoch unit's record for a side of a context. -/
def Main.putUnit (m : Main) (u : EpochUnit) : Main :=
  { m with req := { m.req with units := m.req.units.filter (fun x => !(x.ctx == u.ctx && x.side == u.side)) ++ [u] } }

/-- The closing epochs of a tuft at which the change to the next epoch has not arrived, oldest first (R184). -/
def EpochUnit.lagging (u : EpochUnit) (die tuft : Fin 8) : List Nat :=
  let key := 8 * die.val + tuft.val
  (u.closing.filter (fun k => k.waitFor.contains key && !k.seen.contains key)).map (fun k => k.epoch)

/-- R183: the number that a tuft's copy of a side's epoch holds. -/
def EpochUnit.copyAt (u : EpochUnit) (die tuft : Fin 8) : Nat := (u.lagging die tuft).headD u.cur

/-- R184, step 3: the change that closed epoch e has arrived at a tuft, which counts in later epochs from now on. -/
def EpochUnit.arrive (u : EpochUnit) (die tuft : Fin 8) (e : Nat) : EpochUnit :=
  { u with closing := u.closing.map (fun k => if k.epoch = e then { k with seen := k.seen ++ [8 * die.val + tuft.val] } else k) }

/-- R183, R184: as many of the changes under way to a firing's tuft as a free value says have arrived when it fires, in their order (log 20). -/
def Main.epochArrive (m : Main) (f : Firing) : Main :=
  let u := m.unitOf f.ctx f.side
  match u.lagging f.die f.tuft with
  | [] => m
  | l => m.putUnit ((l.take (Config.epochPick (m.firingKey f) % (l.length + 1))).foldl (fun u e => u.arrive f.die f.tuft e) u)

/-- The SIDE and epoch in which a firing counts (R183): those of its first firing when it has fired before (R179), otherwise those that its tuft's
copy names. -/
def Main.epochOf (m : Main) (f : Firing) : Bool × Nat := f.epoch.getD (f.side, (m.unitOf f.ctx f.side).copyAt f.die f.tuft)

/-- Add flags, operations and traps of a tuft to an epoch (R183, R184): to the tuft's own count while it has not reported the
epoch, and to the closing epoch once it has (a trap of an epoch that still waits for its traps). An epoch that is neither
current nor closing has been discarded (R186). -/
def Main.addEpoch (m : Main) (die tuft : Fin 8) (c : BitVec 8) (side : Bool) (e flags ops traps : Nat) : Main :=
  let u := m.unitOf c side
  let key := 8 * die.val + tuft.val
  match u.closing.find? (fun k => k.epoch == e && !k.waitFor.contains key) with
  | some k =>
    let k' := { k with flags := k.flags ||| BitVec.ofNat 6 flags, ops := k.ops + ops, traps := k.traps + traps }
    m.putUnit { u with closing := u.closing.map (fun x => if x.epoch == e then k' else x) }
  | none =>
    if e ≠ u.cur ∧ u.closing.all (fun k => k.epoch != e) = true then m
    else
    let isIt := fun (t : TuftEpoch) => t.die == die && t.tuft == tuft && t.ctx == c && t.side == side && t.epoch == e
    let old := (m.tuft.epochs.find? isIt).getD
      { die := die, tuft := tuft, ctx := c, side := side, epoch := e, flags := 0, ops := 0, traps := 0 }
    let new := { old with flags := old.flags ||| BitVec.ofNat 6 flags, ops := old.ops + ops, traps := old.traps + traps }
    { m with tuft := { m.tuft with epochs := m.tuft.epochs.filter (fun t => !isIt t) ++ [new] } }

/-- R176: the flags of a completed FP operation go to the sticky word and to its epoch, with the result (log 229). -/
def Main.fpFlags (m : Main) (f : Firing) (flags : Nat) : Main :=
  (m.stick f.ctx.toNat flags).addEpoch f.die f.tuft f.ctx (m.epochOf f).1 (m.epochOf f).2 flags 0 0

/-- R183: an FP firing is counted in its epoch; one that is executed again was counted when it first fired (log 17). -/
def Main.countFp (m : Main) (f : Firing) : Main :=
  if f.epoch.isSome then m
  else
    let m := m.epochArrive f
    m.addEpoch f.die f.tuft f.ctx (m.epochOf f).1 (m.epochOf f).2 0 1 0

end Sys2Proof.Machine
end

