-- ==== Sys2Proof/Machine/OutSched.lean ====
section
/-! DEFINITION. The weir and output operations of a graph (R147 to R150) and the output scheduler (R215 to R220). -/

namespace Sys2Proof.Machine

/-! ### What a tuft holds of the reference bus (R27) -/

/-- The reference-bus state of a tuft. -/
def Main.bus (m : Main) (die tuft : Fin 8) : TuftBus :=
  (m.tuft.bus.find? (fun b => b.die == die && b.tuft == tuft)).getD
    { die := die, tuft := tuft, bad := 0, hold := false, seq := none, pos := [], dirn := [], counts := [0, 0, 0, 0] }

/-- Store the reference-bus state of a tuft. -/
def Main.putBus (m : Main) (b : TuftBus) : Main :=
  { m with tuft := { m.tuft with bus := m.tuft.bus.filter (fun x => !(x.die == b.die && x.tuft == b.tuft)) ++ [b] } }

/-- The position of reference r that a tuft holds. -/
def TuftBus.at_ (b : TuftBus) (r : Nat) : Int := b.pos.getD (r - 1) 0

/-- The direction of reference r that a tuft holds, true for increasing position. -/
def TuftBus.up (b : TuftBus) (r : Nat) : Bool := b.dirn.getD (r - 1) true

/-! ### WSTAMP, WINFO, REFGET -/

/-- R148: the stamp that a third operand gives for reference r. -/
def Main.stampOf (m : Main) (f : Firing) (r : Nat) : Nat :=
  if f.i.flags.getLsbD 0 then windowOf (sgn 64 f.third.value.toNat) (m.refShift r) else f.third.value.toNat % 2 ^ 32

/-- WSTAMP (R148): the left operand, gated on a reference. -/
def execWstamp (f : Firing) (s : State) : Host.Outcome State Fault Refusal :=
  s.onMain fun m => m.fire f .wstamp fun m =>
    match refOperand f.right.value.toNat with
    | none => m.badOperand f 1
    | some r =>
      let stamp := BitVec.ofNat 32 (m.stampOf f r)
      let tok := fun (first : Bool) (dest : BitVec 22) =>
        { m.mkToken f.die f.tuft f.ctx f.ia f.side (tagFrame f.i.tagop first f.frame) dest f.left with
          wsel := BitVec.ofNat 6 r, stamp := stamp }
      let m1 := if f.i.dest0 = noDest then m else m.send (tok true f.i.dest0)
      let m2 := if f.i.dest1 = noDest then m1 else m1.send (tok false f.i.dest1)
      m2.rpDone f.replay 0

/-- WINFO (R149): the operand, and the WSEL with which its token left the weir. -/
def execWinfo (f : Firing) (s : State) : Host.Outcome State Fault Refusal :=
  s.onMain fun m => m.fire f .winfo fun m => m.result f (some f.left) (some (opnd tyInt f.wsel.toNat))

/-- REFGET (R149): position and direction of a reference as the tuft holds them. -/
def execRefget (f : Firing) (s : State) : Host.Outcome State Fault Refusal :=
  s.onMain fun m => m.fire f .refget fun m =>
    match refOperand f.right.value.toNat with
    | none => m.badOperand f 1
    | some r =>
      let b := m.bus f.die f.tuft
      let p := if f.i.flags.getLsbD 0 then windowOf (b.at_ r) (m.refShift r) else uns 64 (b.at_ r)
      m.result f (some (opnd tyInt p)) (some (opBool (b.up r)))

/-! ### The scheduler -/

/-- R224: the changeover slot for which a context is the designate of a channel. -/
def Main.designate (m : Main) (c ctx : Nat) : Option Nat :=
  (m.ref.slots.find? (fun s => m.get (F.CHG_STAT_STATE s.k) == 2 &&
    s.entries.any (fun e => e.kind == 3 && e.target == c && e.value == ctx))).map (fun s => s.k)

/-- Store the entries of the scheduler; MINFREE follows the free entries (R219, R232). -/
def Main.setOuts (m : Main) (l : List OutEntry) : Main :=
  let m := { m with ref := { m.ref with outs := l } }
  m.set F.OUTSCHED_POOL_MINFREE (Nat.min (m.get F.OUTSCHED_POOL_MINFREE) (16384 - l.length))

/-- R219: room for one more entry of a channel. -/
def Main.outRoom (m : Main) (c : Nat) : Bool :=
  decide (m.ref.outs.length < 16384) &&
  decide ((m.ref.outs.filter (fun o => o.ch == c)).length < Nat.max 1 (m.get (F.OUTSCHED_CFG_CAP c)))

/-- R218: the window of a reference for a channel, LEAD nanoseconds ahead. -/
def Main.outWindow (m : Main) (c r : Nat) : Nat :=
  windowOf (m.refPredict r (m.get (F.OUTSCHED_CFG_LEAD c))) (m.refShift r)

/-- R217: a late entry: counted, and applied or discarded as LATEPOL says. In FAULT-STOP nothing is applied (R524). -/
def Main.outLate (m : Main) (c v : Nat) : Main :=
  let m := m.bump (F.OUTSCHED_STAT_LATE c)
  if m.flag (F.OUTSCHED_CFG_LATEPOL c) then m.bump (F.OUTSCHED_STAT_DISCARDED c) else if m.mode = 11 then m else m.applyOut c v

/-- OUTACK (R129). -/
def outack (late : Bool) (c stamp : Nat) : Opnd :=
  opControl (0x13 + b2n late * 2 ^ 8 + c * 2 ^ 16 + stamp * 2 ^ 32)

/-- R217, R219: the scheduler takes an OUTST of the channel's owner. -/
def Main.outTake (m : Main) (f : Firing) (c r stamp v : Nat) : Main :=
  let w := m.outWindow c r
  if stampHolds (m.refRule r) stamp w none then (m.outLate c v).answerBoth f (outack true c stamp)
  else if !m.outRoom c then m.parkOp f fcOutFull c c
  else
    let e : OutEntry := { ch := c, ref := r, stamp := stamp, value := v, ctx := f.ctx.toNat, slot := none,
                          seen := some (stampSign stamp w) }
    (m.setOuts (m.ref.outs ++ [e])).answerBoth f (outack false c stamp)

/-- R224: the scheduler takes an OUTST of a designate. -/
def Main.outDesignate (m : Main) (f : Firing) (k c r stamp v : Nat) : Main :=
  if !m.outRoom c then m.parkOp f fcOutFull c c
  else
    let e : OutEntry := { ch := c, ref := r, stamp := stamp, value := v, ctx := f.ctx.toNat, slot := some k, seen := none }
    (m.setOuts (m.ref.outs ++ [e])).answerBoth f (outack false c stamp)

/-- R216: the owner of a channel. -/
def Main.outOwner (m : Main) (c ctx : Nat) : Bool :=
  m.flag (F.OUTSCHED_OWN_OWNED c) && m.get (F.OUTSCHED_OWN_CTX c) == ctx

/-- R147: a channel word: reference and channel. -/
def channelWord (x : Nat) : Option (Nat × Nat) :=
  if bitsOf x 24 40 = 0 ∧ bitsOf x 6 2 = 0 ∧ chanOk (bitsOf x 8 16) = true then some (bitsOf x 0 6, bitsOf x 8 16) else none

/-- OUTST (R148, R150, R215 to R219, R224). -/
def Main.outst (m : Main) (f : Firing) : Main :=
  match channelWord f.right.value.toNat with
  | none => m.badOperand f 1
  | some (r, c) =>
    if refOperand r = none then m.badOperand f 1
    else if !m.chanValueOk c f.left.value.toNat then m.badOperand f 0
    else m.once f fun m =>
      let stamp := m.stampOf f r
      let v := f.left.value.toNat
      if !m.live (.channel c) then m.parkOp f fcUnitDisabled c c
      else if m.outOwner c f.ctx.toNat then m.outTake f c r stamp v
      else match m.designate c f.ctx.toNat with
        | some k => m.outDesignate f k c r stamp v
        | none => m.opFault f fcOutNotOwned c c

/-- OUTST: a stamped output. -/
def execOutst (f : Firing) (s : State) : Host.Outcome State Fault Refusal :=
  s.onMain fun m => m.fireReq f .outst fun m => m.outst f

/-- OUTNOW (R150, R217): applied on acceptance, but in FAULT-STOP, where the scheduler applies nothing (R524, log 238). It has no stamp, so the
STAMP of its OUTACK is a free value (log 50). -/
def Main.outnow (m : Main) (f : Firing) : Main :=
  match channelWord f.right.value.toNat with
  | none => m.badOperand f 1
  | some (r, c) =>
    if r ≠ 0 then m.badOperand f 1
    else if !m.chanValueOk c f.left.value.toNat then m.badOperand f 0
    else m.once f fun m =>
      if !m.live (.channel c) then m.parkOp f fcUnitDisabled c c
      else if m.outOwner c f.ctx.toNat then
        let fv := m.takeFree
        (if m.mode = 11 then fv.2 else fv.2.applyOut c f.left.value.toNat).answerBoth f (outack false c (fv.1 % 2 ^ 32))
      else m.opFault f fcOutNotOwned c c

/-- OUTNOW: an immediate output. -/
def execOutnow (f : Firing) (s : State) : Host.Outcome State Fault Refusal :=
  s.onMain fun m => m.fireReq f .outnow fun m => m.outnow f

/-! ### What a changeover asks of the step (R225, R226) -/

/-- The changeover slot of a number. -/
def Main.chg (m : Main) (k : Nat) : ChgSlot :=
  (m.ref.slots.find? (fun s => s.k == k)).getD { k := k, entries := [], bad := none, armedAt := 0, seen := false, moved := [] }

/-- Store a changeover slot. -/
def Main.putChg (m : Main) (s : ChgSlot) : Main :=
  { m with ref := { m.ref with slots := m.ref.slots.filter (fun x => x.k != s.k) ++ [s] } }

/-- R225: the trigger reference. -/
def Main.chgRef (m : Main) (k : Nat) : Nat := (refOperand (m.get (F.CHG_TRIG_REF k))).getD 1

/-- The window of the trigger reference. -/
def Main.chgWindow (m : Main) (k : Nat) : Nat := windowOf (m.refPos (m.chgRef k)) (m.refShift (m.chgRef k))

/-- R225: the trigger of an ARMED slot is crossed. While its reference is not enabled nothing crosses (R197). -/
def Main.chgDue (m : Main) (k : Nat) : Bool :=
  m.get (F.CHG_STAT_STATE k) == 2 && m.refEn (m.chgRef k) &&
  stampHolds (m.refRule (m.chgRef k)) (m.get (F.CHG_TRIG_STAMP k)) (m.chgWindow k) (some (m.chg k).seen)

/-- R226: a slot is due in this step: it commits before outputs are applied and before a frame leaves. -/
def Main.chgsDue (m : Main) : Bool := [0, 1, 2, 3].any m.chgDue

/-! ### The step (R218) -/

/-- Whether entry a precedes entry b along the direction of travel of their reference: forward or increasing stamps rise. -/
def stampBefore (up : Bool) (a b : Nat) : Bool :=
  if up then decide (2 ^ 31 < uns 32 ((a : Int) - b)) else decide (2 ^ 31 < uns 32 ((b : Int) - a))

/-- Insert an entry before the first of its reference that follows it. -/
def insDue (up : Bool) (e : OutEntry) : List OutEntry → List OutEntry
  | [] => [e]
  | x :: t => if x.ref == e.ref && stampBefore up e.stamp x.stamp then e :: x :: t else x :: insDue up e t

/-- R218: put the entries of each reference, in stamp order, into the places that they hold in order of acceptance. -/
def placeDue : List OutEntry → List OutEntry → List OutEntry
  | [], _ => []
  | e :: t, sorted =>
    match sorted.find? (fun x => x.ref == e.ref) with
    | some x => x :: placeDue t (sorted.erase x)
    | none => e :: placeDue t sorted

/-- The direction of travel of a reference: its rule where that names one, else the direction it moves in (log 51). -/
def Main.travelUp (m : Main) (r : Nat) : Bool :=
  match m.refRule r with
  | 0 => true
  | 1 => false
  | _ => (m.refSt r).dir

/-- R218: the order in which the entries that fall due in one step are applied. -/
def Main.dueOrder (m : Main) (l : List OutEntry) : List OutEntry :=
  placeDue l (l.foldl (fun acc e => insDue (m.travelUp e.ref) e acc) [])

/-- The entry's condition holds in this step. -/
def Main.outHolds (m : Main) (o : OutEntry) : Bool :=
  o.slot.isNone && m.refEn o.ref && stampHolds (m.refRule o.ref) o.stamp (m.outWindow o.ch o.ref) o.seen

/-- OUTPUT_SCHEDULER_STEP (R218, R226, R524): apply the entries that are due. An entry first evaluated after its reference was enabled
is late when its condition holds (R197). -/
def Main.outStep (m : Main) : Main :=
  if m.mode = 11 ∨ m.mode = 10 ∨ m.chgsDue = true then m
  else
    let due := m.ref.outs.filter m.outHolds
    let rest := (m.ref.outs.filter (fun o => !m.outHolds o)).map (fun o =>
      if o.slot.isNone && m.refEn o.ref && o.seen.isNone then { o with seen := some (stampSign o.stamp (m.outWindow o.ch o.ref)) }
      else o)
    let order := m.dueOrder due
    order.foldl (fun m o => if o.seen.isNone then m.outLate o.ch o.value else m.applyOut o.ch o.value) (m.setOuts rest)

/-- OUTPUT_SCHEDULER_STEP. -/
def execOutputSchedulerStep (s : State) : Host.Outcome State Fault Refusal := s.onMain Main.outStep

/-! ### Owner and cancel (R216, R220) -/

/-- Cancel the entries of a channel that p picks, and count them. -/
def Main.outCancel (m : Main) (c : Nat) (p : OutEntry → Bool) : Main :=
  let n := (m.ref.outs.filter (fun o => o.ch == c && p o)).length
  if n = 0 then m
  else (m.setOuts (m.ref.outs.filter (fun o => !(o.ch == c && p o)))).bumpBy (F.OUTSCHED_STAT_CANCELLED c) n

/-- R216, R227: the owner of a channel becomes another; the pending entries of the previous owner are cancelled. The present
owner named again is no change and cancels nothing (log 234). -/
def Main.setOwner (m : Main) (c ctx : Nat) (owned : Bool) : Main :=
  if m.get (F.OUTSCHED_OWN_CTX c) = ctx ∧ m.flag (F.OUTSCHED_OWN_OWNED c) = owned then m
  else ((m.outCancel c (fun o => o.slot.isNone)).set (F.OUTSCHED_OWN_CTX c) ctx).set (F.OUTSCHED_OWN_OWNED c) (b2n owned)

/-- R223, R224: the slots in STAGING or ARMED whose descriptor names a target. -/
def Main.chgNames (m : Main) (kind target : Nat) : List Nat :=
  (m.ref.slots.filter (fun s => (m.get (F.CHG_STAT_STATE s.k) == 1 || m.get (F.CHG_STAT_STATE s.k) == 2) &&
    s.entries.any (fun e => e.kind == kind && e.target == target))).map (fun s => s.k)

/-- R224: a direct write to a target: ignored and counted while a changeover names it, else performed. -/
def Main.unlessNamed (m : Main) (kind target : Nat) (act : Main → Main) : Main :=
  match m.chgNames kind target with
  | [] => act m
  | ks => ks.foldl (fun m k => m.bump (F.CHG_STAT_LOCKHITS k)) m

/-- OUTSCHED_OWN_WRITE (R216, R224): a direct write of OWN. -/
def Main.ownWrite (m : Main) (c v : Nat) : Main :=
  m.unlessNamed 3 c fun m => m.setOwner c (v % 256) (bitsOf v 8 1 == 1)

/-- OUTSCHED_OWN_WRITE. A number that R215 does not list names no channel, and its write is discarded (R11). -/
def execOutschedOwnWrite (c : Fin 1088) (v : Word) (s : State) : Host.Outcome State Fault Refusal :=
  s.onMain fun m => if chanOk c.val then m.ownWrite c.val v.toNat else m

/-- OUTSCHED_CANCEL (R220): a write of 1 to CTL.CANCEL. -/
def Main.cancelWrite (m : Main) (c : Nat) : Main := m.outCancel c (fun o => o.slot.isNone)

/-- OUTSCHED_CANCEL. -/
def execOutschedCancel (c : Fin 1088) (s : State) : Host.Outcome State Fault Refusal :=
  s.onMain fun m => if chanOk c.val then m.cancelWrite c.val else m

end Sys2Proof.Machine
end

