-- ==== Sys2Proof/Machine/Ctx.lean ====
section
/-! DEFINITION. The context table and the placement maps (R46 to R51, R64, R73, R189, R235, R351), the event router (R54 to R56), and
what a mode change does (R521, R522). -/

namespace Sys2Proof.Machine

/-! ### Regions of memory that a register may name -/

/-- R64, R351: the n bytes from pa lie wholly within the plain scratch of one populated compute die. -/
def Main.inScratch (m : Main) (pa n : Nat) : Bool :=
  match regionOf pa, regionOf (pa + (n - 1)) with
  | .scratch d _ _ 0, .scratch e _ _ 0 => d == e && m.compute d
  | _, _ => false

/-- The n bytes from pa lie wholly within present DRAM. -/
def Main.inDram (m : Main) (pa n : Nat) : Bool :=
  match regionOf pa, regionOf (pa + (n - 1)) with
  | .dram d _, .dram e _ => m.pop d && m.pop e
  | _, _ => false

/-- The n bytes from pa lie wholly within field SRAM. -/
def inFsram (pa n : Nat) : Bool :=
  match regionOf pa, regionOf (pa + (n - 1)) with
  | .fsram _ 0, .fsram _ 0 => true
  | _, _ => false

/-! ### Placement (R49 to R51) -/

/-- The master copy of placement entry i (R49). -/
def Main.master (m : Main) (i : Nat) : Nat :=
  m.get (F.CTXTAB_PLACE_VALID i) + m.get (F.CTXTAB_PLACE_DIE i) * 2 + m.get (F.CTXTAB_PLACE_TUFT i) * 16 +
  m.get (F.CTXTAB_PLACE_SLOT i) * 128 + m.get (F.CTXTAB_PLACE_PAIRED i) * 1024 + m.get (F.CTXTAB_PLACE_PDIE i) * 2048 +
  m.get (F.CTXTAB_PLACE_PTUFT i) * 16384 + m.get (F.CTXTAB_PLACE_PSLOT i) * 131072

/-- Write the master copy of placement entry i. -/
def Main.setMaster (m : Main) (i v : Nat) : Main :=
  (((((((m.set (F.CTXTAB_PLACE_VALID i) (bitsOf v 0 1)).set (F.CTXTAB_PLACE_DIE i) (bitsOf v 1 3)).set
    (F.CTXTAB_PLACE_TUFT i) (bitsOf v 4 3)).set (F.CTXTAB_PLACE_SLOT i) (bitsOf v 7 3)).set
    (F.CTXTAB_PLACE_PAIRED i) (bitsOf v 10 1)).set (F.CTXTAB_PLACE_PDIE i) (bitsOf v 11 3)).set
    (F.CTXTAB_PLACE_PTUFT i) (bitsOf v 14 3)).set (F.CTXTAB_PLACE_PSLOT i) (bitsOf v 17 3)

/-- The tuft regions that an entry uses, as 64 × die + 8 × tuft + region. -/
def plRegions (e : Nat) : List Nat :=
  if !plValid e then []
  else (64 * plDie e false + 8 * plTuft e false + plSlot e false) ::
    (if plPaired e then [64 * plDie e true + 8 * plTuft e true + plSlot e true] else [])

/-- The indices of which the register file lists a field of the master entry: all others are 0. -/
def Main.placeEntries (m : Main) : List Nat :=
  let base := (F.CTXTAB_PLACE_VALID 0).key
  let step := (F.CTXTAB_PLACE_VALID 1).key - base
  ((m.regs.filter (fun p => decide (base ≤ p.1 ∧ p.1 < base + 65536 * step))).map (fun p => (p.1 - base) / step)).eraseDups

/-- The indices whose master entry is VALID, which are those that the register file lists. -/
def Main.validEntries (m : Main) : List Nat :=
  let base := (F.CTXTAB_PLACE_VALID 0).key
  let step := (F.CTXTAB_PLACE_VALID 1).key - base
  (m.regs.filter (fun p => decide (base ≤ p.1 ∧ p.1 < base + 65536 * step ∧ (p.1 - base) % step = 0 ∧ p.2 = 1))).map
    (fun p => (p.1 - base) / step)

/-- What a placement check finds (R50). -/
inductive PlaceCheck
  | ok | badDie | conflict
  deriving DecidableEq, Repr

/-- R50: the check of entry v against the entries that others gives. It stops at the first thing that it finds (log 217). -/
def Main.placeCheck (m : Main) (v : Nat) (others : List Nat) : PlaceCheck :=
  if !plValid v then .ok
  else if !m.compute (plDie v false) || (plPaired v && (!m.compute (plDie v true) || plDie v true == plDie v false)) then .badDie
  else
    let used := (others.map plRegions).flatten
    if (plRegions v).any (fun r => used.contains r) then .conflict else .ok

/-- R246: the regions of an accepted entry record whether they hold a primary or a partner copy. -/
def Main.recordSides (m : Main) (v : Nat) : Main :=
  match plRegions v with
  | [] => m
  | p :: rest => { m with tuft := { m.tuft with partner := (m.tuft.partner.filter (fun r => r != p && !rest.contains r)) ++ rest } }

/-- R51: copy master entry i to the field die router and to the routers of the compute dies in ds. -/
def Main.copyPlace (m : Main) (i : Nat) (ds : List Nat) : Main :=
  ds.foldl (fun m d => m.set (F.ROUTER_PLACE_ENTRY d i) (m.master i)) m

/-- R83: the field die reloads every copy that a die's router holds. -/
def Main.placeReload (m : Main) (d : Nat) : Main :=
  let base := (F.ROUTER_PLACE_ENTRY d 0).key
  let step := (F.ROUTER_PLACE_ENTRY d 1).key - base
  m.placeEntries.foldl (fun m i => m.copyPlace i [d])
    { m with regs := m.regs.filter (fun p => decide (p.1 < base ∨ base + 65536 * step ≤ p.1)) }

/-- R50: the refusal of a placement write. -/
def Main.placeRefuse (m : Main) (i : Nat) (why : PlaceCheck) : Main :=
  (m.set (match why with
    | .badDie => F.CTXTAB_PLACESTAT_BADDIE
    | _ => F.CTXTAB_PLACESTAT_CONFLICT) 1).set F.CTXTAB_PLACESTAT_LASTREF i

/-- R50, R51: a checked write of a placement entry. -/
def Main.placeAccept (m : Main) (i v : Nat) : Main :=
  match m.placeCheck v ((m.validEntries.filter (fun j => j != i)).map m.master) with
  | .ok => { ((m.setMaster i v).recordSides (v % 2 ^ 20)).set F.CTXTAB_PLACESTAT_BUSY 1 with placing := m.placing ++ [i] }
  | why => m.placeRefuse i why

/-- PLACEMENT_WRITE (R46, R50, R51, R224): a direct write of a placement entry. The placement map of context 255 is read-only
to every sender of this command. -/
def Main.placeWrite (m : Main) (i v : Nat) : Main :=
  if 65280 ≤ i then m else m.unlessNamed 2 i fun m => m.placeAccept i v

/-- PLACEMENT_WRITE. -/
def execPlacementWrite (i : Fin 65536) (v : Word) (s : State) : Host.Outcome State Fault Refusal :=
  s.onMain fun m => m.placeWrite i.val v.toNat

/-- PLACEMENT_COPY_DONE (R51): every router copy is updated. -/
def Main.placeDone (m : Main) : Main :=
  Main.set { m.placing.foldl (fun m i => m.copyPlace i (0 :: m.computeDies)) m with placing := [] } F.CTXTAB_PLACESTAT_BUSY 0

/-- PLACEMENT_COPY_DONE. -/
def execPlacementCopyDone (s : State) : Host.Outcome State Fault Refusal := s.onMain Main.placeDone

/-! ### Context registers -/

/-- R235: a write of STATE.RUN. -/
def Main.runChange (m : Main) (c v : Nat) : Main :=
  match m.run c, v % 4 with
  | 0, 1 => m.setRun c 1
  | 0, 2 => m.setRun c 2
  | 1, 2 => m.setRun c 2
  | 2, 1 => m.setRun c 1
  | 1, 3 => m.breakCtx c causeSoftware 0
  | 2, 3 => m.breakCtx c causeSoftware 0
  | _, _ => m

/-- CONTEXT_RUN_WRITE (R46, R224, R235): a direct write. The descriptor of context 255 is read-only to every sender of this command. -/
def Main.runWrite (m : Main) (c v : Nat) : Main :=
  if c = 255 then m else m.unlessNamed 4 c fun m => m.runChange c v

/-- CONTEXT_RUN_WRITE. -/
def execContextRunWrite (c : BitVec 8) (v : BitVec 2) (s : State) : Host.Outcome State Fault Refusal :=
  s.onMain fun m => m.runWrite c.toNat v.toNat

/-- R73, R80: a write of 1 to STATE.SOAK_FULL by a sender that may make it. -/
def Main.soakFullPut (m : Main) (c : Nat) : Main := (m.set (F.CTXTAB_STATE_SOAK_FULL c) 0).set (F.CTXTAB_SOAKOCC_FULLPARK c) 0

/-- SOAK_FULL_CLEAR (R46, R73). -/
def Main.soakFullClear (m : Main) (c : Nat) : Main := if c = 255 then m else m.soakFullPut c

/-- SOAK_FULL_CLEAR. -/
def execSoakFullClear (c : BitVec 8) (s : State) : Host.Outcome State Fault Refusal := s.onMain fun m => m.soakFullClear c.toNat

/-- R64: the region that a value of CTXTAB.SOAK names may be enabled: it lies in one die's scratch or in present DRAM. -/
def Main.soakOk (m : Main) (v : Nat) : Bool :=
  let bytes := 2 ^ Nat.min 20 (bitsOf v 1 5) * 128
  let base := bitsOf v 12 28 * 4096
  bitsOf v 0 1 == 0 || m.inScratch base bytes || m.inDram base bytes

/-- R64, R74: a write of CTXTAB.SOAK by a sender that may make it. -/
def Main.soakPut (m : Main) (c v : Nat) : Main :=
  if m.get (F.CTXTAB_SOAKOCC_OCC c) ≠ 0 ∨ m.soakOk v = false then m
  else ((m.set (F.CTXTAB_SOAK_EN c) (bitsOf v 0 1)).set (F.CTXTAB_SOAK_SIZE c) (bitsOf v 1 5)).set (F.CTXTAB_SOAK_BASE c)
    (bitsOf v 12 28)

/-- SOAK_WRITE (R46, R64, R74). -/
def Main.soakWrite (m : Main) (c v : Nat) : Main := if c = 255 then m else m.soakPut c v

/-- SOAK_WRITE. -/
def execSoakWrite (c : BitVec 8) (v : Word) (s : State) : Host.Outcome State Fault Refusal :=
  s.onMain fun m => m.soakWrite c.toNat v.toNat

/-- R370: a write of 1 to EN sets FREE. -/
def Main.parkArm (m : Main) (c : Nat) : Main := m.setIf (m.flag (F.CTXTAB_PARK_EN c)) (F.CTXTAB_PARK_FREE c) (m.parkSlots c)

/-- R351, R355, R370: a write of PARK by a sender that may make it: EN, SIZE and BASE only while no slot is occupied; LOW is W1C. -/
def Main.parkPut (m : Main) (c v : Nat) : Main :=
  let low := F.CTXTAB_PARK_LOW c
  let m := if v / 2 ^ low.lo % 2 = 1 then m.set low 0 else m
  if m.hasParked c then m
  else
    let put := fun (m : Main) (f : Fld) => m.set f (bitsOf v f.lo f.w)
    (put (put (put m (F.CTXTAB_PARK_EN c)) (F.CTXTAB_PARK_SIZE c)) (F.CTXTAB_PARK_BASE c)).parkArm c

/-- PARK_WRITE (R46, R370). -/
def Main.parkWrite (m : Main) (c v : Nat) : Main := if c = 255 then m else m.parkPut c v

/-- PARK_WRITE. -/
def execParkWrite (c : BitVec 8) (v : Word) (s : State) : Host.Outcome State Fault Refusal :=
  s.onMain fun m => m.parkWrite c.toNat v.toNat

/-- R189: a write of FPCTL by a sender that may make it. The new value is copied to the tufts; until then firings use the value that the
write replaces, or the new one (log 16). -/
def Main.fpctlPut (m : Main) (c v : Nat) : Main :=
  let old := m.fpctlReg c
  let m := if bitsOf v 0 3 < 5 then m.set (F.CTXTAB_FPCTL_RM c) (bitsOf v 0 3) else m
  let m := ((m.set (F.CTXTAB_FPCTL_SUBN c) (bitsOf v 3 1)).set (F.CTXTAB_FPCTL_CT c) (bitsOf v 4 1)).set (F.CTXTAB_FPCTL_BUSY c) 1
  { m with req := { m.req with fpctlCopy := m.req.fpctlCopy ++ [(c, old)] } }

/-- FPCTL_WRITE (R46, R189). -/
def Main.fpctlWrite (m : Main) (c v : Nat) : Main := if c = 255 then m else m.fpctlPut c v

/-- FPCTL_WRITE. -/
def execFpctlWrite (c : BitVec 8) (v : Word) (s : State) : Host.Outcome State Fault Refusal :=
  s.onMain fun m => m.fpctlWrite c.toNat v.toNat

/-- FPCTL_COPY_DONE (R189). -/
def Main.fpctlDone (m : Main) (c : Nat) : Main :=
  { m.set (F.CTXTAB_FPCTL_BUSY c) 0 with req := { m.req with fpctlCopy := m.req.fpctlCopy.filter (fun p => p.1 != c) } }

/-- FPCTL_COPY_DONE. -/
def execFpctlCopyDone (c : BitVec 8) (s : State) : Host.Outcome State Fault Refusal := s.onMain fun m => m.fpctlDone c.toNat

/-- HANDLER_BOOST_EXPIRY (R238): the window of HWIN has passed. -/
def Main.boostExpiry (m : Main) (c : Nat) : Main :=
  if m.now < nmGet m.req.park.boost c 0 then m
  else { m with req := { m.req with park := { m.req.park with boost := nmDel m.req.park.boost c } } }

/-- HANDLER_BOOST_EXPIRY. -/
def execHandlerBoostExpiry (c : BitVec 8) (s : State) : Host.Outcome State Fault Refusal := s.onMain fun m => m.boostExpiry c.toNat

/-! ### The event router (R55, R56) -/

/-- The route of a source as one word, in the layout of a changeover entry (R55, R222). -/
def Main.routeWord (m : Main) (src : Nat) : Nat :=
  m.get (F.EVT_ROUTE_CTX src) + m.get (F.EVT_ROUTE_IA src) * 2 ^ 8 + m.get (F.EVT_ROUTE_PORT src) * 2 ^ 28 +
  m.get (F.EVT_ROUTE_EN src) * 2 ^ 30 + m.get (F.EVT_ROUTE_FRAME src) * 2 ^ 32

/-- R226: the route of an event captured at a time: what the route was before the earliest commit after that time that swapped it. A plain write of
the route (R84) also governs an event captured before it that reaches the event router after it (log 225). -/
def Main.routeAt (m : Main) (src time : Nat) : Nat :=
  let later := m.ref.slots.filter (fun s => decide (time < m.get (F.CHG_CTIME_TIME s.k)) && s.routes.any (fun r => r.1 == src))
  let first := later.foldl (fun b s => match b with
    | none => some s
    | some x => if m.get (F.CHG_CTIME_TIME s.k) < m.get (F.CHG_CTIME_TIME x.k) then some s else b) none
  ((first.bind (fun s => s.routes.find? (fun r => r.1 == src))).map (fun r => r.2)).getD (m.routeWord src)

/-- The context of a route. -/
def routeCtx (v : Nat) : Nat := bitsOf v 0 8

/-- R42, R55: the event token of a source by a route. -/
def Main.eventToken (m : Main) (v src word time : Nat) : Token :=
  { value := w64 (src + word * 2 ^ 32), ia := BitVec.ofNat 20 (bitsOf v 8 20), port := BitVec.ofNat 2 (bitsOf v 28 2), typ := tyEvent, wsel := 0,
    ctx := BitVec.ofNat 8 (routeCtx v), frame := BitVec.ofNat 24 (bitsOf v 32 24), stamp := BitVec.ofNat 32 time,
    prio := BitVec.ofNat 4 (m.eff (routeCtx v)), side := false, odie := 0, otuft := 0, pass := false, replay := none }

/-- R56: an event merged into a held token: newest capture word and STAMP, one more OVERRUN. -/
def mergeEvent (t : Token) (src word time : Nat) : Token :=
  let over_ := satAdd 16 (bitsOf t.value.toNat 16 16) 1
  { t with value := w64 (src + over_ * 2 ^ 16 + word * 2 ^ 32), stamp := BitVec.ofNat 32 time }

/-- Store the tokens that the event router holds. -/
def Main.setHeld (m : Main) (l : List (Nat × Token)) : Main := { m with tok := { m.tok with held := l } }

/-- R56: an event that completes a count. busy: the path to the router is busy. -/
def Main.eventForm (m : Main) (v src word time : Nat) (busy : Bool) : Main :=
  match m.tok.held.find? (fun p => p.1 == src) with
  | some (_, t) =>
    (m.setHeld (m.tok.held.map (fun p => if p.1 == src then (src, mergeEvent t src word time) else p))).bump
      (F.EVT_STAT_MERGED src)
  | none =>
    let t := m.eventToken v src word time
    let m := m.bump (F.EVT_STAT_EMITTED src)
    if busy || m.throttled t.ctx.toNat then m.setHeld (m.tok.held ++ [(src, t)]) else m.send t

/-- EVENT_CAPTURE (R55, R56): a captured event reaches the event router. -/
def Main.eventCapture (m : Main) (src word time : Nat) (busy : Bool) : Main :=
  let m := { m with tok := { m.tok with captured := m.tok.captured.erase { src := src, word := word, time := time } } }
  let v := m.routeAt src time
  if bitsOf v 30 1 = 0 ∨ m.dead (routeCtx v) = true then m.bump (F.EVT_STAT_DROPS src)
  else
    let n := m.get (F.EVT_DIV_PHASE src) + 1
    if n < Nat.max 1 (m.get (F.EVT_DIV_DIVIDER src)) then m.set (F.EVT_DIV_PHASE src) n
    else (m.set (F.EVT_DIV_PHASE src) 0).eventForm v src word time busy

/-- EVENT_CAPTURE. -/
def execEventCapture (src : Fin 1024) (word : BitVec 32) (time : Nat) (busy : Bool) (s : State) :
    Host.Outcome State Fault Refusal :=
  s.onMain fun m => m.eventCapture src.val word.toNat time busy

/-- EVENT_TOKEN_RELEASE (R56, R73): the token held for a source is delivered, once its context is not throttled. -/
def Main.eventRelease (m : Main) (src : Nat) : Main :=
  match m.tok.held.find? (fun p => p.1 == src) with
  | none => m
  | some (_, t) =>
    if m.throttled t.ctx.toNat then m else (m.setHeld (m.tok.held.filter (fun p => p.1 != src))).send t

/-- EVENT_TOKEN_RELEASE. -/
def execEventTokenRelease (src : Fin 1024) (s : State) : Host.Outcome State Fault Refusal := s.onMain fun m => m.eventRelease src.val

/-! ### Mode changes -/

/-- R522: a mode change takes effect: the enables that the new mode refuses are cleared and source 928 is raised. -/
def Main.enterMode (m : Main) (mode why : Nat) : Main :=
  let prev := m.mode
  let m := ((m.set F.MODE_CUR_MODE mode).set F.MODE_CUR_PREV prev).set F.MODE_CUR_WHY why
  (m.modeClears mode).event 928 (mode + prev * 16 + why * 256)

/-- R520, R521: a changeover slot is STAGING or ARMED. -/
def Main.chgBusy (m : Main) : Bool := [0, 1, 2, 3].any (fun k => m.get (F.CHG_STAT_STATE k) == 1 || m.get (F.CHG_STAT_STATE k) == 2)

/-- R521: CHANGEOVER ends when no slot is STAGING or ARMED. -/
def Main.chgSettle (m : Main) : Main :=
  if m.mode = 5 ∧ m.chgBusy = false then m.enterMode 4 2 else m

end Sys2Proof.Machine
end

