-- ==== Sys2Proof/Machine/Chg.lean ====
section
/-! DEFINITION. Changeover (R221 to R230), the reference bus (R26, R27) and the weirs (R206 to R214, R228). -/

namespace Sys2Proof.Machine

/-! ### Changeover slots -/

/-- CHG.STAT as it stands (R229, R233). -/
def Main.chgStat (m : Main) (k : Nat) : Nat :=
  m.get (F.CHG_STAT_STATE k) + m.get (F.CHG_STAT_LATE k) * 8 + m.get (F.CHG_STAT_ERR k) * 16 +
  m.get (F.CHG_STAT_ERRIDX k) * 256 + m.get (F.CHG_STAT_LOCKHITS k) * 2 ^ 32

/-- R229: the notification of a commit or an abort. -/
def Main.chgNote (m : Main) (k : Nat) : Main :=
  if !m.flag (F.CHG_NOTE_EN k) then m
  else
    let c := m.get (F.CHG_NOTE_CTX k)
    m.send { value := w64 (m.chgStat k), ia := BitVec.ofNat 20 (m.get (F.CHG_NOTE_IA k)),
             port := BitVec.ofNat 2 (m.get (F.CHG_NOTE_PORT k)), typ := tyInt, wsel := 0, ctx := BitVec.ofNat 8 c, frame := 0,
             stamp := BitVec.ofNat 32 m.now, prio := BitVec.ofNat 4 (m.eff c), side := false, odie := 0, otuft := 0,
             pass := false, replay := none }

/-- R223 to R225: a slot aborts: the designates' entries are discarded and counted. -/
def Main.chgAbort (m : Main) (k err idx : Nat) : Main :=
  let chs := ((m.ref.outs.filter (fun o => o.slot == some k)).map (fun o => o.ch)).eraseDups
  let m := chs.foldl (fun m c => m.outCancel c (fun o => o.slot == some k)) m
  (((((m.set (F.CHG_STAT_STATE k) 4).set (F.CHG_STAT_ERR k) err).set (F.CHG_STAT_ERRIDX k) idx).chgNote k)).chgSettle

/-- R221: the entry in 16 bytes of a descriptor. Reserved bits of word 0 make the kind invalid (R578). -/
def chgEntryOf (x : Nat) : ChgEntry :=
  let kind := if bitsOf x 4 4 ≠ 0 ∨ bitsOf x 24 40 ≠ 0 then 16 else bitsOf x 0 4
  { kind := kind, target := bitsOf x 8 16, value := bitsOf x 64 64 }

/-- R223: read n entries from pa on; stop at the first that cannot be read (log 52). -/
def Main.chgRead (m : Main) : Nat → Nat → Nat → List ChgEntry × Option Nat × Main
  | 0, _, _ => ([], none, m)
  | n + 1, pa, i =>
    match m.loadPhys (ctxId 0 0) pa 16 with
    | (.ok x, m) =>
      let r := m.chgRead n (pa + 16) (i + 1)
      (chgEntryOf x :: r.1, r.2.1, r.2.2)
    | (.wait, _) =>
      let r := (m.wakeFor pa).chgRead n (pa + 16) (i + 1)
      (chgEntryOf (m.peek pa 16) :: r.1, r.2.1, r.2.2)
    | (.fail _ _, m) => ([], some i, m)

/-- R222, R578: the range of TARGET. -/
def chgTargetOk (e : ChgEntry) : Bool :=
  match e.kind with
  | 1 => decide (e.target < 1024)
  | 2 => decide (e.target < 65280)
  | 3 => chanOk e.target
  | _ => decide (1 ≤ e.target ∧ e.target ≤ 254)

/-- R222, R578: reserved bits and values of VALUE, and the state of a CTXRUN target. -/
def Main.chgValueOk (m : Main) (e : ChgEntry) : Bool :=
  match e.kind with
  | 1 => bitsOf e.value 31 1 == 0 && bitsOf e.value 56 8 == 0
  | 2 => bitsOf e.value 20 44 == 0
  | 3 => bitsOf e.value 9 55 == 0
  | _ => (e.value == 1 || e.value == 2) && !m.dead e.target

/-- R222: the placement that will hold after every entry of a descriptor, without entry i. -/
def Main.placeAfter (m : Main) (es : List ChgEntry) (i : Nat) : List Nat :=
  let moved := es.filter (fun e => e.kind == 2)
  let kept := (m.validEntries.filter (fun j => j != i && !moved.any (fun e => e.target == j))).map m.master
  kept ++ (moved.filter (fun e => e.target != i)).map (fun e => e.value)

/-- R578: the error of entry e of slot k, none when it is valid. others are the other entries of the descriptor. -/
def Main.chgErr (m : Main) (k : Nat) (es : List ChgEntry) (e : ChgEntry) (others : List ChgEntry) : Option Nat :=
  if e.kind = 0 ∨ 5 ≤ e.kind then some 1
  else if !chgTargetOk e || !m.chgValueOk e then some 2
  else if e.kind = 2 ∧ m.placeCheck e.value (m.placeAfter es e.target) ≠ .ok then some 3
  else if others.any (fun x => x.kind == e.kind && x.target == e.target) || (m.chgNames e.kind e.target).any (fun j => j != k) then
    some 4
  else none

/-- R223: the first invalid entry of a descriptor, with its error and index. -/
def Main.chgFirstErr (m : Main) (k : Nat) (es : List ChgEntry) : List ChgEntry → List ChgEntry → Nat → Option (Nat × Nat)
  | _, [], _ => none
  | pre, e :: t, i =>
    match m.chgErr k es e (pre ++ t) with
    | some err => some (err, i)
    | none => m.chgFirstErr k es (pre ++ [e]) t (i + 1)

/-- R194, R227: a changeover writes an event route. -/
def Main.setRoute (m : Main) (src v : Nat) : Main :=
  ((((m.set (F.EVT_ROUTE_CTX src) (bitsOf v 0 8)).set (F.EVT_ROUTE_IA src) (bitsOf v 8 20)).set
    (F.EVT_ROUTE_PORT src) (bitsOf v 28 2)).set (F.EVT_ROUTE_EN src) (bitsOf v 30 1)).set (F.EVT_ROUTE_FRAME src) (bitsOf v 32 24)

/-- R227: an entry of a designate becomes pending, or is late; in FAULT-STOP it is not evaluated (R524). -/
def Main.designateCommit (m : Main) (o : OutEntry) : Main :=
  let w := m.outWindow o.ch o.ref
  let rest := m.ref.outs.erase o
  if m.mode ≠ 11 ∧ stampHolds (m.refRule o.ref) o.stamp w none = true then (m.setOuts rest).outLate o.ch o.value
  else m.setOuts (rest ++ [{ o with slot := none, seen := some (stampSign o.stamp w) }])

/-- R226, R227: one swap, in the field die's own units. -/
def Main.swap (m : Main) (e : ChgEntry) : Main :=
  match e.kind with
  | 1 => m.setRoute e.target e.value
  | 2 => ((m.setMaster e.target e.value).recordSides e.value).copyPlace e.target [0]
  | 3 => m.setOwner e.target (e.value % 256) (bitsOf e.value 8 1 == 0)
  | _ => if m.dead e.target then m else m.runChange e.target e.value

/-- R226: a slot commits. -/
def Main.chgCommit (m : Main) (k : Nat) (late : Bool) : Main :=
  let s := m.chg k
  let runs := (s.entries.filter (fun e => e.kind == 4)).map (fun e => (e.target, m.run e.target))
  let routes := (s.entries.filter (fun e => e.kind == 1)).map (fun e => (e.target, m.routeWord e.target))
  let m := s.entries.foldl Main.swap m
  let m := (m.ref.outs.filter (fun o => o.slot == some k)).foldl Main.designateCommit m
  let m := m.putChg { s with moved := (s.entries.filter (fun e => e.kind == 2)).map (fun e => e.target), runs := runs, routes := routes }
  let m := { m with ref := { m.ref with commits := m.ref.commits.set k ((m.ref.commits.getD k 0 + 1) % 4) } }
  let m := ((m.set (F.CHG_STAT_STATE k) 3).set (F.CHG_CTIME_TIME k) m.now).setIf late (F.CHG_STAT_LATE k) 1
  (m.chgNote k).chgSettle

/-- R223, R225: a slot becomes ARMED; a condition that already holds commits or aborts it. -/
def Main.chgArmed (m : Main) (k : Nat) : Main :=
  let w := m.chgWindow k
  let stamp := m.get (F.CHG_TRIG_STAMP k)
  let m := (m.set (F.CHG_STAT_STATE k) 2).putChg { m.chg k with armedAt := m.now, seen := stampSign stamp w }
  if stampHolds (m.refRule (m.chgRef k)) stamp w none then
    (if m.flag (F.CHG_CTL_LATEACT k) then m.chgAbort k 5 0 else m.chgCommit k true)
  else m

/-- CHG_ARM (R221, R223): a write of 1 to CTL.ARM. -/
def Main.chgArm (m : Main) (k : Nat) : Main :=
  let st := m.get (F.CHG_STAT_STATE k)
  if st = 1 ∨ st = 2 then m
  else
    let m := (((m.set (F.CHG_STAT_STATE k) 1).set (F.CHG_STAT_LATE k) 0).set (F.CHG_STAT_ERR k) 0).set (F.CHG_STAT_ERRIDX k) 0
    let m := m.putChg { m.chg k with entries := [], bad := none }
    let m := if m.mode = 4 then m.enterMode 5 2 else m
    let base := m.get (F.CHG_DESC_BASE k)
    let n := Nat.min 1024 (m.get (F.CHG_DESC_COUNT k))
    if base % 16 ≠ 0 ∨ (n ≠ 0 ∧ inFsram base (16 * n) = false ∧ m.inScratch base (16 * n) = false) then m.chgAbort k 8 0
    else if n = 0 then m.chgArmed k
    else
      let r := m.chgRead n base 0
      r.2.2.putChg { r.2.2.chg k with entries := r.1, bad := r.2.1 }

/-- CHG_ARM. -/
def execChgArm (k : Fin 4) (s : State) : Host.Outcome State Fault Refusal := s.onMain fun m => m.chgArm k.val

/-- CHG_STAGING_DONE (R223, R578): the checks are complete and the shadows in place. -/
def Main.chgStaged (m : Main) (k : Nat) : Main :=
  if m.get (F.CHG_STAT_STATE k) ≠ 1 then m
  else
    let s := m.chg k
    match m.chgFirstErr k s.entries [] s.entries 0, s.bad with
    | some (err, i), _ => m.chgAbort k err i
    | none, some i => m.chgAbort k 8 i
    | none, none => m.chgArmed k

/-- CHG_STAGING_DONE. -/
def execChgStagingDone (k : Fin 4) (s : State) : Host.Outcome State Fault Refusal := s.onMain fun m => m.chgStaged k.val

/-- CHG_ABORT (R225): a write of 1 to CTL.ABORT. -/
def Main.chgAbortWrite (m : Main) (k : Nat) : Main :=
  let st := m.get (F.CHG_STAT_STATE k)
  if st = 1 ∨ st = 2 then m.chgAbort k 7 0 else m

/-- CHG_ABORT. -/
def execChgAbort (k : Fin 4) (s : State) : Host.Outcome State Fault Refusal := s.onMain fun m => m.chgAbortWrite k.val

/-- CHG_COMMIT (R225, R226): the trigger is crossed. Slots that commit in the same step do so in the order of their numbers. -/
def Main.chgTrigger (m : Main) (k : Nat) : Main :=
  if m.chgDue k && (List.range k).all (fun j => !m.chgDue j) then m.chgCommit k false else m

/-- CHG_COMMIT. -/
def execChgCommit (k : Fin 4) (s : State) : Host.Outcome State Fault Refusal := s.onMain fun m => m.chgTrigger k.val

/-- CHG_TIMEOUT (R225). -/
def Main.chgTimeout (m : Main) (k : Nat) : Main :=
  let tmo := m.get (F.CHG_CTL_TMO k)
  if m.get (F.CHG_STAT_STATE k) = 2 ∧ tmo ≠ 0 ∧ (m.chg k).armedAt + tmo * 1000 ≤ m.now then m.chgAbort k 6 0 else m

/-- CHG_TIMEOUT. -/
def execChgTimeout (k : Fin 4) (s : State) : Host.Outcome State Fault Refusal := s.onMain fun m => m.chgTimeout k.val

/-! ### The reference bus -/

/-- REFBUS_FRAME_SEND (R26, R226): the field die sends the positions as they stand, once a slot that is due in this step has committed. -/
def Main.frameSend (m : Main) : Main :=
  if m.chgsDue then m
  else
  let rs := (List.range 48).map (· + 1)
  let seq := (m.ref.frame.seq + 1) % 2 ^ 16
  let f : BusFrame := { seq := seq, pos := rs.map m.refPos, dirn := rs.map (fun r => (m.refSt r).dir), counts := m.ref.commits }
  Main.set { m with ref := { m.ref with frame := f } } F.REFBUS_BUS_SEQ seq

/-- REFBUS_FRAME_SEND. -/
def execRefbusFrameSend (s : State) : Host.Outcome State Fault Refusal := s.onMain Main.frameSend

/-- R228: a matching-store entry becomes one token per operand. -/
def MsEntry.tokens (e : MsEntry) : List Token :=
  let one := fun (p : BitVec 2) (o : Option Opnd) => o.toList.map (fun o =>
    ({ value := o.value, ia := e.ia, port := p, typ := o.typ, wsel := 0, ctx := e.ctx, frame := e.frame, stamp := 0,
       prio := e.prio, side := e.side, odie := e.die, otuft := e.tuft, pass := false, replay := none, copied := true } : Token))
  one 0 e.left ++ one 1 e.right ++ one 3 e.third

/-- R228, R236: a ready entry that a SUSPENDED context keeps in the store becomes one token per operand that came as a token. -/
def Firing.tokens (f : Firing) : List Token :=
  let i := IWord.ofWord f.word
  let first : BitVec 2 := if ((decodeOp i).map (fun r => portsOf r i)).getD [] = [2] then 2 else 0
  let one := fun (p : BitVec 2) (k : Nat) (o : Opnd) => if f.pres.getLsbD k then
      [({ value := o.value, ia := f.ia, port := p, typ := o.typ, wsel := 0, ctx := f.ctx, frame := f.frame, stamp := 0, prio := f.prio,
          side := f.side, odie := f.die, otuft := f.tuft, pass := false, replay := none, copied := true } : Token)] else []
  one first 0 f.left ++ one 1 1 f.right ++ one 3 2 f.third

/-- R228: a tuft hands everything it holds of a block that has moved to its router: weir tokens, entries, and the tokens of its probes. -/
def Main.handOver (m : Main) (die tuft : Fin 8) (i : Nat) : Main :=
  let e := m.place die.val (i / 256) (i % 256)
  let away := fun (side : Bool) => plDie e side != die.val || plTuft e side != tuft.val
  let mine := fun (d t : Fin 8) (c : BitVec 8) (ia : BitVec 20) (side : Bool) =>
    d == die && t == tuft && c.toNat == i / 256 && ia.toNat / 4096 == i % 256 && away side
  let ws := m.tuft.weir.filter (fun w => mine w.die w.tuft w.tok.ctx w.tok.ia w.tok.side)
  let es := m.tuft.ms.filter (fun x => mine x.die x.tuft x.ctx x.ia x.side)
  let kept := fun (f : Firing) => f.way && mine f.die f.tuft f.ctx f.ia f.side
  let rs := m.tok.ready.filter kept
  let asked := fun (p : Probe) => mine p.die p.tuft p.tok.ctx p.tok.ia p.tok.side
  let ps := m.tuft.probes.filter asked
  let m := { m with tok := { m.tok with ready := m.tok.ready.filter (fun f => !kept f) } }
  let m := { m with tuft := { m.tuft with
    weir := m.tuft.weir.filter (fun w => !mine w.die w.tuft w.tok.ctx w.tok.ia w.tok.side),
    ms := m.tuft.ms.filter (fun x => !mine x.die x.tuft x.ctx x.ia x.side),
    probes := m.tuft.probes.filter (fun p => !asked p) } }
  (((ws.map (fun (w : WeirTok) => w.tok)) ++ (ps.map (fun (p : Probe) => p.tok :: p.waiting)).flatten).map
      (fun (t : Token) => { t with odie := die, otuft := tuft, released := false, copied := true }) ++
    (es.map MsEntry.tokens).flatten ++ (rs.map Firing.tokens).flatten).foldl Main.send m

/-- R226: a tuft applies the commit of slot k that a frame shows. -/
def Main.tuftCommit (m : Main) (die tuft : Fin 8) (k : Nat) : Main :=
  (m.chg k).moved.foldl (fun m i => (m.copyPlace i [die.val]).handOver die tuft i) m

/-- R208: insert a released token after those that do not follow it along the direction of travel. -/
def insRelease (up : Bool) (w : WeirTok) : List WeirTok → List WeirTok
  | [] => [w]
  | x :: t =>
    if x.tok.wsel == w.tok.wsel && stampBefore up w.tok.stamp.toNat x.tok.stamp.toNat then w :: x :: t
    else x :: insRelease up w t

/-- The condition of a held token in the frame that its tuft holds (R206, R207); a token on a reference that is not enabled is
not evaluated (log 41). -/
def Main.weirHolds (m : Main) (w : WeirTok) : Bool :=
  let r := w.tok.wsel.toNat
  m.refEn r && stampHolds (m.refRule r) w.tok.stamp.toNat (windowOf ((m.bus w.die w.tuft).at_ r) (m.refShift r)) w.seen

/-- R208: a token leaves the weir for matching. -/
def Main.release (m : Main) (w : WeirTok) (wsel : BitVec 6) : Main :=
  { m with tok := { m.tok with arrived := m.tok.arrived ++
    [{ die := w.die, tuft := w.tuft, tok := { w.tok with wsel := wsel, released := true } }] } }

/-- R207: a token whose condition holds: late at its first evaluation, at its crossing otherwise. -/
def Main.releaseCrossed (m : Main) (w : WeirTok) : Main :=
  if w.seen.isNone then (m.release w 63).bump (F.TUFT_WEIROCC_LATES w.die.val w.tuft.val)
  else (m.release w w.tok.wsel).bump (F.TUFT_WEIRREL_RELEASED w.die.val w.tuft.val)

/-- WEIR_RELEASE (R207, R208): a tuft evaluates its weir buffer. -/
def Main.weirEval (m : Main) (die tuft : Fin 8) : Main :=
  let mine := fun (w : WeirTok) => w.die == die && w.tuft == tuft
  let due := m.tuft.weir.filter (fun w => mine w && m.weirHolds w)
  let b := m.bus die tuft
  let rest := (m.tuft.weir.filter (fun w => !(mine w && m.weirHolds w))).map (fun w =>
    let r := w.tok.wsel.toNat
    if mine w && m.refEn r && w.seen.isNone then
      { w with seen := some (stampSign w.tok.stamp.toNat (windowOf (b.at_ r) (m.refShift r))) }
    else w)
  let order := due.foldl (fun acc w => insRelease (m.travelUp w.tok.wsel.toNat) w acc) []
  order.foldl Main.releaseCrossed { m with tuft := { m.tuft with weir := rest } }

/-- R27: a bad frame at a tuft. -/
def Main.badFrame (m : Main) (die tuft : Fin 8) (b : TuftBus) : Main :=
  let n := b.bad + 1
  let hold := decide (3 ≤ n)
  let m := m.putBus { b with bad := n, hold := hold }
  let m := if hold then m.bump (F.TUFT_WEIRREL_HOLDS die.val tuft.val) else m
  m.raiseEvent 10 die.val die.val tuft.val hold

/-- REFBUS_FRAME_RECEIVE (R27, R206, R207, R226): a tuft receives the last frame sent. crc: its CRC is good. After a frame with a
number it does not expect, a tuft expects the one that follows it (log 54). -/
def Main.frameReceive (m : Main) (die tuft : Fin 8) (crc : Bool) : Main :=
  if !(m.compute die.val && m.dieLive die.val) then m
  else
    let b := m.bus die tuft
    let f := m.ref.frame
    if !crc then m.badFrame die tuft { b with seq := b.seq.map (fun n => (n + 1) % 2 ^ 16) }
    else
      let next := some ((f.seq + 1) % 2 ^ 16)
      if b.seq.isSome ∧ b.seq ≠ some f.seq then m.badFrame die tuft { b with seq := next }
      else
        let changed := (List.range 4).filter (fun k => f.counts.getD k 0 != b.counts.getD k 0)
        let m := m.putBus { b with bad := 0, hold := false, seq := next, pos := f.pos, dirn := f.dirn, counts := f.counts }
        (changed.foldl (fun m k => m.tuftCommit die tuft k) m).weirEval die tuft

/-- REFBUS_FRAME_RECEIVE. -/
def execRefbusFrameReceive (die tuft : Fin 8) (crc : Bool) (s : State) : Host.Outcome State Fault Refusal :=
  s.onMain fun m => m.frameReceive die tuft crc

/-- WEIR_TIMEOUT (R210, R213): a held token whose time is over; a crossing in the same frame comes first. -/
def Main.weirTimeout (m : Main) (die tuft : Fin 8) (t : Token) : Main :=
  match m.tuft.weir.find? (fun w => w.die == die && w.tuft == tuft && w.tok == t) with
  | none => m
  | some w =>
    let r := t.wsel.toNat
    let tmo := m.get (F.REF_WEIR_TMO r)
    if tmo = 0 ∨ m.now < w.entered + tmo * 1000 ∨ (m.bus die tuft).hold = true ∨ m.weirHolds w = true then m
    else
      let m := { m with tuft := { m.tuft with weir := m.tuft.weir.erase w } }
      let m := m.bump (F.TUFT_WEIRREL_TIMEOUTS die.val tuft.val)
      if m.flag (F.REF_WEIR_TMOACT r) then m.parkTok t fcWeirTimeout r die tuft false else m.release w 62

/-- WEIR_TIMEOUT. -/
def execWeirTimeout (die tuft : Fin 8) (t : Token) (s : State) : Host.Outcome State Fault Refusal :=
  s.onMain fun m => m.weirTimeout die tuft t

end Sys2Proof.Machine
end

