-- ==== Sys2Proof/Machine/Culvert.lean ====
section
/-! DEFINITION. The culvert links (R324 to R332): flits and their check, replay, link-down, resync, training. -/

namespace Sys2Proof.Machine

/-! ### The ends of a link (R21, R22) -/

/-- An end of a culvert. -/
def Main.culvEnd (m : Main) (d p : Nat) : CulvEnd :=
  (m.culvs.find? (fun e => e.die == d && e.port == p)).getD
    { die := d, port := p, seq := 0, buf := [], rx := 0, unacked := 0, fails := 0, asked := false, replaying := false, trains := 0,
      trained := false, declared := false }

/-- Store an end. -/
def Main.putEnd (m : Main) (e : CulvEnd) : Main :=
  { m with culvs := m.culvs.filter (fun x => x.die != e.die || x.port != e.port) ++ [e] }

/-- R334: the STATE that the link shows, at the end that has a CULV block. -/
def Main.linkState (m : Main) (d p a pa : Nat) : Nat :=
  if d ≤ 5 then m.get (F.CULV_STAT_STATE d p) else m.get (F.CULV_STAT_STATE a pa)

/-- Act on the CULV block of an end. Memory dies have none (R334). -/
def Main.atEnd (m : Main) (d : Nat) (act : Main → Main) : Main := if d ≤ 5 then act m else m

/-- Both ends show a STATE. -/
def Main.linkSet (m : Main) (d p a pa st : Nat) : Main :=
  (m.atEnd d fun m => m.set (F.CULV_STAT_STATE d p) st).atEnd a fun m => m.set (F.CULV_STAT_STATE a pa) st

/-- R500: an event of the link at one end, named after the partner. Memory dies have no such source. -/
def Main.linkEvent (m : Main) (src d p partner : Nat) (severe : Bool) : Main :=
  m.atEnd d fun m => m.raiseEvent src d partner p severe

/-- R24: traffic of the link between two dies has an alternative path that is up. -/
def Main.altUp (m : Main) (a b : Nat) : Bool := ((m.hw.part.paths a b).drop 1).any m.pathUp

/-! ### Flits (R324, R326) -/

/-- One byte into the CRC-16 of R324: polynomial 0x1021, most significant bit first (log 103). -/
def crc16Step (c : BitVec 16) (b : BitVec 8) : BitVec 16 :=
  (List.range 8).foldl (fun c _ => if c.msb then (c <<< 1) ^^^ 0x1021#16 else c <<< 1) (c ^^^ (b.setWidth 16 <<< 8))

/-- The CRC-16 of R324 over the payload and bits [15:0] of the flit word. -/
def flitCrc (payload : List (BitVec 8)) (low : BitVec 16) : BitVec 16 :=
  (payload ++ [low.setWidth 8, (low >>> 8).setWidth 8]).foldl crc16Step 0xFFFF#16

/-- R324: the flit word of a flit with a SEQ and the ACK that its sender gives. -/
def Flit.word (f : Flit) (seq ack : Nat) : BitVec 32 :=
  let low := BitVec.ofNat 16 (seq % 256 + f.vc.toNat * 256 + ack % 64 * 1024)
  flitCrc f.payload low ++ low

/-- R326: the flits of a replay buffer that an ACK releases. -/
def ackRelease (buf : List (Nat × Flit)) (ack : Nat) : List (Nat × Flit) :=
  match buf with
  | [] => []
  | e :: _ => buf.drop ((ack + 65 - (e.1 % 64)) % 64)

/-- Replays of one flit before the link is declared down (R328). -/
def Main.repLim (m : Main) (d p a pa : Nat) : Nat :=
  Nat.max 1 (if d ≤ 5 then m.get (F.CULV_CTL_REPLIM d p) else m.get (F.CULV_CTL_REPLIM a pa))

/-- R325: tokens go on VC 0. -/
def Flit.vcOk (f : Flit) : Bool := f.toks.isEmpty || f.vc == 0

/-- R326: what the end (a, pa) puts on the link: its next new flit, or the next flit of a replay. Credits and service order
are left out (log 223); the VC is that of the traffic it carries (R325). -/
def Main.flitSend (m : Main) (a pa d p : Nat) (f : Option Flit) : Option (Nat × Flit × Main) :=
  let e := m.culvEnd a pa
  match f with
  | some f =>
    if e.replaying || 64 ≤ e.buf.length || f.payload.length != 64 || !f.vcOk then none
    else some (e.seq, f, (m.putEnd { e with seq := (e.seq + 1) % 256, buf := e.buf ++ [(e.seq, f)] }).atEnd a
      fun m => m.bump (F.CULV_TXFLITS_COUNT a pa))
  | none =>
    if (!e.asked && !e.replaying) || m.repLim a pa d p ≤ e.fails then none
    else match e.buf.find? (fun x => x.1 == (m.culvEnd d p).rx) with
      | none => none
      | some (q, f) =>
        if e.asked then
          some (q, f, ((m.putEnd { e with asked := false, replaying := true, fails := e.fails + 1 }).atEnd a
            fun m => m.bump (F.CULV_ERR_REPLAYS a pa)).linkEvent 21 a pa d false)
        else some (q, f, m)

/-- R326: the end (d, p) has received a flit in good order. -/
def Main.flitGood (m : Main) (d p a pa seq ackf : Nat) (ack : Bool) : Main :=
  let r := m.culvEnd d p
  let acked := ack || 16 ≤ r.unacked + 1
  let r := { r with rx := (seq + 1) % 256, unacked := if acked then 0 else r.unacked + 1, buf := ackRelease r.buf ackf }
  let m := (m.putEnd r).atEnd d fun m => m.bump (F.CULV_RXFLITS_COUNT d p)
  let e := m.culvEnd a pa
  m.putEnd { e with asked := false, fails := 0, replaying := e.replaying && e.seq != r.rx,
                    buf := if acked then ackRelease e.buf (seq % 64) else e.buf }

/-- CULVERT_FLIT_RECEIVE (R324, R326): the end (d, p) receives what its partner sends: a new flit, or with none the next flit of the
replay that it has requested, with the bits of the flit word and of the payload that are wrong on arrival. -/
def execCulvertFlitReceive (d p : Fin 8) (f : Option Flit) (werr : BitVec 32) (perr : List (BitVec 8)) (ack : Bool) (s : State) :
    Host.Outcome State Fault Refusal :=
  s.onMain fun m =>
    match m.hw.part.partnerPort d.val p.val with
    | none => m
    | some (a, pa) =>
      let st := m.linkState d.val p.val a pa
      if st ≠ 2 ∧ st ≠ 3 then m
      else match m.flitSend a pa d.val p.val f with
        | none => m
        | some (q, f, m) =>
          let word := f.word q ((m.culvEnd a pa).rx + 63) ^^^ werr
          let payload := List.zipWith (fun x y => x ^^^ y) f.payload (perr ++ List.replicate 64 0)
          let e := m.culvEnd a pa
          if flitCrc payload (word.setWidth 16) ≠ word.extractLsb' 16 16 then
            ((m.putEnd { e with asked := true }).atEnd d.val fun m => m.bump (F.CULV_ERR_CRCERR d.val p.val)).linkEvent 21
              d.val p.val a false
          else if bitsOf word.toNat 0 8 ≠ (m.culvEnd d.val p.val).rx then m.putEnd { e with asked := true }
          else m.flitGood d.val p.val a pa (bitsOf word.toNat 0 8) (bitsOf word.toNat 10 6) ack

/-! ### Link-down, resync, training (R327 to R332) -/

/-- R330: the runnel engine of a die aborts the open packets that came over the link from a neighbour. -/
def Main.linkAborts (m : Main) (d from_ : Nat) : Main :=
  (m.runnels.filter (fun r => r.die == d && match r.open_ with
    | some o => !o.aborted && o.via.contains from_
    | none => false)).foldl (fun m r => m.rnAbort d r.idx fcPktLinkdown) m

/-- R328, R330, R331: the link is declared down. -/
def Main.linkDeclare (m : Main) (d p a pa : Nat) : Main :=
  let one := fun (m : Main) (d p a : Nat) =>
    ((m.putEnd { m.culvEnd d p with declared := true }).atEnd d fun m => m.bump (F.CULV_STAT_DOWNS d p)).linkEvent 23 d p a false
  let m := one (one (m.linkSet d p a pa 5) d p a) a pa d
  (m.linkAborts d a).linkAborts a d

/-- LINK_DOWN (R328): the replay limit of a direction has been reached, or the forwarded clock is lost. -/
def execLinkDown (d p : Fin 8) (clock : Bool) (s : State) : Host.Outcome State Fault Refusal :=
  s.onMain fun m =>
    match m.hw.part.partnerPort d.val p.val with
    | none => m
    | some (a, pa) =>
      let st := m.linkState d.val p.val a pa
      let spent := fun (d p a pa : Nat) => (m.culvEnd d p).asked && decide (m.repLim d p a pa ≤ (m.culvEnd d p).fails)
      if (st = 2 ∨ st = 3) ∧ (clock || spent d.val p.val a pa || spent a pa d.val p.val) = true then
        m.linkDeclare d.val p.val a pa
      else m

/-- R329: an end resends over the alternative path what its partner has not passed on. -/
def Main.linkResend (m : Main) (d p a pa : Nat) : Main :=
  let e := m.culvEnd d p
  let r := m.culvEnd a pa
  let m := (m.putEnd { e with buf := [], fails := 0, asked := false, replaying := false }).putEnd { r with rx := e.seq, unacked := 0 }
  m.atEnd d fun m => m.bumpBy (F.CULV_LOST_RESENT d p) ((e.seq + 256 - r.rx) % 256)

/-- RESYNC_COMPLETE (R329, R331): each end has resent; the link retrains. -/
def execResyncComplete (d p : Fin 8) (s : State) : Host.Outcome State Fault Refusal :=
  s.onMain fun m =>
    match m.hw.part.partnerPort d.val p.val with
    | none => m
    | some (a, pa) =>
      if m.linkState d.val p.val a pa = 5 ∧ m.altUp d.val a = true then
        ((m.linkResend d.val p.val a pa).linkResend a pa d.val p.val).linkSet d.val p.val a pa 1
      else m

/-- R327, R331: one end sees a training end. -/
def Main.trainEnd (m : Main) (d p : Nat) (res : Training) : Main :=
  let e := m.culvEnd d p
  let m := if e.trained then m.atEnd d fun m => m.bump (F.CULV_STAT_RETRAINS d p) else m
  match res with
  | .fail => m.putEnd { e with trained := true, trains := e.trains + 1 }
  | _ => (m.putEnd { e with trained := true, trains := 0, declared := false }).atEnd d
      fun m => m.set (F.CULV_STAT_HALF d p) (b2n (res == .half))

/-- LINK_TRAINING_DONE (R327, R328, R331): a training ends. A failed one declares the link down where it is not; the third in a row
leaves it DOWN. -/
def execLinkTrainingDone (d p : Fin 8) (res : Training) (s : State) : Host.Outcome State Fault Refusal :=
  s.onMain fun m =>
    match m.hw.part.partnerPort d.val p.val with
    | none => m
    | some (a, pa) =>
      if m.linkState d.val p.val a pa ≠ 1 then m
      else
        let m := (m.trainEnd d.val p.val res).trainEnd a pa res
        match res with
        | .full => m.linkSet d.val p.val a pa 2
        | .half => ((m.linkSet d.val p.val a pa 3).linkEvent 22 d.val p.val a false).linkEvent 22 a pa d.val false
        | .fail =>
          let e := m.culvEnd d.val p.val
          if !e.declared then m.linkDeclare d.val p.val a pa
          else if 3 ≤ e.trains then
            ((m.linkSet d.val p.val a pa 4).linkEvent 23 d.val p.val a true).linkEvent 23 a pa d.val true
          else m

/-- R332: an end gives its replay buffer up; its partner expects what it sends next (R331). -/
def Main.endGivesUp (m : Main) (d p a pa : Nat) : Main :=
  let e := m.culvEnd d p
  let toks := (e.buf.map (fun x => x.2.toks)).flatten
  let m := m.putEnd { e with buf := [], fails := 0, asked := false, replaying := false }
  let m := m.putEnd { m.culvEnd a pa with rx := e.seq, unacked := 0 }
  let m := m.atEnd d fun m => m.bumpBy (F.CULV_LOST_LOSTTOK d p) toks.length
  { m with tok := { m.tok with inflight := toks.foldl (fun l t => l.erase t) m.tok.inflight } }

/-- PARTNER_UNREACHABLE (R332): the end gives its replay buffer up, and the die behind the link counts as lost. The other end does the same
with its own, when it has not yet. -/
def execPartnerUnreachable (d p : Fin 8) (s : State) : Host.Outcome State Fault Refusal :=
  s.onMain fun m =>
    match m.hw.part.partnerPort d.val p.val with
    | none => m
    | some (a, pa) =>
      let st := m.linkState d.val p.val a pa
      let second := st = 4 ∧ (m.culvEnd d.val p.val).buf ≠ []
      if ¬(st = 5 ∨ second) ∨ m.altUp d.val a = true then m
      else
        let lost := if a = 0 then d.val else a
        let m := (m.endGivesUp d.val p.val a pa).linkSet d.val p.val a pa 4
        if st = 5 then m.raiseSrc 24 0 lost lost else m

/-- R327, R331: a training of a link is started. -/
def Main.linkTrain (m : Main) (d p a pa : Nat) : Main :=
  ((m.linkSet d p a pa 1).putEnd { m.culvEnd d p with trains := 0 }).putEnd { m.culvEnd a pa with trains := 0 }

/-- A write of CULV[p].CTL (R331, R334). -/
def Main.culvCtlWrite (m : Main) (d p v : Nat) : Main :=
  match m.hw.part.partnerPort d p with
  | none => m
  | some (a, pa) =>
    let m := m.set (F.CULV_CTL_REPLIM d p) (bitsOf v 8 8)
    let st := m.linkState d p a pa
    if bitsOf v 0 1 = 1 ∧ (st = 2 ∨ st = 3 ∨ st = 4) then m.linkTrain d p a pa else m

/-- CULV_RETRAIN (R331): a write of CTL. -/
def execCulvRetrain (d p : Fin 8) (v : Word) (s : State) : Host.Outcome State Fault Refusal :=
  s.onMain fun m => if d.val ≤ 5 ∧ m.dieLive d.val = true then m.culvCtlWrite d.val p.val v.toNat else m

/-- The links of a die. -/
def Main.dieLinks (m : Main) (d : Nat) : List (Nat × Nat × Nat) :=
  (List.range 8).filterMap (fun p => (m.hw.part.partnerPort d p).map (fun x => (p, x)))

/-- An end of a link starts anew. Whether it has trained before (R334) is kept, or is not when its die is reset. -/
def Main.endFresh (m : Main) (d p : Nat) (keep : Bool) : Main :=
  let trained := keep && (m.culvEnd d p).trained
  let m : Main := { m with culvs := m.culvs.filter (fun e => e.die != d || e.port != p) }
  if trained then m.putEnd { m.culvEnd d p with trained := true } else m

/-- R35, R37: the links of a die are disabled or lose their power. -/
def Main.culvOff (m : Main) (d : Nat) : Main :=
  (m.dieLinks d).foldl (fun m x => ((m.endFresh d x.1 true).endFresh x.2.1 x.2.2 true).linkSet d x.1 x.2.1 x.2.2 0) m

/-- R327: the links of a die that has been powered, reset or woken train with the partners that are powered. -/
def Main.culvTrainDie (m : Main) (d : Nat) (powered : Nat → Bool) : Main :=
  (m.dieLinks d).foldl (fun m x =>
    if powered x.2.1 then ((m.endFresh d x.1 false).endFresh x.2.1 x.2.2 true).linkSet d x.1 x.2.1 x.2.2 1 else m.endFresh d x.1 false) m

end Sys2Proof.Machine
end

