-- ==== Sys2Proof/Machine/Crypto.lean ====
section
/-! DEFINITION. The cryptographic functions that the manual names by their standards: SHA-256 and SHA-384 (FIPS 180-4), HMAC-SHA-256
(FIPS 198-1), ECDSA verification over P-384 (FIPS 186-5), the CRC-32 of IEEE 802.3 (log 109). -/

namespace Sys2Proof.Machine

/-! ### Bytes -/

/-- The n bytes of a number, least significant first. -/
def leBytes : Nat → Nat → List Nat
  | 0, _ => []
  | n + 1, x => x % 256 :: leBytes n (x / 256)

/-- The n bytes of a number, most significant first. -/
def beBytes (n x : Nat) : List Nat := (leBytes n x).reverse

/-- The number that bytes spell, most significant first. -/
def beNum (l : List Nat) : Nat := l.foldl (fun a b => a * 256 + b) 0

/-- The number that bytes spell, least significant first. -/
def leNum (l : List Nat) : Nat := beNum l.reverse

/-- Blocks of n bytes; at most k of them. -/
def blocks (n : Nat) : Nat → List Nat → List (List Nat)
  | 0, _ => []
  | k + 1, l => l.take n :: blocks n k (l.drop n)

/-! ### SHA-2 -/

/-- The parameters by which SHA-256 and SHA-384 differ: word width, rotations of the four functions, round constants. -/
structure Sha where
  w : Nat
  s0 : Nat × Nat × Nat
  s1 : Nat × Nat × Nat
  e0 : Nat × Nat × Nat
  e1 : Nat × Nat × Nat
  k : List Nat
  deriving DecidableEq, Repr

/-- Rotate a word of w bits right. -/
def rotr (w n x : Nat) : Nat := x / 2 ^ n + x % 2 ^ n * 2 ^ (w - n)

/-- A big sigma: three rotations. -/
def shaBig (w : Nat) (r : Nat × Nat × Nat) (x : Nat) : Nat := Nat.xor (Nat.xor (rotr w r.1 x) (rotr w r.2.1 x)) (rotr w r.2.2 x)

/-- A small sigma: two rotations and a shift. -/
def shaSmall (w : Nat) (r : Nat × Nat × Nat) (x : Nat) : Nat := Nat.xor (Nat.xor (rotr w r.1 x) (rotr w r.2.1 x)) (x / 2 ^ r.2.2)

/-- The message schedule: the last 16 words, newest first, give the next one. -/
def shaExpand (h : Sha) : Nat → List Nat → List Nat
  | 0, l => l.reverse
  | n + 1, l =>
    shaExpand h n ((shaSmall h.w h.s1 (l.getD 1 0) + l.getD 6 0 + shaSmall h.w h.s0 (l.getD 14 0) + l.getD 15 0) % 2 ^ h.w :: l)

/-- One round on the eight working variables. -/
def shaRound (h : Sha) (v : List Nat) (kw : Nat × Nat) : List Nat :=
  match v with
  | [a, b, c, d, e, f, g, x] =>
    let ch := Nat.xor (Nat.land e f) (Nat.land (2 ^ h.w - 1 - e) g)
    let t1 := (x + shaBig h.w h.e1 e + ch + kw.1 + kw.2) % 2 ^ h.w
    let maj := Nat.xor (Nat.xor (Nat.land a b) (Nat.land a c)) (Nat.land b c)
    let t2 := (shaBig h.w h.e0 a + maj) % 2 ^ h.w
    [(t1 + t2) % 2 ^ h.w, a, b, c, (d + t1) % 2 ^ h.w, e, f, g]
  | _ => v

/-- One block. -/
def shaBlock (h : Sha) (st : List Nat) (blk : List Nat) : List Nat :=
  let ws := (blocks (h.w / 8) 16 blk).map beNum
  let v := (h.k.zip (shaExpand h (h.k.length - 16) ws.reverse)).foldl (shaRound h) st
  List.zipWith (fun a b => (a + b) % 2 ^ h.w) st v

/-- The padded message. -/
def shaPad (w : Nat) (l : List Nat) : List Nat :=
  let b := 2 * w
  let z := (2 * b - 1 - w / 4 - l.length % b) % b
  l ++ [0x80] ++ List.replicate z 0 ++ beBytes (w / 4) (8 * l.length)

/-- The hash of a byte string from an initial value, as words. -/
def shaHash (h : Sha) (iv : List Nat) (l : List Nat) : List Nat :=
  let p := shaPad h.w l
  (blocks (2 * h.w) (p.length / (2 * h.w)) p).foldl (shaBlock h) iv

/-- The round constants of SHA-256. -/
def sha256K : List Nat :=
  [0x428a2f98, 0x71374491, 0xb5c0fbcf, 0xe9b5dba5, 0x3956c25b, 0x59f111f1, 0x923f82a4, 0xab1c5ed5] ++
  [0xd807aa98, 0x12835b01, 0x243185be, 0x550c7dc3, 0x72be5d74, 0x80deb1fe, 0x9bdc06a7, 0xc19bf174] ++
  [0xe49b69c1, 0xefbe4786, 0x0fc19dc6, 0x240ca1cc, 0x2de92c6f, 0x4a7484aa, 0x5cb0a9dc, 0x76f988da] ++
  [0x983e5152, 0xa831c66d, 0xb00327c8, 0xbf597fc7, 0xc6e00bf3, 0xd5a79147, 0x06ca6351, 0x14292967] ++
  [0x27b70a85, 0x2e1b2138, 0x4d2c6dfc, 0x53380d13, 0x650a7354, 0x766a0abb, 0x81c2c92e, 0x92722c85] ++
  [0xa2bfe8a1, 0xa81a664b, 0xc24b8b70, 0xc76c51a3, 0xd192e819, 0xd6990624, 0xf40e3585, 0x106aa070] ++
  [0x19a4c116, 0x1e376c08, 0x2748774c, 0x34b0bcb5, 0x391c0cb3, 0x4ed8aa4a, 0x5b9cca4f, 0x682e6ff3] ++
  [0x748f82ee, 0x78a5636f, 0x84c87814, 0x8cc70208, 0x90befffa, 0xa4506ceb, 0xbef9a3f7, 0xc67178f2]

/-- The round constants of SHA-384. -/
def sha384K : List Nat :=
  [0x428a2f98d728ae22, 0x7137449123ef65cd, 0xb5c0fbcfec4d3b2f, 0xe9b5dba58189dbbc, 0x3956c25bf348b538] ++
  [0x59f111f1b605d019, 0x923f82a4af194f9b, 0xab1c5ed5da6d8118, 0xd807aa98a3030242, 0x12835b0145706fbe] ++
  [0x243185be4ee4b28c, 0x550c7dc3d5ffb4e2, 0x72be5d74f27b896f, 0x80deb1fe3b1696b1, 0x9bdc06a725c71235] ++
  [0xc19bf174cf692694, 0xe49b69c19ef14ad2, 0xefbe4786384f25e3, 0x0fc19dc68b8cd5b5, 0x240ca1cc77ac9c65] ++
  [0x2de92c6f592b0275, 0x4a7484aa6ea6e483, 0x5cb0a9dcbd41fbd4, 0x76f988da831153b5, 0x983e5152ee66dfab] ++
  [0xa831c66d2db43210, 0xb00327c898fb213f, 0xbf597fc7beef0ee4, 0xc6e00bf33da88fc2, 0xd5a79147930aa725] ++
  [0x06ca6351e003826f, 0x142929670a0e6e70, 0x27b70a8546d22ffc, 0x2e1b21385c26c926, 0x4d2c6dfc5ac42aed] ++
  [0x53380d139d95b3df, 0x650a73548baf63de, 0x766a0abb3c77b2a8, 0x81c2c92e47edaee6, 0x92722c851482353b] ++
  [0xa2bfe8a14cf10364, 0xa81a664bbc423001, 0xc24b8b70d0f89791, 0xc76c51a30654be30, 0xd192e819d6ef5218] ++
  [0xd69906245565a910, 0xf40e35855771202a, 0x106aa07032bbd1b8, 0x19a4c116b8d2d0c8, 0x1e376c085141ab53] ++
  [0x2748774cdf8eeb99, 0x34b0bcb5e19b48a8, 0x391c0cb3c5c95a63, 0x4ed8aa4ae3418acb, 0x5b9cca4f7763e373] ++
  [0x682e6ff3d6b2b8a3, 0x748f82ee5defb2fc, 0x78a5636f43172f60, 0x84c87814a1f0ab72, 0x8cc702081a6439ec] ++
  [0x90befffa23631e28, 0xa4506cebde82bde9, 0xbef9a3f7b2c67915, 0xc67178f2e372532b, 0xca273eceea26619c] ++
  [0xd186b8c721c0c207, 0xeada7dd6cde0eb1e, 0xf57d4f7fee6ed178, 0x06f067aa72176fba, 0x0a637dc5a2c898a6] ++
  [0x113f9804bef90dae, 0x1b710b35131c471b, 0x28db77f523047d84, 0x32caab7b40c72493, 0x3c9ebe0a15c9bebc] ++
  [0x431d67c49c100d4c, 0x4cc5d4becb3e42b6, 0x597f299cfc657e2a, 0x5fcb6fab3ad6faec, 0x6c44198c4a475817]

/-- SHA-256 of a byte string, as a byte string. -/
def sha256 (l : List Nat) : List Nat :=
  ((shaHash { w := 32, s0 := (7, 18, 3), s1 := (17, 19, 10), e0 := (2, 13, 22), e1 := (6, 11, 25), k := sha256K }
    [0x6a09e667, 0xbb67ae85, 0x3c6ef372, 0xa54ff53a, 0x510e527f, 0x9b05688c, 0x1f83d9ab, 0x5be0cd19]
    l).map (beBytes 4)).flatten

/-- SHA-384 of a byte string, as a byte string. -/
def sha384 (l : List Nat) : List Nat :=
  (((shaHash { w := 64, s0 := (1, 8, 7), s1 := (19, 61, 6), e0 := (28, 34, 39), e1 := (14, 18, 41), k := sha384K }
    [0xcbbb9d5dc1059ed8, 0x629a292a367cd507, 0x9159015a3070dd17, 0x152fecd8f70e5939,
     0x67332667ffc00b31, 0x8eb44a8768581511, 0xdb0c2e0d64f98fa7, 0x47b5481dbefa4fa4]
    l).take 6).map (beBytes 8)).flatten

/-- HMAC-SHA-256 under a key of at most 64 bytes. -/
def hmac256 (key msg : List Nat) : List Nat :=
  let k := key ++ List.replicate (64 - key.length) 0
  sha256 (k.map (Nat.xor 0x5C) ++ sha256 (k.map (Nat.xor 0x36) ++ msg))

/-! ### ECDSA over P-384 -/

/-- The prime of P-384. -/
def p384 : Nat := 2 ^ 384 - 2 ^ 128 - 2 ^ 96 + 2 ^ 32 - 1
/-- The order of its base point. -/
def n384 : Nat :=
  0xffffffffffffffffffffffffffffffffffffffffffffffffc7634d81f4372ddf581a0db248b0a77aecec196accc52973
/-- The coefficient b. -/
def b384 : Nat :=
  0xb3312fa7e23ee7e4988e056be3f82d19181d9c6efe8141120314088f5013875ac656398d8a2ed19d2a85c8edd3ec2aef
/-- The base point. -/
def g384 : Nat × Nat :=
  (0xaa87ca22be8b05378eb1c71ef320ad746e1d3b628ba79b9859f741e082542a385502f25dbf55296c3a545e3872760ab7,
   0x3617de4a96262c6f5d9e98bf9292dc29f8f41dbd289a147ce9da3113b5f0b8c00a60b1ce1d7e819d7a431d7c90ea0e5f)

/-- x^e mod q, with n bits of e. -/
def powMod (q : Nat) : Nat → Nat → Nat → Nat
  | 0, _, _ => 1 % q
  | n + 1, x, e => (if e % 2 = 1 then x else 1) * powMod q n (x * x % q) (e / 2) % q

/-- The inverse modulo a prime of 384 bits. -/
def invMod (q x : Nat) : Nat := powMod q 384 x (q - 2)

/-- a - b modulo q, for b below q. -/
def subMod (q a b : Nat) : Nat := (a + q - b % q) % q

/-- Twice a point in Jacobian coordinates; z = 0 is the point at infinity. -/
def ecDouble (x : Nat × Nat × Nat) : Nat × Nat × Nat :=
  let p := p384
  let z2 := x.2.2 * x.2.2 % p
  let y2 := x.2.1 * x.2.1 % p
  let s := 4 * x.1 * y2 % p
  let m := 3 * (subMod p x.1 z2) * (x.1 + z2) % p
  let x3 := subMod p (m * m) (2 * s)
  (x3, subMod p (m * subMod p s x3) (8 * y2 * y2), 2 * x.2.1 * x.2.2 % p)

/-- The sum of two points in Jacobian coordinates. -/
def ecAdd (a b : Nat × Nat × Nat) : Nat × Nat × Nat :=
  let p := p384
  if a.2.2 = 0 then b
  else if b.2.2 = 0 then a
  else
    let za := a.2.2 * a.2.2 % p
    let zb := b.2.2 * b.2.2 % p
    let u1 := a.1 * zb % p
    let u2 := b.1 * za % p
    let s1 := a.2.1 * zb * b.2.2 % p
    let s2 := b.2.1 * za * a.2.2 % p
    if u1 = u2 then if s1 = s2 then ecDouble a else (1, 1, 0)
    else
      let h := subMod p u2 u1
      let r := subMod p s2 s1
      let h2 := h * h % p
      let h3 := h * h2 % p
      let v := u1 * h2 % p
      let x3 := subMod p (r * r) (h3 + 2 * v)
      (x3, subMod p (r * subMod p v x3) (s1 * h3), h * a.2.2 * b.2.2 % p)

/-- k times a point, with n bits of k. -/
def ecMul : Nat → Nat → Nat × Nat × Nat → Nat × Nat × Nat
  | 0, _, _ => (1, 1, 0)
  | n + 1, k, x => let r := ecMul n (k / 2) (ecDouble x)
    if k % 2 = 1 then ecAdd x r else r

/-- A public key is a point of the curve. -/
def ecOn (x y : Nat) : Bool :=
  decide (x < p384) && decide (y < p384) && y * y % p384 == (x * x * x + (p384 - 3) * x + b384) % p384

/-- ECDSA P-384 verification of a hash (48 bytes) under a public key. -/
def ecdsaOk (hash : List Nat) (x y r s : Nat) : Bool :=
  if r = 0 ∨ n384 ≤ r ∨ s = 0 ∨ n384 ≤ s ∨ ecOn x y = false then false
  else
    let w := invMod n384 s
    let t := ecAdd (ecMul 384 (beNum hash * w % n384) (g384.1, g384.2, 1)) (ecMul 384 (r * w % n384) (x, y, 1))
    if t.2.2 = 0 then false
    else
      let zi := invMod p384 t.2.2
      t.1 * (zi * zi) % p384 % n384 == r

/-! ### CRC-32 -/

/-- One bit of the reflected CRC-32. -/
def crc32Bit (c : Nat) : Nat := if c % 2 = 1 then Nat.xor (c / 2) 0xEDB88320 else c / 2

/-- The CRC-32 of IEEE 802.3 of a byte string (polynomial 0x04C1_1DB7, reflected, initial value and final XOR 0xFFFF_FFFF). -/
def crc32 (l : List Nat) : Nat :=
  Nat.xor 0xFFFFFFFF (l.foldl (fun c b => crc32Bit (crc32Bit (crc32Bit (crc32Bit (crc32Bit (crc32Bit (crc32Bit (crc32Bit
    (Nat.xor c b))))))))) 0xFFFFFFFF)

end Sys2Proof.Machine
end

