-- ==== Sys2Proof/Machine/Island.lean ====
section
/-! DEFINITION. The safety island (R463 to R499): its inputs, drive channels and safety functions, requests, status packets,
parameter sets, diagnostics. Nothing outside changes it (R466): the functions on Island take no other state. -/

namespace Sys2Proof.Machine

/-! ### The active parameter set (R488 to R490) -/

/-- A word of the active set; 0 without one. -/
def Island.w (i : Island) (k : Nat) : Nat := (i.pset.getD []).getD k 0

/-- An input entry of a set (R489). -/
def Island.inE (i : Island) (n : Nat) : Nat := i.w (3 + n)
/-- MODE, ACTION and CHMASK of an input. -/
def Island.inMode (i : Island) (n : Nat) : Nat := bitsOf (i.inE n) 0 2
def Island.inAct (i : Island) (n : Nat) : Nat := bitsOf (i.inE n) 25 3
def Island.inNames (i : Island) (n d : Nat) : Bool := bitsOf (i.inE n) (29 + d) 1 == 1
/-- FILT in samples of 10 µs. -/
def Island.inFilt (i : Island) (n : Nat) : Nat := if bitsOf (i.inE n) 2 5 = 0 then 10 else 100 * bitsOf (i.inE n) 2 5

/-- A word of a channel entry (R490), and a flag of its word 0 by bit number. -/
def Island.chE (i : Island) (d j : Nat) : Nat := i.w (35 + 6 * d + j)
def Island.chFlag (i : Island) (d k : Nat) : Bool := bitsOf (i.chE d 0) k 1 == 1
/-- TRAMP in cycles. -/
def Island.tramp (i : Island) (d : Nat) : Nat := 10 * bitsOf (i.chE d 0) 24 16
def Island.fbMode (i : Island) (d : Nat) : Nat := bitsOf (i.chE d 0) 16 2

/-- The gate group of a DAC, a motor port and a GPIO (R474, R488). -/
def Island.dacGroup (i : Island) (n : Nat) : Nat := ((List.range 16).find? (fun d => bitsOf (i.chE d 4) n 1 == 1)).getD 16
def Island.motGroup (i : Island) (n : Nat) : Nat := ((List.range 16).find? (fun d => bitsOf (i.chE d 5) n 1 == 1)).getD 16
def Island.gpioGroup (i : Island) (n : Nat) : Nat := bitsOf (i.w (138 + n / 12)) (5 * (n % 12)) 5

/-- The channel that a brake pair belongs to. -/
def Island.brkCh (i : Island) (k : Nat) : Option Nat := (List.range 16).find? (fun d => bitsOf (i.chE d 0) 0 4 == k)

/-! ### Small accesses -/

def Island.ch (i : Island) (d : Nat) : SafeCh := i.chs.getD d SafeCh.zero
def Island.putCh (i : Island) (d : Nat) (c : SafeCh) : Island := { i with chs := i.chs.set d c }
def Island.inp (i : Island) (n : Nat) : SafeIn := i.ins.getD n SafeIn.zero
def Island.gate (i : Island) (g : Nat) : Bool := bitsOf i.gates g 1 == 1
def Island.closeGate (i : Island) (g : Nat) : Island := if i.gate g then { i with gates := i.gates - 2 ^ g } else i
def Island.openGate (i : Island) (g : Nat) : Island := if i.gate g then i else { i with gates := i.gates + 2 ^ g }

/-- In NOSET or RUN, with VSAFE present. -/
def Island.works (i : Island) : Bool := i.on && (i.st == 1 || i.st == 2)

/-- R465, R473: the level of SAFE_ALIVE: at 1 kHz it changes every five cycles of 100 µs in NOSET and RUN; otherwise it is static low (log 210). -/
def Island.safeAlive (i : Island) : Bool := i.works && i.t / 5 % 2 == 1

/-- A packet header (R483). -/
def safeHeader (code idx npay arg : Nat) : Nat := code % 256 + idx % 256 * 2 ^ 8 + npay * 2 ^ 16 + arg % 2 ^ 40 * 2 ^ 24

/-- R487, R501: an EVENT packet. -/
def Island.evt (i : Island) (idx cause : Nat) : Island := { i with outq := i.outq ++ [[safeHeader 3 idx 0 cause]] }

/-- Inputs that demand (R468): by their levels or in FAULT. -/
def Island.demands (i : Island) (n : Nat) : Bool := i.inMode n != 0 && ((i.inp n).demand || (i.inp n).fault)

/-- An action other than SLS select and RESET (R474, log 111). -/
def stopAct (a : Nat) : Bool := a != 5 && a != 6

/-- R474, R485: an input demands a stop of a channel or of the general group. -/
def Island.stopDemand (i : Island) (d : Nat) : Bool :=
  (List.range 32).any (fun n => i.demands n && stopAct (i.inAct n) && i.inNames n d)

/-- R480: an input that names the channel, other than its RESET inputs, demands. -/
def Island.anyDemand (i : Island) (d : Nat) : Bool :=
  (List.range 32).any (fun n => i.demands n && i.inAct n != 6 && i.inNames n d)

/-- The channel has a RESET input (R480). -/
def Island.hasReset (i : Island) (d : Nat) : Bool :=
  (List.range 32).any (fun n => i.inMode n != 0 && i.inAct n == 6 && i.inNames n d)

/-- Speeds of the two counters of a channel: the change of their samples over the last ten cycles, 1 ms (R464, R476). -/
def Island.speed (i : Island) (d : Nat) : Int × Int :=
  let c := i.ch d
  let x := c.hist.headD (c.c0, c.c1)
  let h := c.hist.getD 10 (c.hist.getLastD x)
  (x.1 - h.1, x.2 - h.2)

/-- XDEN (R490). -/
def Island.xden (i : Island) (d : Nat) : Nat := bitsOf (i.chE d 3) 16 16

/-- XDEN times the left side of R476. -/
def Island.xdiff (i : Island) (d : Nat) : Nat :=
  let c := i.ch d
  ((c.c0 - c.r0) * (i.xden d : Int) - (c.c1 - c.r1) * (bitsOf (i.chE d 3) 0 16 : Int)).natAbs

/-- R479: the channel is referenced; without REFIDX it never is. -/
def Island.refd (i : Island) (d : Nat) : Bool := (i.ch d).ref && i.chFlag d 21

/-- FUNC.UNREF (R479). -/
def Island.unref (i : Island) (d : Nat) : Bool := i.chFlag d 22 && !i.refd d

/-- SLS limit k of a channel in counts per ms (R490); limit 4, none, lies above every other. -/
def Island.slsVal (i : Island) (d k : Nat) : Nat := if k < 4 then bitsOf (i.chE d 1) (16 * k) 16 else 65536

/-- The SLS limit in force (R477, R479): the lowest of those selected by inputs, by requests and by UNREF. -/
def Island.slsLimit (i : Island) (d : Nat) : Nat :=
  let ins := (List.range 32).filter (fun n => i.demands n && i.inAct n == 5 && i.inNames n d)
  let ls := ins.map (fun n => bitsOf (i.inE n) 46 2) ++ (if i.unref d then [0] else [])
  ls.foldl (fun l k => if i.slsVal d k < i.slsVal d l then k else l) (i.ch d).sls

/-! ### Safety functions (R477, R478) -/

/-- SBC: a brake pair is applied. -/
def Island.brkApply (i : Island) (k : Nat) : Island :=
  if (i.brk.getD k (false, 0)).1 then { i with brk := i.brk.set k (false, i.t) } else i

/-- STO of a channel is asserted with a CAUSE: its gate closes, its brake is applied, every running function ends. -/
def Island.assertSto (i : Island) (d cause : Nat) : Island :=
  let c := i.ch d
  if c.sto then i
  else
    let i := i.putCh d { c with sto := true, since := i.t, ss1 := none, ss2 := none, sos := none, sosReq := false, sosIn := false,
                                testdue := false, cause := cause }
    ((i.closeGate d).brkApply (bitsOf (i.chE d 0) 0 4)).evt d cause

/-- The record of an SS1 or SS2 that starts now. -/
def Island.stopRun (i : Island) (d : Nat) (timed hold : Bool) : StopRun :=
  { entry := i.t, v0 := (i.speed d).1.natAbs, timed := timed || !i.chFlag d 19, hold := hold }

/-- SS1 is selected. One that runs keeps its entry (R478). -/
def Island.startSs1 (i : Island) (d cause : Nat) (hold : Bool) : Island :=
  let c := i.ch d
  if c.sto || c.ss1.isSome then i
  else (i.putCh d { c with ss1 := some (i.stopRun d hold hold), cause := cause }).evt d cause

/-- SS2 is selected. One that runs keeps its entry (R478). -/
def Island.startSs2 (i : Island) (d cause : Nat) : Island :=
  let c := i.ch d
  if c.sto || c.ss2.isSome then i
  else (i.putCh d { c with ss2 := some (i.stopRun d false false), cause := cause }).evt d cause

/-- SOS is entered, by a request or SS2 (req) or by an input. -/
def Island.startSos (i : Island) (d cause : Nat) (req : Bool) : Island :=
  let c := i.ch d
  if c.sto then i
  else
    let fresh := c.sos.isNone
    let c := { c with sos := some (c.sos.getD c.c0), sosReq := c.sosReq || req, sosIn := c.sosIn || !req }
    if fresh ∧ cause ≠ 0 then (i.putCh d { c with cause := cause }).evt d cause else i.putCh d c

/-- R480: RSTPEND is set. -/
def Island.setPend (i : Island) (d : Nat) : Island := i.putCh d { i.ch d with rstpend := true }

/-- R467, R478: the HOLD action of every channel; every gate closes. -/
def Island.holdActs (i : Island) : Island :=
  let i := { i with gates := 0 }
  (List.range 16).foldl (fun i d =>
    if i.chFlag d 20 then i.startSs1 d 8 true
    else if (i.ch d).sto then i
    else let i := i.assertSto d 8
      if i.hasReset d then i.setPend d else i) i

/-- HOLD is set or stays by what is observed (R467). -/
def Island.setHold (i : Island) : Island :=
  if !(i.alive || i.rst || i.hb) || i.hold then i else { i.holdActs with hold := true }

/-- R467: an alive loss, or a heartbeat loss, holds now. -/
def Island.aliveDue (i : Island) : Bool := i.pset.isSome && decide (bitsOf (i.w 2) 16 16 ≤ 100 * (i.t - i.aliveAt))
def Island.hbDue (i : Island) : Bool := bitsOf (i.w 2) 0 16 != 0 && decide (10 * bitsOf (i.w 2) 0 16 ≤ i.t - i.hbAt)

/-! ### The effects of a diagnostic failure and of a reset (R465, R495, R496) -/

/-- An island reset by the watchdog (R16, R465, R496): everything but island NV, the time and the count of resets starts anew. -/
def Island.wdReset (i : Island) : Island :=
  let at_ := if i.st = 3 then i.t :: i.resetAt else i.resetAt
  { Island.zero with
    t := i.t, resets := satAdd 16 i.resets 1, lastRst := if i.st = 3 then 2 else 1, resetAt := at_.take 3,
    locked := i.locked || (decide (3 ≤ at_.length) && decide (i.t - at_.getD 2 0 ≤ 6000000)),
    aliveAt := i.t, hbAt := i.t, nvKey := i.nvKey, nvHash := i.nvHash, nvSetNo := i.nvSetNo }

/-! ### Words that the island shows (R499) -/

def Island.stateWord (i : Island) : Nat :=
  i.st + b2n i.load.isSome * 2 ^ 3 + i.key * 2 ^ 4 + b2n i.keyFault * 2 ^ 6 + b2n i.hold * 2 ^ 7 + b2n i.alive * 2 ^ 8 +
  b2n i.rst * 2 ^ 9 + b2n i.hb * 2 ^ 10 + i.fault * 2 ^ 16 + i.resets * 2 ^ 24 + i.lastRst * 2 ^ 40

def Island.stoMask (i : Island) : Nat := ((List.range 16).map (fun d => if (i.ch d).sto then 0 else 2 ^ d)).sum
def Island.brkMask (i : Island) : Nat := ((List.range 8).map (fun k => if (i.brk.getD k (false, 0)).1 then 2 ^ k else 0)).sum
def Island.outWord (i : Island) : Nat := i.stoMask + i.brkMask * 2 ^ 16 + i.gates * 2 ^ 24
def Island.outErrWord (i : Island) : Nat := i.stoErr + i.brkErr * 2 ^ 16
def Island.okMask (i : Island) : Nat := ((List.range 32).map (fun n => if (i.inp n).ok then 2 ^ n else 0)).sum
def Island.faultMask (i : Island) : Nat := ((List.range 32).map (fun n => if (i.inp n).fault then 2 ^ n else 0)).sum
def Island.inWord (i : Island) : Nat := i.okMask + i.faultMask * 2 ^ 32

def Island.funcWord (i : Island) (d : Nat) : Nat :=
  let c := i.ch d
  b2n c.sto + b2n c.ss1.isSome * 2 + b2n c.ss2.isSome * 4 + b2n c.sos.isSome * 8 + i.slsLimit d * 2 ^ 4 +
  b2n c.sdi.isSome * 2 ^ 7 + b2n ((c.sdi.map Prod.fst).getD false) * 2 ^ 8 + b2n (i.unref d) * 2 ^ 9 + b2n c.rstpend * 2 ^ 10 +
  b2n c.testdue * 2 ^ 11 + b2n c.pairfault * 2 ^ 12 + c.cause * 2 ^ 16

/-- What a change of calls for a STATUS packet (R487): STATE, HOLD and the FUNC bits. -/
def Island.shown (i : Island) : List Nat := i.st :: b2n i.hold :: (List.range 16).map i.funcWord

/-- R487: a STATUS packet. -/
def Island.status (i : Island) : Island :=
  { i with outq := i.outq ++ [safeHeader 2 0 20 (i.rseq.getD 0) :: i.stateWord :: i.outWord :: i.outErrWord :: i.inWord ::
             (List.range 16).map i.funcWord],
           pub := i.shown, statAt := i.t }

/-- FAULT (R465, R487, R496): every STO asserted, every brake applied, every gate closed; the change of STATE gives a STATUS packet. -/
def Island.enterFault (i : Island) (code : Nat) : Island :=
  let off := fun (c : SafeCh) => if c.sto then c
    else { c with sto := true, since := i.t, ss1 := none, ss2 := none, sos := none, sosReq := false, sosIn := false, testdue := false }
  let brk := i.brk.map (fun (b : Bool × Nat) => if b.1 then (false, i.t) else b)
  { i with st := 3, fault := code, opn := false, gates := 0, tp := none, chs := i.chs.map off, brk := brk }.status

/-! ### Inputs (R468, R469, R472) -/

/-- How long a level has held: one more sample, or anew. Longer times than a second are all alike. -/
def heldFor (same : Bool) (n : Nat) : Nat := if same then Nat.min (n + 1) 200000 else 1

/-- The test pulse k + 1 that a channel of an input is assigned to, 0 for none: j = 0 for A, 1 for B (R489). -/
def Island.tpOf (i : Island) (n j : Nat) : Nat := if i.inMode n = 0 then 0 else bitsOf (i.inE n) (17 + 4 * j) 4

/-- R469: a low of a channel that was high is that of the running test pulse. -/
def Island.pulsed (i : Island) (n j : Nat) : Bool :=
  match i.tp with
  | some p => i.tpOf n j == p.k + 1 && bitsOf p.high (2 * n + j) 1 == 0
  | none => false

/-- R468: one sample of one input. A test pulse is no demand: FILT and DISC see the level from before it (R469, log 253). -/
def Island.sampleIn (i : Island) (n : Nat) (a b : Bool) : Island :=
  let x := i.inp n
  let a := a || (x.a && i.pulsed n 0)
  let b := b || (x.b && i.pulsed n 1)
  let mode := i.inMode n
  let okB := mode == 1
  let da := heldFor (a == x.a) x.da
  let db := heldFor (b == x.b) x.db
  let dx := heldFor ((a == b) == (x.a == x.b)) x.dx
  let f := i.inFilt n
  let on := mode == 1 || mode == 2
  let ok := on && a && f ≤ da && b == okB && f ≤ db
  let left := on && ((!a && f ≤ da) || (b != okB && f ≤ db))
  let disc := on && ((a == b) != okB) && decide (100 * bitsOf (i.inE n) 7 10 ≤ dx)
  let demand := left || (x.demand && !ok)
  let fault := on && !(!a && b != okB) && (x.fault || disc)
  let i := { i with ins := i.ins.set n { x with a := a, b := b, da := da, db := db, dx := dx, ok := ok, demand := demand, fault := fault } }
  let i := if demand && !x.demand then i.evt (0x20 + n) 12 else i
  if fault && !x.fault then i.evt (0x20 + n) 13 else i

/-- R488: TPW in samples of 10 µs, and TPPER in cycles. -/
def Island.tpw (i : Island) : Nat := bitsOf (i.w 2) 48 8
def Island.tpPer (i : Island) : Nat := 100 * bitsOf (i.w 2) 56 8

/-- R469: the level of test-pulse output k. -/
def Island.tpLevel (i : Island) (k : Nat) : Bool := i.works && !(i.tp.any (fun p => p.k == k && decide (p.n < i.tpw)))

/-- The channels that read a level, as a mask: bit 2n for A of input n, 2n + 1 for B. -/
def chanMask (f : Nat → Nat → Bool) : Nat := ((List.range 64).map (fun c => if f (c / 2) (c % 2) then 2 ^ c else 0)).sum

/-- R468, R469: an input comes into FAULT. -/
def Island.faultIn (i : Island) (n : Nat) : Island :=
  if (i.inp n).fault then i else { i with ins := i.ins.set n { i.inp n with fault := true } }.evt (0x20 + n) 13

/-- R469: output k goes low when its turn has come; the channels that read low at once have done so in time. -/
def Island.testPulse (i : Island) (k : Nat) (lv : Nat → Nat → Bool) : Island :=
  if i.works && i.st == 2 && i.tp.isNone && k == i.tpNext && decide (i.tpPer ≤ i.t - i.tpAt) then
    { i with tp := some { k := k, n := 0, low := chanMask (fun n j => !lv n j), high := 0 }, tpNext := (k + 1) % 8, tpAt := i.t }
  else i

/-- R469: the next unfiltered sample of the running test pulse. A channel assigned to it that has not read low 50 µs before its end, or not
high again 200 µs after it, puts its input in FAULT. -/
def Island.pulseSample (i : Island) (lv : Nat → Nat → Bool) : Island :=
  match i.tp with
  | none => i
  | some p =>
    let n := p.n + 1
    let low := if n + 5 ≤ i.tpw then Nat.lor p.low (chanMask (fun x j => !lv x j)) else p.low
    let high := if i.tpw ≤ n then Nat.lor p.high (chanMask lv) else p.high
    let fails := fun (x j : Nat) => i.tpOf x j == p.k + 1 &&
      ((n + 5 == i.tpw && bitsOf low (2 * x + j) 1 == 0) || (decide (i.tpw + 20 ≤ n) && bitsOf high (2 * x + j) 1 == 0))
    let i := (List.range 32).foldl (fun i x => if fails x 0 || fails x 1 then i.faultIn x else i) i
    { i with tp := if i.tpw + 20 ≤ n then none else some { p with n := n, low := low, high := high } }

/-- R472, R493: the key switch is sampled: 1 for A, 2 for B. -/
def Island.sampleKey (i : Island) (k : Nat) : Island :=
  let valid := k == 1 || k == 2
  let bad := if valid then 0 else i.keyBad + 1
  let go := fun (s : Nat) => if k = 2 then 1 else if k = 1 then (if 1 ≤ s then 2 else 0) else (if s = 2 then 0 else s)
  let stay := fun (s : Nat) => if s = 3 ∨ (s = 2 ∧ k ≠ 1) then 3 else go s
  { i with key := k, keyBad := bad, keyFault := if valid then false else i.keyFault || decide (1000 < bad),
           load := i.load.map (fun l => { l with key := go l.key }),
           verify := i.verify.map (fun v => ({ v.1 with key := stay v.1.key }, v.2)) }

/-! ### The safety cycle (R464) -/

/-- R477, R480: the actions of the demanding inputs, and the RESET edges. -/
def Island.actInputs (i : Island) : Island :=
  let i := (List.range 32).foldl (fun i n =>
    let act := i.inAct n
    if !(i.demands n && stopAct act) then i
    else
      let i := (List.range 16).foldl (fun i d =>
        if !i.inNames n d then i
        else
          let i := match act with
            | 1 => i.assertSto d 2
            | 2 => i.startSs1 d 2 false
            | 3 => if (i.inp n).acted then i else i.startSs2 d 2
            | 4 => i.startSos d 2 false
            | _ => i
          if act ≠ 0 ∧ bitsOf (i.inE n) 28 1 = 1 then i.setPend d else i) i
      if i.inNames n 16 then i.closeGate 16 else i) i
  -- An SOS that only inputs selected ends with their demand.
  let i := (List.range 16).foldl (fun i d =>
    let c := i.ch d
    if c.sosIn && !(List.range 32).any (fun n => i.demands n && i.inAct n == 4 && i.inNames n d) then
      i.putCh d { c with sosIn := false, sos := if c.sosReq then c.sos else none }
    else i) i
  let i := (List.range 32).foldl (fun i n =>
    if i.inMode n != 0 && i.inAct n == 6 && (i.inp n).ok && !(i.inp n).wasOk then
      (List.range 16).foldl (fun i d =>
        if i.inNames n d && !i.anyDemand d then i.putCh d { i.ch d with rstpend := false } else i) i
    else i) i
  { i with ins := i.ins.zipIdx.map (fun x => { x.1 with wasOk := x.1.ok, acted := i.demands x.2 }) }

/-- Steps 1 and 2 of R464: samples, demands, observations. -/
def Island.sample (i : Island) (resetN keyA keyB : Bool) (core io : Nat) : Island :=
  if !i.on then i
  else
    let i := { i with t := i.t + 1, core := core, io := io, dem := [] }
    if !i.works then i
    else if core < 810 ∨ 990 < core ∨ io < 2970 ∨ 3630 < io then i.enterFault 6
    else
      let i := i.sampleKey (b2n keyA + 2 * b2n keyB)
      let i := { i with chs := i.chs.map (fun (c : SafeCh) => { c with hist := ((c.c0, c.c1) :: c.hist).take 11 }) }
      let i := { i with rst := !resetN, alive := i.aliveDue, hb := i.hbDue }
      let any := i.alive || i.rst || i.hb
      let i := if any then i.setHold else { i with hold := i.hold && i.obs }
      let i := { i with obs := any }
      let i := if i.st = 2 then i.actInputs else i
      { i with opn := true, budget := 8 }

/-- R477: an SS1 of a channel has come to its end. -/
def Island.endSs1 (i : Island) (d : Nat) (r : StopRun) : Island :=
  let i := i.assertSto d 11
  if r.hold && i.hasReset d then i.setPend d else i

/-- R477: an SS2 of a channel has come to its end: SOS. -/
def Island.endSs2 (i : Island) (d : Nat) : Island := ({ i with chs := i.chs.set d { i.ch d with ss2 := none } }).startSos d 0 true

/-- R477: every used counter of a channel stands still. -/
def Island.still (i : Island) (d : Nat) : Bool :=
  let v := bitsOf (i.chE d 0) 56 8
  (i.fbMode d == 0 || decide ((i.speed d).1.natAbs ≤ v)) && (!i.chFlag d 18 || decide ((i.speed d).2.natAbs ≤ v))

/-- R477: the envelope of SS1-r is exceeded. -/
def Island.overRamp (i : Island) (d : Nat) (r : StopRun) : Bool :=
  let t := i.t - r.entry
  !r.timed && decide (r.v0 * (i.tramp d - t) + bitsOf (i.chE d 0) 40 16 * i.tramp d < (i.speed d).1.natAbs * i.tramp d)

/-- Step 4 of R464 for a channel: the limits of every active function. -/
def Island.limits (i : Island) (d : Nat) : Island :=
  let c := i.ch d
  let c := { c with sdi := c.sdi.map (fun x => (x.1, if x.1 then min x.2 c.c0 else max x.2 c.c0)) }
  let i := i.putCh d c
  let over_ := fun (r : StopRun) => decide (i.tramp d ≤ i.t - r.entry) || (!r.timed && i.still d)
  let sp := (i.speed d).1.natAbs
  let lim := i.slsLimit d
  let e := i.chE d 3
  let out := fun (x : Bool × Int) => decide ((bitsOf e 56 8 : Int) < if x.1 then c.c0 - x.2 else x.2 - c.c0)
  if c.sto then i
  else if (c.ss1.map (fun r => !over_ r && i.overRamp d r)).getD false then i.assertSto d 7
  else if (c.ss2.map (fun r => !over_ r && i.overRamp d r)).getD false then i.assertSto d 7
  else if (c.sos.map (fun p => decide (bitsOf e 32 12 < (c.c0 - p).natAbs))).getD false then i.assertSto d 6
  else if lim < 4 ∧ bitsOf (i.chE d 1) (16 * lim) 16 < sp then i.assertSto d 3
  else if i.chFlag d 22 ∧ i.refd d = true ∧
      ¬(sgn 32 (bitsOf (i.chE d 2) 0 32) ≤ c.c0 ∧ c.c0 ≤ sgn 32 (bitsOf (i.chE d 2) 32 32)) then i.assertSto d 4
  else if (c.sdi.map out).getD false then i.assertSto d 5
  else if i.chFlag d 18 ∧ bitsOf e 44 12 * i.xden d < i.xdiff d then i.assertSto d 9
  else match c.ss1.filter over_ with
    | some r => i.endSs1 d r
    | none => if (c.ss2.filter over_).isSome then i.endSs2 d else i

/-- R471: the readbacks of the STO pairs. -/
def Island.readSto (i : Island) (rb : Nat) : Island :=
  (List.range 16).foldl (fun i d =>
    let c := i.ch d
    if i.t - c.since ≤ 20 ∨ bitsOf rb (2 * d) 2 = (if c.sto then 0 else 3) then i
    else ({ i with stoErr := i.stoErr ||| 2 ^ d }.putCh d { c with pairfault := true }).assertSto d 10) i

/-- R471: the readbacks of the brake pairs. -/
def Island.readBrk (i : Island) (rb : Nat) : Island :=
  (List.range 8).foldl (fun i k =>
    let b := i.brk.getD k (false, 0)
    if i.t - b.2 ≤ 20 ∨ bitsOf rb (2 * k) 2 = (if b.1 then 3 else 0) then i
    else
      let i := { i with brkErr := i.brkErr ||| 2 ^ k }
      match i.brkCh k with
      | some d => (i.putCh d { i.ch d with pairfault := true }).assertSto d 10
      | none => i) i

/-! ### Parameter sets (R488 to R494) -/

/-- The bytes of words of a set. -/
def setBytes (ws : List Nat) (lo n : Nat) : List Nat := ((ws.drop lo).take n).flatMap (leBytes 8)

/-- R489, R491: an input entry with a reserved bit or an invalid value. -/
def inBad (e : Nat) : Bool :=
  bitsOf e 0 2 == 3 || decide (25 < bitsOf e 2 5) || decide (bitsOf e 7 10 < 10) || decide (1000 < bitsOf e 7 10) ||
  decide (8 < bitsOf e 17 4) || decide (8 < bitsOf e 21 4) || bitsOf e 25 3 == 7 || bitsOf e 48 16 != 0

/-- R491: some input of the set with one of these actions names the channel. -/
def setActs (ws : List Nat) (d : Nat) (acts : List Nat) : Bool :=
  (List.range 32).any (fun n =>
    let e := ws.getD (3 + n) 0
    bitsOf e 0 2 != 0 && acts.contains (bitsOf e 25 3) && bitsOf e (29 + d) 1 == 1)

/-- R490, R491: a channel entry that is not in order. -/
def chBad (ws : List Nat) (d : Nat) : Bool :=
  let e := fun (j : Nat) => ws.getD (35 + 6 * d + j) 0
  let f := fun (k : Nat) => bitsOf (e 0) k 1 == 1
  let fb := bitsOf (e 0) 16 2
  bitsOf (e 3) 16 16 == 0 || bitsOf (e 5) 16 48 != 0 ||
  (fb == 3 && (decide (31 < bitsOf (e 0) 4 6) || decide (31 < bitsOf (e 0) 10 6))) ||
  (fb == 0 && (f 18 || f 19 || f 21 || f 22 || setActs ws d [3, 4, 5])) ||
  (bitsOf (e 0) 24 16 == 0 && (f 20 || setActs ws d [2, 3]))

/-- R491: two channels name one brake pair, DAC or motor port. -/
def chClash (ws : List Nat) (d d' : Nat) : Bool :=
  let e := fun (d j : Nat) => ws.getD (35 + 6 * d + j) 0
  (bitsOf (e d 0) 0 4 == bitsOf (e d' 0) 0 4 && decide (bitsOf (e d 0) 0 4 < 8)) || Nat.land (e d 4) (e d' 4) != 0 ||
  Nat.land (e d 5) (e d' 5) != 0

/-- R491: a malformed set. -/
def setBad (ws : List Nat) : Bool :=
  let w := fun (k : Nat) => ws.getD k 0
  bitsOf (w 0) 0 16 != 1 || bitsOf (w 0) 16 16 != 206 ||
  decide (bitsOf (w 2) 16 16 < 200) || decide (20000 < bitsOf (w 2) 16 16) ||
  decide (bitsOf (w 2) 32 16 < 1) || decide (1000 < bitsOf (w 2) 32 16) ||
  decide (bitsOf (w 2) 48 8 < 10) || decide (200 < bitsOf (w 2) 48 8) || decide (bitsOf (w 2) 56 8 < 1) || decide (100 < bitsOf (w 2) 56 8) ||
  (List.range 32).any (fun n => inBad (w (3 + n))) ||
  (List.range 16).any (fun d => chBad ws d || (List.range d).any (fun d' => chClash ws d d')) ||
  (List.range 38).any (fun k => bitsOf (w (138 + k)) 60 4 != 0 ||
    (List.range 12).any (fun j => decide (16 < bitsOf (w (138 + k)) (5 * j) 5)))

/-- R492: the result of the checks of a committed set, in their order; 0 when all pass. -/
def Island.judge (i : Island) (l : SetLoad) : Nat :=
  let ws := (List.range 206).map (fun k => nmGet l.words k 0)
  let signed := setBytes ws 0 194
  let hash := sha384 signed
  let key := setBytes ws 182 12
  let num := fun (lo : Nat) => beNum (setBytes ws lo 6)
  let setno := bitsOf (ws.getD 0 0) 32 32
  if l.words.length ≠ 206 ∨ setBad ws = true then 5
  else if i.nvKey ≠ [] ∧ sha384 key ≠ i.nvKey then 6
  else if !ecdsaOk hash (num 182) (num 188) (num 194) (num 200) then 6
  else if setno < i.nvSetNo ∨ (setno = i.nvSetNo ∧ i.nvHash ≠ [] ∧ hash ≠ i.nvHash) then 7
  else if hash ≠ i.nvHash ∧ ¬(l.key = 2 ∧ i.keyFault = false) then 8
  else if i.stoMask ≠ 0 ∨ i.brkMask ≠ 0 then 1
  else 0

/-- R492: a set is accepted. -/
def Island.accept (i : Island) (l : SetLoad) : Island :=
  let ws := (List.range 206).map (fun k => nmGet l.words k 0)
  let next := setBytes ws 176 6
  let key := if i.nvKey = [] then sha384 (setBytes ws 182 12) else i.nvKey
  { i with pset := some ws, st := 2, gates := 0, stoErr := 0, brkErr := 0, tp := none, tpAt := i.t,
           chs := i.chs.map (fun c => { c with pairfault := false }),
           nvHash := sha384 (setBytes ws 0 194), nvSetNo := bitsOf (ws.getD 0 0) 32 32,
           nvKey := if next.all (· == 0) then key else next }

/-! ### Requests (R482 to R487) -/

/-- The request codes (R484). -/
def reqCodes : List Nat :=
  [0x01, 0x02, 0x10, 0x11, 0x12, 0x13, 0x14, 0x15, 0x16, 0x17, 0x40, 0x41, 0x42, 0x43, 0x44, 0x45, 0x80, 0x81, 0x82, 0x83]

/-- How many indices a code names (R484); 0 for none. -/
def reqIdx (code : Nat) : Nat :=
  if code = 0x15 ∨ code = 0x43 then 8 else if code = 0x16 ∨ code = 0x44 then 17
  else if 0x10 ≤ code ∧ code ≤ 0x45 then 16 else 0

/-- The ARG bits that a code defines. -/
def reqArg (code : Nat) : Nat :=
  if code = 0x14 then 2 else if code = 0x17 then 1 else if code = 0x42 then 3 else if code = 0x81 then 16 else 0

/-- R484: the form of an accepted request is wrong. -/
def reqFormBad (code idx npay arg : Nat) : Bool :=
  (if reqIdx code = 0 then idx != 0 else idx != 0xFF && decide (reqIdx code ≤ idx)) || decide (2 ^ reqArg code ≤ arg) ||
  (if code = 0x81 then npay == 0 || decide (206 < arg + npay) else npay != 0) || (code == 0x42 && decide (4 < arg))

/-- R485: what every permission on a channel needs. -/
def Island.permits (i : Island) (d : Nat) : Bool :=
  i.st == 2 && !i.hold && !i.stopDemand d && (i.ch d).ss1.isNone && (i.ch d).ss2.isNone

/-- A demand or permission on one target: whether it is performed, and what it does. -/
def Island.perform (i : Island) (code k arg : Nat) : Bool × Island :=
  let c := i.ch k
  if i.st ≠ 2 then (false, i)
  else match code with
    | 0x10 => (true, i.assertSto k 1)
    | 0x11 => (true, i.startSs1 k 1 false)
    | 0x12 => (true, i.startSs2 k 1)
    | 0x13 => (true, i.startSos k 1 true)
    | 0x14 => if i.slsVal k arg ≤ i.slsVal k c.sls then (true, i.putCh k { c with sls := arg }) else (false, i)
    | 0x15 => (true, i.brkApply k)
    | 0x16 => (true, i.closeGate k)
    | 0x17 => (true, i.putCh k { c with sdi := some (arg == 1, c.c0) })
    | 0x40 =>
      if i.permits k && !c.rstpend && !c.pairfault then
        (true, if c.sto then i.putCh k { c with sto := false, since := i.t } else i)
      else (false, i)
    | 0x41 => if i.permits k && !c.sosIn then (true, i.putCh k { c with sos := none, sosReq := false }) else (false, i)
    | 0x42 =>
      if i.permits k && (arg != 4 || i.chFlag k 23) &&
          !(List.range 32).any (fun n => i.demands n && i.inAct n == 5 && i.inNames n k &&
            decide (i.slsVal k (bitsOf (i.inE n) 46 2) < i.slsVal k arg)) then
        (true, i.putCh k { c with sls := arg })
      else (false, i)
    | 0x43 =>
      match i.brkCh k with
      | some d =>
        if i.permits d && !(i.ch d).sto then
          (true, if (i.brk.getD k (false, 0)).1 then i else { i with brk := i.brk.set k (true, i.t) })
        else (false, i)
      | none => (false, i)
    | 0x44 =>
      if k = 16 then if !i.hold && !i.stopDemand 16 then (true, i.openGate 16) else (false, i)
      else if i.permits k && !c.sto then (true, i.openGate k) else (false, i)
    | 0x45 => if i.permits k then (true, i.putCh k { c with sdi := none }) else (false, i)
    | _ => (true, i)

/-- What a code acts on: 0 a channel, 1 a brake pair, 2 a group (R484). -/
def reqKind (code : Nat) : Nat := if code = 0x15 ∨ code = 0x43 then 1 else if code = 0x16 ∨ code = 0x44 then 2 else 0

/-- R464: a request of this cycle has demanded something of a permission's target, or of the channel that it belongs to (log 254). -/
def Island.demanded (i : Island) (code k : Nat) : Bool :=
  i.dem.contains (reqKind code, k) ||
  match reqKind code with
  | 1 => (i.brkCh k).any (fun d => i.dem.contains (0, d))
  | 2 => i.dem.contains (0, k)
  | _ => false

/-- R464, R484, R485: a request on one target; a permission that meets a demand of its cycle is refused. -/
def Island.performOn (i : Island) (code k arg : Nat) : Bool × Island :=
  if 0x40 ≤ code ∧ i.demanded code k = true then (false, i)
  else
    let r := i.perform code k arg
    (r.1, if code < 0x40 ∧ r.1 = true then { r.2 with dem := (reqKind code, k) :: r.2.dem } else r.2)

/-- R485: a request on all its targets; DONE only if every one is performed. -/
def Island.performAll (i : Island) (code idx arg : Nat) : Nat × Island :=
  let ks := if idx = 0xFF then List.range (reqIdx code) else [idx]
  let r := ks.foldl (fun (x : Bool × Island) k => let y := x.2.performOn code k arg; (x.1 && y.1, y.2)) (true, i)
  (if r.1 then 0 else 1, r.2)

/-- What an accepted request does, and its RESULT; none for a set that is being verified (R484, R485, R492). -/
def Island.act (i : Island) (code idx arg seq : Nat) (pay : List Nat) : Option Nat × Island :=
  match code with
  | 0x01 => (some (if i.st = 2 then 0 else 1), i)
  | 0x02 => if i.st = 2 then (some 0, i.status) else (some 1, i)
  | 0x80 => (some 0, { i with load := some { words := [], since := i.t, key := if i.key = 2 then 1 else 0 } })
  | 0x81 => match i.load with
    | none => (some 1, i)
    | some l =>
      let ws := (List.range pay.length).foldl (fun ws k => nmIns ws (arg + k) (pay.getD k 0)) l.words
      (some 0, { i with load := some { l with words := ws } })
  | 0x82 => match i.load with
    | none => (some 1, i)
    | some l => (none, { i with load := none, verify := i.verify ++ [(l, seq)] })
  | 0x83 => (some 0, { i with load := none })
  | _ => let r := i.performAll code idx arg; (some r.1, r.2)

/-- R487: an ACK packet; a request not answered DONE is counted. -/
def Island.ack (i : Island) (result seq code : Nat) : Island :=
  { i with outq := i.outq ++ [[safeHeader 1 result 0 (seq + code * 2 ^ 16)]],
           refused := if result = 0 then i.refused else satAdd 16 i.refused 1 }

/-- A request packet (R483 to R485, R487): layout, CRC, code, SEQ, form, and then its effect. One of EMPTYPKT words alone is ignored. -/
def Island.request (i : Island) (pkt : List Opnd) : Island :=
  let ws := (pkt.filter (fun o => o.typ != tyEmpty)).map (fun o => o.value.toNat)
  let h := ws.headD 0
  let c := ws.getLastD 0
  let code := bitsOf h 0 8
  let npay := bitsOf h 16 8
  let seq := bitsOf c 0 16
  let earlier := ws.take (ws.length - 1)
  if ws = [] then i
  else if ws.length < 2 ∨ ws.length ≠ npay + 2 ∨ 64 < npay ∨ bitsOf c 16 16 ≠ 0 then i.ack 5 seq code
  else if bitsOf c 32 32 ≠ crc32 (earlier.flatMap (leBytes 8) ++ leBytes 2 seq) then i.ack 3 seq code
  else if !reqCodes.contains code then i.ack 4 seq code
  else if (i.rseq.map (fun r => decide ((seq + 65536 - r) % 65536 = 0 ∨ 32767 < (seq + 65536 - r) % 65536))).getD false then
    i.ack 2 seq code
  else
    let i := { i with rseq := some seq, hbAt := i.t }
    if reqFormBad code (bitsOf h 8 8) npay (bitsOf h 24 40) then i.ack 5 seq code
    else
      let r := i.act code (bitsOf h 8 8) (bitsOf h 24 40) seq (earlier.drop 1)
      match r.1 with
      | some x => r.2.ack x seq code
      | none => r.2

/-! ### What the main domains see -/

/-- R399, R474, R475: the gate lines to the field die. -/
def State.syncGates (s : State) : State :=
  let i := s.isl
  let mask := fun (n : Nat) (g : Nat → Nat) => ((List.range n).map (fun k => if i.gate (g k) then 2 ^ k else 0)).sum
  let live := i.on && i.st == 2
  let dac := if live then mask 64 i.dacGroup else 0
  let mot := if live then mask 16 i.motGroup else 0
  let gpio := if live then mask 448 i.gpioGroup else 0
  if s.main.port.openDac = dac ∧ s.main.port.openMot = mot ∧ s.main.port.openGpio = gpio then s
  else { s with main := s.main.setGates dac mot gpio }

/-- Write a word of the SAFE block, field by field. -/
def Main.setWord (m : Main) (w : Nat) (fs : List Fld) : Main := fs.foldl (fun m f => m.set f (bitsOf w f.lo f.w)) m

/-- R464 step 6, R499: the island writes the SAFE registers. -/
def Main.safeRegs (m : Main) (i : Island) : Main :=
  let m := m.setWord i.stateWord [F.SAFE_STATE_STATE, F.SAFE_STATE_LOADING, F.SAFE_STATE_CONFIRM, F.SAFE_STATE_KEYFAULT,
    F.SAFE_STATE_HOLD, F.SAFE_STATE_ALIVELOST, F.SAFE_STATE_RSTHOLD, F.SAFE_STATE_HBLOST, F.SAFE_STATE_FAULTCODE,
    F.SAFE_STATE_ISLRESETS, F.SAFE_STATE_LASTRST]
  let m := m.set F.SAFE_PSET_CRC (if i.pset.isSome then crc32 (setBytes (i.pset.getD []) 0 194) else 0)
  let m := (m.set F.SAFE_PSET_SETNO (bitsOf (i.w 0) 32 32)).set F.SAFE_MACHID_ID (i.w 1)
  let m := m.setWord i.outWord [F.SAFE_OUT_STOREL, F.SAFE_OUT_BRKREL, F.SAFE_OUT_GATEOPEN]
  let m := m.setWord i.outErrWord [F.SAFE_OUTERR_STOERR, F.SAFE_OUTERR_BRKERR]
  let m := m.setWord i.inWord [F.SAFE_IN_OK, F.SAFE_IN_FAULT]
  let m := (m.set F.SAFE_SUPPLY_CORE i.core).set F.SAFE_SUPPLY_IO i.io
  let m := (m.set F.SAFE_LINK_RSEQ (i.rseq.getD 0)).set F.SAFE_LINK_SSEQ i.sseq
  let m := (m.set F.SAFE_LINK_REFUSED i.refused).set F.SAFE_LINK_SDROP i.sdrop
  (List.range 16).foldl (fun m d =>
    let m := m.setWord (i.funcWord d) [F.SAFE_CH_FUNC_STO d, F.SAFE_CH_FUNC_SS1 d, F.SAFE_CH_FUNC_SS2 d, F.SAFE_CH_FUNC_SOS d,
      F.SAFE_CH_FUNC_SLS d, F.SAFE_CH_FUNC_SDI d, F.SAFE_CH_FUNC_SDIDIR d, F.SAFE_CH_FUNC_UNREF d, F.SAFE_CH_FUNC_RSTPEND d,
      F.SAFE_CH_FUNC_TESTDUE d, F.SAFE_CH_FUNC_PAIRFAULT d, F.SAFE_CH_FUNC_CAUSE d]
    let sp := i.speed d
    let q := if i.chFlag d 18 then m.takeQuot (i.xdiff d) (i.xden d) else (0, m)
    ((q.2.set (F.SAFE_CH_POS_COUNT d) (uns 64 (i.ch d).c0)).set (F.SAFE_CH_SPEED_SPEED d) (uns 32 sp.1)).set (F.SAFE_CH_SPEED_XDIFF d)
      (Nat.min q.1.toNat (2 ^ 32 - 1))) m

/-- R28, R399, R401, R492: the island writes GPIO.GATEMAP. Without a set every bit is 1. An output that it makes gated while its gate is closed
is dropped. -/
def Main.gateMap (m : Main) (i : Island) : Main :=
  ((List.range 7).foldl (fun m k => m.set (F.GPIO_GATEMAP_GATED k) (if i.pset.isSome then i.w (131 + k) else 2 ^ 64 - 1)) m).gateDrops

/-- R483, R487: the island commits its packets, each with the next SEQ; lag is how far behind it sees the free slots, and eccs what each
write of the word store finds (R311, R322). -/
def State.flush (s : State) (lag : Nat) (eccs : List Ecc) : State :=
  s.isl.outq.zipIdx.foldl (fun s x =>
    let p := x.1
    let io : RnIo := { ecc := eccs.getD x.2 .ok, lag := lag }
    let seq := s.isl.sseq
    let crc := crc32 (p.flatMap (leBytes 8) ++ leBytes 2 seq)
    let r := s.main.rnUnitCommit 4094 ((p ++ [seq + crc * 2 ^ 32]).map (opnd tyInt)) io
    let lost := !r.1 && s.main.live (.runnel 0 4094)
    { s with main := r.2, isl := { s.isl with sseq := (seq + 1) % 65536, sdrop := if lost then satAdd 16 s.isl.sdrop 1 else s.isl.sdrop } })
    { s with isl := { s.isl with outq := [] } }

/-- The island acts, and its gate lines follow. -/
def State.onIsl (s : State) (g : Island → Island) : State := { s with isl := g s.isl }.syncGates

/-- The island's state is shown in the SAFE block and GATEMAP at once (R399, R465). -/
def State.showIsl (s : State) : State := { s with main := (s.main.safeRegs s.isl).gateMap s.isl }

/-- R465, R487: in FAULT the island's last packets are committed and its state is shown. -/
def State.flushFault (s : State) : State := (s.flush 0 []).showIsl

/-- R464 step 3: the island takes the packet at the front of the request runnel, when the cycle takes requests and the packet's code is
the one asked for (none: any). One in which a word meets an uncorrectable error is lost (R146, R311). -/
def State.takeReq (s : State) (code : Option Nat) : State :=
  if !(s.isl.works && s.isl.opn) || s.isl.budget = 0 || !s.main.live (.runnel 0 4095) then s
  else match s.main.rnPeekPkt 0 4095, s.main.rnTakePkt 0 4095 with
    | some pkt, some (_, m) =>
      let h := ((pkt.filter (fun o => o.typ != tyEmpty)).map (fun o => o.value.toNat)).headD 0
      if code.isSome && code != some (bitsOf h 0 8) then s
      else
        let eccs := s.isl.reads.headD []
        let took := fun (i : Island) => { i with budget := i.budget - 1, reads := i.reads.tail }
        if eccs.contains .uncorrectable then { s with main := s.main.unitLose 4095 eccs }.onIsl took
        else { s with main := m.rnCes 0 eccs }.onIsl (fun i => (took i).request pkt)
    | _, _ => s

/-- SAFETY_CYCLE (R464): the first half samples and evaluates demands; the requests of the cycle follow as commands of their own; the
second half takes those that are left, checks limits and readbacks, shows the SAFE registers and commits the packets. -/
def State.safetyCycle (s : State) (h : SafeHalf) : State :=
  match h with
  | .sample resetN keyA keyB core io reads =>
    let s' := s.onIsl (fun i => { i.sample resetN keyA keyB core.toNat io.toNat with reads := reads })
    if s'.isl.st = 3 then s'.flushFault else s'
  | .act sto brk lags eccs =>
    if !(s.isl.works && s.isl.opn) then s
    else
      let s := { s with main := s.main.rnSeeCommits 0 4095 lags.1 }
      let s := (List.range 8).foldl (fun s _ => if (s.main.rn 0 4095).visible then s.takeReq none else s) s
      let s := s.onIsl (fun i =>
        let i := if i.st = 2 then (List.range 16).foldl Island.limits i else i
        let i := (i.readSto sto.toNat).readBrk brk.toNat
        let i := if i.shown ≠ i.pub then i.status else i
        { i with opn := false })
      let s := s.flush lags.2 eccs
      { s with main := s.main.safeRegs s.isl }

/-- SAFETY_CYCLE. -/
def execSafetyCycle (h : SafeHalf) (s : State) : Host.Outcome State Fault Refusal := .next (s.safetyCycle h)

/-- The levels of the A (0) and B (1) channels of the inputs. -/
def chanLevel (a b : BitVec 32) (n j : Nat) : Bool := if j = 0 then a.getLsbD n else b.getLsbD n

/-- SAFE_INPUT_SAMPLE (R468): the levels of the A and of the B channels of the 32 inputs. -/
def execSafeInputSample (a b : BitVec 32) (s : State) : Host.Outcome State Fault Refusal :=
  .next (s.onIsl fun i => if !i.works then i
    else (List.range 32).foldl (fun i n => i.sampleIn n (a.getLsbD n) (b.getLsbD n)) (i.pulseSample (chanLevel a b)))

/-- TEST_PULSE (R469): the falling edge of output k, and what the channels read right after it; the samples that follow check them. -/
def execTestPulse (k : Fin 8) (a b : BitVec 32) (s : State) : Host.Outcome State Fault Refusal :=
  .next (s.onIsl fun i => i.testPulse k.val (chanLevel a b))

/-- HEARTBEAT (R484): the packet at the front, of code 0x01. -/
def execHeartbeat (s : State) : Host.Outcome State Fault Refusal := .next (s.takeReq (some 0x01))
/-- STATUS request (R484, R487). -/
def execIslandStatusRequest (s : State) : Host.Outcome State Fault Refusal := .next (s.takeReq (some 0x02))
/-- STO (R477, R484). -/
def execSto (s : State) : Host.Outcome State Fault Refusal := .next (s.takeReq (some 0x10))
/-- SS1 (R477, R484). -/
def execSs1 (s : State) : Host.Outcome State Fault Refusal := .next (s.takeReq (some 0x11))
/-- SS2 (R477, R484). -/
def execSs2 (s : State) : Host.Outcome State Fault Refusal := .next (s.takeReq (some 0x12))
/-- SOS (R477, R484). -/
def execSos (s : State) : Host.Outcome State Fault Refusal := .next (s.takeReq (some 0x13))
/-- SLS_LOWER (R484). -/
def execSlsLower (s : State) : Host.Outcome State Fault Refusal := .next (s.takeReq (some 0x14))
/-- BRAKE_APPLY (R477, R484). -/
def execBrakeApply (s : State) : Host.Outcome State Fault Refusal := .next (s.takeReq (some 0x15))
/-- GATE_CLOSE (R484). -/
def execGateClose (s : State) : Host.Outcome State Fault Refusal := .next (s.takeReq (some 0x16))
/-- SDI (R477, R484). -/
def execSdi (s : State) : Host.Outcome State Fault Refusal := .next (s.takeReq (some 0x17))
/-- STO_RELEASE (R485). -/
def execStoRelease (s : State) : Host.Outcome State Fault Refusal := .next (s.takeReq (some 0x40))
/-- SOS_RELEASE (R485). -/
def execSosRelease (s : State) : Host.Outcome State Fault Refusal := .next (s.takeReq (some 0x41))
/-- SLS_RAISE (R485). -/
def execSlsRaise (s : State) : Host.Outcome State Fault Refusal := .next (s.takeReq (some 0x42))
/-- BRAKE_RELEASE (R485). -/
def execBrakeRelease (s : State) : Host.Outcome State Fault Refusal := .next (s.takeReq (some 0x43))
/-- GATE_OPEN (R485). -/
def execGateOpen (s : State) : Host.Outcome State Fault Refusal := .next (s.takeReq (some 0x44))
/-- SDI_OFF (R485). -/
def execSdiOff (s : State) : Host.Outcome State Fault Refusal := .next (s.takeReq (some 0x45))
/-- PSET_BEGIN (R492). -/
def execPsetBegin (s : State) : Host.Outcome State Fault Refusal := .next (s.takeReq (some 0x80))
/-- PSET_DATA (R492). -/
def execPsetData (s : State) : Host.Outcome State Fault Refusal := .next (s.takeReq (some 0x81))
/-- PSET_COMMIT (R492). -/
def execPsetCommit (s : State) : Host.Outcome State Fault Refusal := .next (s.takeReq (some 0x82))
/-- PSET_ABORT (R492). -/
def execPsetAbort (s : State) : Host.Outcome State Fault Refusal := .next (s.takeReq (some 0x83))

/-- PSET_VERIFY_DONE (R492, R493): the checks are made; the set is accepted or refused. -/
def execPsetVerifyDone (s : State) : Host.Outcome State Fault Refusal :=
  match s.isl.works, s.isl.verify with
  | true, (l, seq) :: rest =>
    let r := s.isl.judge l
    .next ((s.onIsl fun i =>
      let i := { i with verify := rest }
      (if r = 0 then i.accept l else i).ack r seq 0x82).showIsl)
  | _, _ => .next s

/-- PSET_LOAD_TIMEOUT (R492): 300 s without a commit. -/
def execPsetLoadTimeout (s : State) : Host.Outcome State Fault Refusal :=
  .next (s.onIsl fun i =>
    { i with load := i.load.bind (fun l => if 3000000 ≤ i.t - l.since then none else some l) })

/-- SS1_RAMP_EXPIRY (R477): TRAMP has passed since the entry of SS1 or SS2. -/
def execSs1RampExpiry (d : Fin 16) (s : State) : Host.Outcome State Fault Refusal :=
  .next (s.onIsl fun i =>
    let due := fun (r : StopRun) => decide (i.tramp d.val ≤ i.t - r.entry)
    if i.st ≠ 2 then i
    else match (i.ch d.val).ss1, (i.ch d.val).ss2 with
      | some r, x => if due r then i.endSs1 d.val r else match x with
        | some q => if due q then i.endSs2 d.val else i
        | none => i
      | none, some q => if due q then i.endSs2 d.val else i
      | none, none => i)

/-- STATUS_PACKET_PERIOD (R487): STATPER has passed since the last STATUS packet. -/
def execStatusPacketPeriod (s : State) : Host.Outcome State Fault Refusal :=
  .next (s.onIsl fun i =>
    if i.works && i.pset.isSome && decide (10 * bitsOf (i.w 2) 32 16 ≤ i.t - i.statAt) then i.status else i)

/-- HEARTBEAT_LOSS (R467). -/
def execHeartbeatLoss (s : State) : Host.Outcome State Fault Refusal :=
  .next (s.onIsl fun i => if i.works && i.hbDue then { i with hb := true, obs := true }.setHold else i)

/-- ALIVE_LOSS (R467). -/
def execAliveLoss (s : State) : Host.Outcome State Fault Refusal :=
  .next (s.onIsl fun i => if i.works && i.aliveDue then { i with alive := true, obs := true }.setHold else i)

/-- ISLAND_INIT_DONE (R465, R496): INIT ends in NOSET, or with the row of R495 that failed. Any set is loaded again by requests. -/
def execIslandInitDone (fail : Option (Fin 12)) (s : State) : Host.Outcome State Fault Refusal :=
  if !s.isl.on || s.isl.st ≠ 0 || s.isl.locked then .next s
  else .next (s.onIsl fun i => match fail with
    | none => { i with st := 1, aliveAt := i.t, hbAt := i.t }
    | some c => i.enterFault c.val).flushFault

/-- ISLAND_FAULT (R495, R496): a diagnostic whose reaction is FAULT fails. -/
def execIslandFault (code : Fin 12) (s : State) : Host.Outcome State Fault Refusal :=
  if s.isl.works && [1, 2, 3, 4, 6, 7].contains code.val then .next (s.onIsl fun i => i.enterFault code.val).flushFault else .next s

/-- ISLAND_WATCHDOG_RESET (R16, R496). -/
def execIslandWatchdogReset (s : State) : Host.Outcome State Fault Refusal :=
  if s.isl.on && s.isl.st != 0 then .next (s.onIsl Island.wdReset).showIsl else .next s

/-- TEST_DUE (R497): a pair has been released for 168 h. -/
def execTestDue (d : Fin 16) (s : State) : Host.Outcome State Fault Refusal :=
  .next (s.onIsl fun i =>
    let c := i.ch d.val
    if !c.sto && decide (6048000000 ≤ i.t - c.since) then i.putCh d.val { c with testdue := true } else i)

/-- R476: a counter step from a change of the levels of a receiver pair. -/
def safeStep (mode : Nat) (l l' : Bool × Bool) : Int :=
  match mode with
  | 1 => (quadStep l.1 l.2 l'.1 l'.2).getD 0
  | 2 => if l'.1 && !l.1 then (if l'.2 then 1 else -1) else 0
  | 3 => let d := (quadrant l'.1 l'.2 + 4 - quadrant l.1 l.2) % 4
    if d = 1 then 1 else if d = 3 then -1 else 0
  | _ => 0

/-- R476: the axis ports whose pins the two counters of a channel count. -/
def Island.fba (i : Island) (d : Nat) : Nat := bitsOf (i.chE d 0) 4 6
def Island.fbb (i : Island) (d : Nat) : Nat := bitsOf (i.chE d 0) 10 6

/-- R476: the A and B pins of axis port p change: every counter that counts them follows. -/
def Island.edge (i : Island) (p : Nat) (l' : Bool × Bool) : Island :=
  let l := i.rx.getD p (false, false)
  let i := (List.range 16).foldl (fun i d =>
    let x := i.ch d
    let q := safeStep (i.fbMode d) l l'
    i.putCh d { x with c0 := if i.fba d = p then x.c0 + q else x.c0, c1 := if i.fbb d = p then x.c1 + q else x.c1 }) i
  { i with rx := i.rx.set p l' }

/-- SAFE_COUNTER_EDGE (R476): the levels of the A and B pins of an axis port at the island's receivers. -/
def execSafeCounterEdge (p : Fin 64) (a b : Bool) (s : State) : Host.Outcome State Fault Refusal :=
  .next (s.onIsl fun i => if !i.works then i else i.edge p.val (a, b))

/-- R479: the first index pulse of FBA references a channel with REFIDX. What was measured on counter 2d moves with it (log 112). -/
def Island.index (i : Island) (d : Nat) : Island :=
  let c := i.ch d
  if i.fbMode d == 0 || !i.chFlag d 21 || c.ref then i
  else i.putCh d { c with
    ref := true, c0 := 0, r0 := 0, r1 := c.c1, hist := c.hist.map (fun h => (h.1 - c.c0, h.2)), sos := c.sos.map (· - c.c0),
    sdi := c.sdi.map (fun x => (x.1, x.2 - c.c0)) }

/-- SAFE_COUNTER_INDEX (R479): an index pulse of axis port p at the island's receiver. -/
def execSafeCounterIndex (p : Fin 64) (s : State) : Host.Outcome State Fault Refusal :=
  .next (s.onIsl fun i => if !i.works then i else (List.range 16).foldl (fun i d => if i.fba d = p.val then i.index d else i) i)

/-- SAFE_ISLAND_POLL (R501): the field die reads the SAFE block and raises SAFE_ISLAND on what has changed since the last time. -/
def Main.islandPoll (m : Main) : Main :=
  let st := m.get F.SAFE_STATE_STATE
  let hold := m.get F.SAFE_STATE_HOLD
  let det := fun (idx cause : Nat) => st + hold * 8 + idx * 2 ^ 4 + cause * 2 ^ 12 + m.get F.SAFE_STATE_FAULTCODE * 2 ^ 20
  let causes := (List.range 16).map (fun d => m.get (F.SAFE_CH_FUNC_CAUSE d))
  let faults := m.get F.SAFE_IN_FAULT
  let seen := m.coll.polled
  let raise := fun (m : Main) (c : Bool) (idx cause : Nat) => if c then m.raiseSrc 37 0 0 (det idx cause) else m
  let m := raise m (seen.getD 0 0 == 2 && st != 2) 0 0
  let m := raise m (seen.getD 1 0 == 0 && hold == 1) 0 0
  let m := (List.range 16).foldl (fun m d => raise m (causes.getD d 0 != 0 && causes.getD d 0 != seen.getD (3 + d) 0) d (causes.getD d 0)) m
  let m := (List.range 32).foldl (fun m n => raise m (bitsOf faults n 1 == 1 && bitsOf (seen.getD 2 0) n 1 == 0) (0x20 + n) 13) m
  { m with coll := { m.coll with polled := st :: hold :: faults :: causes } }

/-- SAFE_ISLAND_POLL. -/
def execSafeIslandPoll (s : State) : Host.Outcome State Fault Refusal := s.onMain Main.islandPoll

end Sys2Proof.Machine
end

