-- ==== Sys2Proof/Machine/Survey.lean ====
section
/-! DEFINITION. The survey engine (R439 to R462): plans, measurements, the record, the watches. What a measurement reads comes with
its command; what the rules make of it is computed here. -/

namespace Sys2Proof.Machine

/-! ### The plan (R439, R440, R443) -/

/-- R439: how many objects a group has. -/
def survSize (g : Nat) : Nat := [448, 192, 64, 96, 48, 48, 16, 20, 98, 8, 22, 64, 16].getD g 0

/-- R440: the groups that a kind accepts. -/
def survGroups (kind : Nat) : List Nat :=
  match kind with
  | 1 => [7]
  | 2 => [0, 1, 2, 3, 10]
  | 3 => [1, 2, 5]
  | 4 => [2]
  | 5 => [4]
  | 6 => [11]
  | 7 => [12]
  | 8 => [6]
  | 9 => [8]
  | 10 => [9]
  | _ => []

/-- R440: PARAM bits that a kind uses. -/
def survParamBits (kind : Nat) : Nat :=
  match kind with
  | 2 => 8
  | 3 | 8 | 9 => 16
  | 5 => 32
  | 6 => 1
  | _ => 0

/-- R443: a plan entry is invalid. FIRST and COUNT of WINDING count motor ports. -/
def Main.survBad (m : Main) (k : Nat) : Bool :=
  let kind := m.get (F.SURVEY_PLAN_KIND k)
  let g := m.get (F.SURVEY_PLAN_GROUP k)
  let size := if kind = 5 then 16 else survSize g
  !(survGroups kind).contains g || decide (2 ^ survParamBits kind ≤ m.get (F.SURVEY_PLAN_PARAM k)) ||
  decide (size < m.get (F.SURVEY_PLAN_FIRST k) + m.get (F.SURVEY_PLAN_COUNT k))

/-! ### Start, stop, clear (R443 to R445, R460) -/

/-- R442: what the receivers under stimulus read at its end. levels is A, B, Z after INV. -/
def Main.survLevels (m : Main) (levels : BitVec 3) : Main :=
  m.survPairs.foldl (fun m p => m.survReads p.1 p.2 (levels.getLsbD p.2)) m

/-- The object in hand is under stimulus now. -/
def Main.survLive (m : Main) : Bool :=
  match m.survCur with
  | some (kind, _, _, param) =>
    survStimulus kind param && !m.surv.stimOff && (if kind = 5 then m.surv.wind.isSome else m.mode == 2)
  | none => false

/-- R444, R522: the mode has changed: a stimulus measurement whose condition has ended is aborted, and the stimulus objects that
remain are refused. -/
def Main.survMode (m : Main) (old : Nat) : Main :=
  match m.survCur with
  | none => m
  | some (kind, _, _, param) =>
    let live := survStimulus kind param && !m.surv.stimOff && (if kind = 5 then m.surv.wind.isSome && old == 3 else old == 2)
    let m' := { m with surv := { m.surv with stimOff := true } }
    (if live then (m'.survEntry 6 0 0 0).survNext else m').survSync

/-- R443: START. -/
def Main.survStart (m : Main) : Main :=
  if m.survRuns then m
  else match (List.range m.survN).find? m.survBad with
    | some k => ((m.set F.SURVEY_STAT_STATE 3).set F.SURVEY_STAT_ERR 1).set F.SURVEY_STAT_PLANIDX k
    | none =>
      let m := ((m.set F.SURVEY_STAT_STATE 1).set F.SURVEY_STAT_ERR 0).set F.SURVEY_STAT_PLANIDX 0
      { m with surv := { m.surv with done := 0, pair := 0, stimOff := false, wind := none } }.survSeek 65 0

/-- R444, R445: STOP. A stimulus in progress is removed and written as ABORTED, and the run ends. -/
def Main.survStop (m : Main) : Main :=
  if !m.survRuns then m
  else
    let m := if m.survLive then m.survEntry 6 0 0 0 else m
    if m.survRuns then m.survEnd 3 3 else m

/-- R460: CLEAR empties the record. -/
def Main.survClear (m : Main) : Main :=
  { (List.range (m.get F.SURVEY_STAT_ENTRIES)).foldl (fun (m : Main) i => (List.range 4).foldl (fun (m : Main) j => m.set (F.SURVEY_RECORD_WORD i j) 0) m) m
    with surv := { m.surv with seq := 0 } }.set F.SURVEY_STAT_ENTRIES 0

/-- A write of SURVEY.CTL (R443 to R445, R460). -/
def Main.survCtlWrite (m : Main) (v : Nat) : Main :=
  let clear := bitsOf v 2 1 == 1
  let runs := m.survRuns
  let m := if runs then m.setIf (clear || bitsOf v 8 7 != m.get F.SURVEY_CTL_NPLAN) F.SURVEY_STAT_CFGREF 1
    else (if clear then m.survClear else m).set F.SURVEY_CTL_NPLAN (bitsOf v 8 7)
  let m := if bitsOf v 1 1 = 1 then m.survStop else m
  (if bitsOf v 0 1 = 1 ∧ runs = false then m.survStart else m).survSync

/-- SURVEY_START (R443): a write of CTL with START. -/
def execSurveyStart (v : Word) (s : State) : Host.Outcome State Fault Refusal := s.onMain fun m => m.survCtlWrite (v ||| 1).toNat

/-- SURVEY_STOP (R444, R445): a write of CTL with STOP. -/
def execSurveyStop (v : Word) (s : State) : Host.Outcome State Fault Refusal := s.onMain fun m => m.survCtlWrite (v ||| 2).toNat

/-- SURVEY_CLEAR (R460): a write of CTL with CLEAR. -/
def execSurveyClear (v : Word) (s : State) : Host.Outcome State Fault Refusal := s.onMain fun m => m.survCtlWrite (v ||| 4).toNat

/-- A write of a plan entry (R445). -/
def Main.survPlanWrite (m : Main) (k v : Nat) : Main :=
  if m.survRuns then m.set F.SURVEY_STAT_CFGREF 1
  else m.setWord v [F.SURVEY_PLAN_KIND k, F.SURVEY_PLAN_GROUP k, F.SURVEY_PLAN_FIRST k, F.SURVEY_PLAN_COUNT k, F.SURVEY_PLAN_PARAM k]

/-- A write of WVDC (R445). -/
def Main.survWvdcWrite (m : Main) (v : Nat) : Main :=
  if m.survRuns then m.set F.SURVEY_STAT_CFGREF 1 else m.set F.SURVEY_WVDC_MV v

/-! ### Preconditions (R440, R444, R450) -/

/-- The die of a rail, where the rail belongs to a die position (R457). -/
def railDie (r : Nat) : Nat := if 1 ≤ r ∧ r ≤ 7 then r else 0

/-- R457: the part has the rail. -/
def Main.railPresent (m : Main) (r : Nat) : Bool := r != 11 && m.pop (railDie r)

/-- R450: the island has released the STO pair of a motor port and opened its gate. -/
def State.stageReleased (s : State) (p : Nat) : Bool :=
  let d := s.isl.motGroup p
  decide (d < 16) && !(s.isl.ch d).sto && s.main.gateOpen (.motor (Fin.ofNat 16 p))

/-- The preconditions of the object in hand hold. -/
def State.survReady (s : State) (kind i param : Nat) : Bool :=
  let m := s.main
  let passive := m.mode != 0 && m.mode != 10
  if survStimulus kind param then
    !m.surv.stimOff &&
    (if kind = 5 then
      m.mode == 3 && s.stageReleased i && !m.enabled (.motor (Fin.ofNat 16 i)) && m.get F.SURVEY_WVDC_MV != 0
    else m.mode == 2)
  else
    passive && match kind with
    | 1 => m.railPresent i
    | 9 => (unitTx i).isSome && decide (i < 0x30) && (decide (i < 0x10) || !m.ustOn (.iface i))
    | 10 => m.pop i
    | _ => true

/-- A measurement of a kind: the object in hand is of that kind; where its preconditions do not hold it is REFUSED. -/
def State.survey (s : State) (kind : Nat) (act : Main → Nat → Nat → Nat → Main) : State :=
  match s.main.survCur with
  | none => s
  | some (k, g, i, param) =>
    if k ≠ kind then s
    else if !s.survReady k i param then { s with main := (s.main.survEntry 2 0 0 0).survNext.survSync }
    else { s with main := (act s.main g i param).survNext.survSync }

/-! ### Measurements (R446 to R457) -/

/-- The nearer limit of a range, and STATUS 1 outside it. -/
def clampTo (lo hi x : Int) : Int × Nat := if x < lo then (lo, 1) else if hi < x then (hi, 1) else (x, 0)

/-- A signed value in a field of w bits. -/
def sgnVal (w : Nat) (x : Int) : Nat := uns w x

/-- SURVEY_SUPPLY (R457): mean and ripple in µV. The two VSAFE rails come from the island's registers, whose value is the mean and whose ripple
reads 0 (log 251). -/
def execSurveySupply (mean ripple : BitVec 32) (s : State) : Host.Outcome State Fault Refusal :=
  .next (s.survey 1 fun m _ i _ =>
    let x : Int := if i = 9 then 1000 * m.get F.SAFE_SUPPLY_CORE else if i = 10 then 1000 * m.get F.SAFE_SUPPLY_IO else mean.toInt
    let c := clampTo 0 3600000 x
    m.survEntry c.2 0 (sgnVal 64 c.1) (if i = 9 ∨ i = 10 then 0 else ripple.toNat))

/-- R446: the compliance limits in µV of an object: DAC pairs, axis pairs, safety-gated pins, others. -/
def Main.compliance (m : Main) (group i : Nat) : Int × Int :=
  if group = 2 then (-250000, 250000)
  else if group = 1 then (-3600000, 3600000)
  else if group = 3 ∨ (group = 0 ∧ m.gated (.gpio (Fin.ofNat 448 i)) = true) then (-300000, 800000)
  else (-300000, 3600000)

/-- What a polarity gives (R446): the voltage in µV at its last current, how often that was halved, and whether it is clipped. -/
structure Pol where
  v : Int
  halvings : Nat
  clipped : Bool

/-- R446: the current of a polarity is halved, up to eight times, while it is at compliance, where the voltage is held. -/
def polRun (lim : Int × Int) (up : Bool) : Nat → List (BitVec 32) → Pol
  | _, [] => ⟨if up then lim.2 else lim.1, 8, true⟩
  | h, v :: vs =>
    if (if up then v.toInt < lim.2 else lim.1 < v.toInt) then ⟨v.toInt, h, false⟩
    else if h = 8 then ⟨if up then lim.2 else lim.1, 8, true⟩
    else polRun lim up (h + 1) vs

/-- A measured quotient. By 0 the spec states no result, and it is a free value (log 184); of one that is no whole number the spec names no
rounding (log 47). -/
def Main.survQuot (m : Main) (num den : Int) : Int × Main :=
  if den = 0 then (sgn 64 m.takeFree.1, m.takeFree.2) else m.takeQuot (num * den.sign) den.natAbs

/-- A measured √n ÷ d, in the same way. -/
def Main.survRoot (m : Main) (n d : Nat) : Int × Main :=
  if d = 0 ∨ Nat.sqrt n * Nat.sqrt n = n then m.survQuot (Nat.sqrt n) d
  else (Nat.sqrt n / d + m.takeFree.1 % 2, m.takeFree.2)

/-- R447: i0 × R of a polarity in mΩ, from a voltage step in µV at a current of i0 ÷ 2^h, i0 in units of 10 µA. -/
def polOhm (dv : Int) (h : Nat) : Int := dv * 100 * 2 ^ h

/-- R447: 2 × i0 × R: of the mean of both polarities, or of the one that is not clipped. -/
def pinSum (rp rn : Int) (cp cn : Bool) : Int := if cp then 2 * rn else if cn then 2 * rp else rp + rn

/-- R447: the class of a pin or pair, and VALB where it is not R. rp and rn are i0 × R+ and i0 × R−. -/
def pinClass (i0 : Nat) (v0 vp vn rp rn : Int) (cp cn : Bool) : Nat × Option Int :=
  let r := pinSum rp rn cp cn
  let step := fun (x : Int) => decide (400000 ≤ (x - v0).natAbs ∧ (x - v0).natAbs ≤ 2000000)
  let agree := decide (20 * (rp - rn).natAbs ≤ r.natAbs)
  let low := if rp ≤ rn then vp else vn
  let apart := decide (3 * min rp rn ≤ max rp rn)
  if (cp && cn) || decide (2000000000 * (i0 : Int) < r) then (1, some (-1))
  else if r < 20000 * (i0 : Int) then (2, none)
  else if cp != cn && step (if cp then vn else vp) then (5, some (if cp then vn else vp))
  else if !cp && !cn && apart && step low then (5, some low)
  else if !cp && !cn && agree && decide (-100000 < v0) then (if v0 < 100000 then 3 else 4, none)
  else (6, none)

/-- VALB of a pin: what its class gives, or R in mΩ. -/
def Main.pinVal (m : Main) (i0 : Nat) (sum : Int) (v : Option Int) : Int × Main :=
  match v with
  | some x => (x, m)
  | none => m.survQuot sum (2 * i0)

/-- SURVEY_PINLOAD (R446, R447). levels is what the port's receivers read at the end (R442). -/
def execSurveyPinload (v0 : BitVec 32) (pos neg : PolMeas) (levels : BitVec 3) (s : State) : Host.Outcome State Fault Refusal :=
  .next (s.survey 2 fun m group i param =>
    let imax := Nat.min 100 (bitsOf param 0 8)
    let m := m.survLevels levels
    let pos := polRun (m.compliance group i) true 0 pos.vs
    let neg := polRun (m.compliance group i) false 0 neg.vs
    if imax = 0 then m.survEntry 0 0 (sgnVal 64 v0.toInt) (2 ^ 64 - 1)
    else
      let rp := polOhm (pos.v - v0.toInt) pos.halvings
      let rn := polOhm (v0.toInt - neg.v) neg.halvings
      let c := pinClass imax v0.toInt pos.v neg.v rp rn pos.clipped neg.clipped
      let q := m.pinVal imax (pinSum rp rn pos.clipped neg.clipped) c.2
      q.2.survEntry (if pos.halvings + neg.halvings = 0 then 0 else 5) c.1 (sgnVal 64 v0.toInt) (sgnVal 64 q.1))

/-- R449: the length in mm is VF × 10,000 times c in m/s times the echo delay in ps, divided by tdrDen. -/
def tdrC : Nat := 299792458
def tdrDen : Nat := 2 * 10 ^ 13

/-- SURVEY_TDR (R449, R459, R461): a length outside the range, which is 0.5 m to 300 m at VF 0.66 and scales with VF, gives the nearer limit (log 252). Echo delay in ps, reflection coefficient × 10,000, Z0 in 0.1 Ω. -/
def execSurveyTdr (driven : Bool) (t : BitVec 32) (rho z0 : BitVec 16) (levels : BitVec 3) (s : State) :
    Host.Outcome State Fault Refusal :=
  .next (s.survey 3 fun m _ _ param =>
    let vf := if bitsOf param 0 16 = 0 then 6600 else bitsOf param 0 16
    let r := rho.toInt
    let cls := if 8000 ≤ r then 1 else if r ≤ -8000 then 2 else if r.natAbs < 2000 then 3 else 4
    let m := m.survLevels levels
    let put := fun (st : Nat) (num den : Int) =>
      let q := m.survQuot num den
      q.2.survEntry st cls (sgnVal 64 q.1) (z0.toNat + rho.toNat * 2 ^ 16)
    if driven then m.survEntry 4 0 0 0
    else if cls = 3 then put 0 (vf * tdrC * 3276800) tdrDen
    else if 6600 * tdrC * t.toNat < 500 * tdrDen then put 1 (500 * vf) 6600
    else if 300000 * tdrDen < 6600 * tdrC * t.toNat then put 1 (300000 * vf) 6600
    else put 0 (vf * tdrC * t.toNat) tdrDen)

/-- SURVEY_DACLOAD (R448): the two polarities at 100 µA, and the time in ns that the first 50 mV take at 10 µA. -/
def execSurveyDacload (v0 : BitVec 32) (pos neg : PolMeas) (dt : BitVec 32) (s : State) : Host.Outcome State Fault Refusal :=
  .next (s.survey 4 fun m group i _ =>
    let pos := polRun (m.compliance group i) true 0 pos.vs
    let neg := polRun (m.compliance group i) false 0 neg.vs
    let sum := pinSum (polOhm (pos.v - v0.toInt) pos.halvings) (polOhm (v0.toInt - neg.v) neg.halvings) pos.clipped neg.clipped
    let qc := m.survQuot dt.toNat 5
    let c := clampTo 100 1000000 qc.1
    let halved := if pos.halvings + neg.halvings = 0 then 0 else 5
    if (pos.clipped && neg.clipped) || decide (20000000000 < sum) then qc.2.survEntry 1 0 (2 ^ 64 - 1) (sgnVal 64 c.1)
    else
      let qr := qc.2.survQuot sum 20000
      let r := clampTo 1000 1000000 qr.1
      qr.2.survEntry (if r.2 = 1 ∨ c.2 = 1 then 1 else halved) 0 (sgnVal 64 r.1) (sgnVal 64 c.1))

/-- R451: L in nH: (VDC − R × i) × Δt ÷ Δi, with R the quotient of the mean voltage and current, or the free value r where that current is 0. -/
def Main.windL (m : Main) (r dt di irise vmean imean : Int) : Int × Main :=
  let vdc : Int := 1000 * m.get F.SURVEY_WVDC_MV
  if imean = 0 then m.survQuot ((vdc * 1000000 - r * irise) * dt) (1000000 * di)
  else m.survQuot ((vdc * imean - vmean * irise) * dt) (imean * di)

/-- R451: R in µΩ and L in nH of a pair, each within its range (R459). -/
def Main.winding (m : Main) (dt di irise vmean imean : Int) : Main :=
  let r := m.survQuot (vmean * 1000000) imean
  let l := r.2.windL r.1 dt di irise vmean imean
  let rc := clampTo 10000 100000000 r.1
  let lc := clampTo 50000 500000000 l.1
  l.2.survEntry (if rc.2 = 1 ∨ lc.2 = 1 then 1 else 0) 0 (sgnVal 64 rc.1) (sgnVal 64 lc.1)

/-- R452: a WINDING pair of a port is stopped by motion: its entry is MOTION, and the port's remaining pairs are REFUSED. -/
def Main.windMotion (m : Main) (i : Nat) : Main :=
  let n := (m.survEntry 3 0 0 0).raiseSrc 36 0 0 i
  ((List.range (2 - m.surv.pair)).foldl (fun m _ => m.survNext.survEntry 2 0 0 0) n).survNext

/-- R450, R451: the engine takes the outputs of a port and applies the full DC link to the pair. -/
def Main.windStart (m : Main) (i param : Nat) : Main :=
  (m.withWind (some { cnt := m.survWatch param, step := 0, since := m.now, on := true, at_ := m.now, short := false, moved := false })).putMotor
    { m.motor i with drv := true }

/-- R451: the end of a step: a rise at ILIM or after 50 µs, the hold after 20 ms. -/
def Main.windNext (m : Main) (w : Wind) (param cur : Nat) : Main :=
  let over_ := if w.step = 1 then decide (w.since + 20000000 ≤ m.now) else decide (bitsOf param 0 16 ≤ cur ∨ w.since + 50000 ≤ m.now)
  if 3 ≤ w.step ∨ over_ = false then m
  else m.withWind (some { w with step := w.step + 1, since := m.now, on := true, at_ := m.now, short := false })

/-- R386, R450, R451: the PWM of the hold changes its ideal signal for a time. -/
def Main.windPwm (m : Main) (i : Nat) (w : Wind) (on : Bool) (len : Nat) : Main :=
  let dead := m.get (F.MOTOR_PER_DEAD i)
  if w.step ≠ 1 ∨ w.on = on then m
  else m.withWind (some { w with on := on, at_ := m.now, short := decide (len ≤ dead ∨ len - dead < m.get (F.MOTOR_PER_MINPW i)) })

/-- SURVEY_WINDING (R450 to R452): a pair starts, goes through its steps, ends, or is stopped by motion beyond MOVLIM. -/
def execSurveyWinding (ev : WindEv) (s : State) : Host.Outcome State Fault Refusal :=
  match s.main.survCur with
  | none => .next s
  | some (kind, _, i, param) =>
    let m := s.main
    if kind ≠ 5 then .next s
    else match m.surv.wind with
      | none =>
        if !s.survReady 5 i param then .next { s with main := (m.survEntry 2 0 0 0).survNext }
        else if ev = .start then .next { s with main := m.windStart i param }
        else .next s
      | some w =>
        let tripped := (m.motor i).tripped || !s.stageReleased i
        if w.moved then .next { s with main := m.windMotion i }
        else match ev with
        | .start | .motion => .next s
        | .next cur => .next { s with main := m.windNext w param cur.toNat }
        | .pwm on len => .next { s with main := m.windPwm i w on len }
        | .done dt di irise vmean imean =>
          if tripped then .next { s with main := (m.survEntry 6 0 0 0).survNext }
          else if w.step ≠ 3 then .next s
          else .next { s with main := (m.winding dt.toNat di.toInt irise.toInt vmean.toInt imean.toInt).survNext }

/-- R453: an SSI word with which at least four of the five words agree within 1 LSB. -/
def ssiAgree (ws : List Nat) : Option Nat :=
  ws.find? (fun w => decide (4 ≤ (ws.filter (fun x => decide (w ≤ x ∧ x ≤ w + 1))).length))

/-- SURVEY_ENCODER (R453). -/
def execSurveyEncoder (x : EncMeas) (levels : BitVec 3) (s : State) : Host.Outcome State Fault Refusal :=
  .next (s.survey 6 fun m _ i param =>
    let c := fun (v : BitVec 32) => (clampTo (-5000000) 5000000 v.toInt).1
    let out := fun (v : BitVec 32) => (clampTo (-5000000) 5000000 v.toInt).2
    let a := c x.a
    let b := c x.b
    let z := c x.z
    let probe := bitsOf param 0 1 == 1
    let ssi := if probe && x.idle && x.words.length == 5 then ssiAgree (x.words.map BitVec.toNat) else none
    let sq := a * a + b * b
    let leg := fun (v : BitVec 32) => decide (v.toInt < 800000 ∨ 2000000 < v.toInt)
    let bit := fun (v : BitVec 32) => b2n (decide (2000000 < v.toInt))
    let zba := bit x.la + 2 * bit x.lb + 4 * bit x.lz
    let m := m.survLevels levels
    let st := if out x.a + out x.b + out x.z = 0 then 0 else 1
    let write := fun (cls hi : Nat) => m.survEntry st cls (sgnVal 32 a + sgnVal 32 b * 2 ^ 32) (sgnVal 32 z + hi * 2 ^ 32)
    match ssi with
    | some w => write 3 w
    | none =>
      if 1000000 ≤ a.natAbs ∧ 1000000 ≤ b.natAbs then write 1 0
      else if i < 32 ∧ a.natAbs ≤ 700000 ∧ b.natAbs ≤ 700000 ∧ 250000 ^ 2 ≤ sq ∧ sq ≤ 700000 ^ 2 then
        let q := m.survRoot sq.toNat 1
        q.2.survEntry st 2 (sgnVal 32 a + sgnVal 32 b * 2 ^ 32) (sgnVal 32 z + q.1.toNat * 2 ^ 32)
      else if leg x.la && leg x.lb && leg x.lz && zba != 0 && zba != 7 then write 4 0
      else if a.natAbs < 50000 ∧ b.natAbs < 50000 ∧ z.natAbs < 50000 then write 0 0
      else write 6 0)

/-- SURVEY_RESOLVER (R454): amplitudes of sine, cosine and excitation, phase shift, angle. -/
def execSurveyResolver (sine cosine exc : BitVec 32) (phase angle : BitVec 16) (s : State) : Host.Outcome State Fault Refusal :=
  .next (s.survey 7 fun m _ _ _ =>
    let sq := (sine.toInt * sine.toInt + cosine.toInt * cosine.toInt).toNat
    let d := exc.toInt.natAbs
    let q := m.survRoot (sq * 10 ^ 12) d
    let c := clampTo 0 2000000 q.1
    q.2.survEntry c.2 (if (if d = 0 then q.1 < 20000 else sq * 10 ^ 12 < (20000 * d) ^ 2) then 0 else 1) (sgnVal 64 c.1) (phase.toNat + angle.toNat * 2 ^ 16))

/-- SURVEY_MAINS (R455): frequency in µHz, 0 without a crossing, and RMS voltage in µV. -/
def execSurveyMains (freq rms : BitVec 32) (s : State) : Host.Outcome State Fault Refusal :=
  .next (s.survey 8 fun m _ _ _ =>
    if freq = 0 then m.survEntry 7 0 0 rms.toNat
    else
      let c := clampTo 40000000 70000000 freq.toNat
      m.survEntry c.2 0 (sgnVal 64 c.1) rms.toNat)

/-- R456: the rates that PARTNER detects on a CAN bus, in bit/s. -/
def canRates : List Nat := [10000, 20000, 50000, 100000, 125000, 250000, 500000, 800000, 1000000]

/-- SURVEY_PARTNER (R456): what was heard in the window, in the layout of R456; no traffic gives NOSIGNAL. -/
def execSurveyPartner (vala valb : Word) (s : State) : Host.Outcome State Fault Refusal :=
  .next (s.survey 9 fun m _ i _ =>
    let can := decide (0x10 ≤ i ∧ i ≤ 0x13)
    let a := if i ≤ 6 then vala.toNat % 128
      else if can then (if canRates.contains (bitsOf vala.toNat 0 32) then vala.toNat else bitsOf vala.toNat 32 32 * 2 ^ 32)
      else vala.toNat
    let b := if can then valb.toNat % 2 ^ 34 else valb.toNat
    m.survEntry (if (if can then b % 2 ^ 32 else b) = 0 then 7 else 0) 0 a b)

/-- SURVEY_THERMAL (R456): junction temperature in 1/8 °C. -/
def execSurveyThermal (tj : BitVec 16) (s : State) : Host.Outcome State Fault Refusal :=
  .next (s.survey 10 fun m _ _ _ =>
    let c := clampTo (-320) 1280 tj.toInt
    m.survEntry c.2 0 (sgnVal 64 c.1) 0)

/-! ### Watches (R458) -/

/-- The watches run in every mode except RESET and STANDBY. -/
def Main.watches (m : Main) : Bool := m.mode != 0 && m.mode != 10

/-- R458: a new value of a rail. -/
def Main.railSample (m : Main) (r mv : Nat) : Main :=
  let m := m.set (F.SURVEY_RAIL_VALUE r) mv
  let lo := m.get (F.SURVEY_RAIL_LO r)
  let hi := m.get (F.SURVEY_RAIL_HI r)
  let out := decide (mv < lo ∨ hi < mv)
  let rest := m.surv.rails.filter (fun x => x.r != r)
  let put := fun (m : Main) (l : List RailSt) => { m with surv := { m.surv with rails := l } }
  let dir := b2n (decide (hi < mv))
  let leaves := fun (m : Main) =>
    (((put m (rest ++ [{ r := r, back := none }])).set (F.SURVEY_RAIL_OUT r) 1).set (F.SURVEY_RAIL_DIR r) dir).event (904 + r)
      (dir + mv * 2) |>.raiseSrc 5 0 (railDie r) (r + dir * 32)
  match m.surv.rails.find? (fun x => x.r == r) with
  | some x =>
    let again := x.back.any (fun t => decide (t + 1000000 ≤ m.now))
    if out then (if again then leaves m else put m (rest ++ [{ x with back := none }]))
    else if again then put m rest
    else if x.back.isNone then put m (rest ++ [{ x with back := some m.now }])
    else m
  | none => if out then leaves m else m

/-- SUPPLY_WATCH_SAMPLE (R457, R458): a rail in mV. The VSAFE rails are read from the island's registers; rail 11 and the rails of absent
dies read 0. -/
def execSupplyWatchSample (r : Fin 20) (mv : BitVec 16) (s : State) : Host.Outcome State Fault Refusal :=
  s.onMain fun m =>
    if !m.watches || !m.railPresent r.val then m
    else m.railSample r.val (if r.val = 9 then m.get F.SAFE_SUPPLY_CORE else if r.val = 10 then m.get F.SAFE_SUPPLY_IO else mv.toNat)

/-- MAINS_WATCH (R458): the frequency of the watched input, averaged over 10 periods, in µHz. -/
def execMainsWatch (freq : BitVec 32) (s : State) : Host.Outcome State Fault Refusal :=
  s.onMain fun m =>
    if !m.watches || !m.flag F.SURVEY_WATCH_MAINSEN then m
    else
      let m := m.set F.SURVEY_MAINSVAL_FREQ freq.toNat
      let out := decide (freq.toNat < 10000 * m.get F.SURVEY_WATCH_FLO ∨ 10000 * m.get F.SURVEY_WATCH_FHI < freq.toNat)
      let was := m.surv.mains
      let m := { m with surv := { m.surv with mains := out } }
      if out && !was then
        ((m.set F.SURVEY_MAINSVAL_OUT 1).event 924 0).raiseSrc 35 0 0 (m.get F.SURVEY_WATCH_MAINSIN)
      else m

end Sys2Proof.Machine
end

