-- ==== Sys2Proof/Machine/Tape.lean ====
section
/-! DEFINITION. The tape-reader ports (R395 to R397). -/

namespace Sys2Proof.Machine

/-- A unit appends one INT64 word to its packet, opening one if none is open, and commits the packet when asked: false when
the word finds no room (R142, R396). The words of an aborted packet are accepted and discarded until it is closed (R144). -/
def Main.rnUnitWord (m : Main) (i : Nat) (word : Nat) (commit : Bool) (io : RnIo) : Bool × Main :=
  let m := m.rnSeeFrees 0 i io.lag
  let r := m.rn 0 i
  if !m.live (.runnel 0 i) then (false, m)
  else
    let p := match r.open_ with
      | some p => (p, m)
      | none =>
        let s := m.rnSerial 0 i
        ({ serial := s.1, next := 0, words := [], doomed := false, aborted := false, by_ := none, via := [] }, s.2)
    let keep := fun (m : Main) (o : OpenPkt) => (true, m.putRn { m.rn 0 i with open_ := if commit then none else some o })
    let room := m.rnRoom r || (r.open_ == some p.1 && p.1.words == [])
    if p.1.aborted then keep m p.1
    else if !room then (false, m)
    else if io.ecc = .uncorrectable then keep (p.2.bump (F.RUNNEL_STAT_ABORTS 0 i)) { p.1 with words := [], aborted := true }
    else
      let words := p.1.words ++ [opnd tyInt word]
      if commit then p.2.rnCommit 0 i p.1.serial words none else keep p.2 { p.1 with next := p.1.next + 1, words := words }

/-- The tape port of a number. -/
def Main.tape (m : Main) (p : Nat) : TapeSt :=
  (m.port.tapes.find? (fun t => t.p == p)).getD { p := p, rdy := false, holes := none }

/-- Store a tape port. -/
def Main.putTape (m : Main) (t : TapeSt) : Main :=
  { m with port := { m.port with tapes := m.port.tapes.filter (fun x => x.p != t.p) ++ [t] } }

/-- R397: a parity error of a hole pattern: even parity for ISO 840, odd for EIA RS-244, no check without holes. -/
def parityError (eia : Bool) (holes : Nat) : Bool := holes != 0 && (ones8 holes % 2 == 1) != eia

/-- TAPE_CHARACTER_CAPTURE (R395, R396): one character of the physical reader. -/
def Main.tapeCapture (m : Main) (p holes : Nat) (rdy : Bool) (io : RnIo) : Main :=
  let m := m.putTape { m.tape p with rdy := rdy }
  if m.get (F.TAPE_CFG_MODE p) ≠ 1 then m
  else
    let par := parityError (m.flag (F.TAPE_CFG_CODE p)) holes
    let valid := m.flag (F.TAPE_DEC_VALID p holes)
    let eob := m.flag (F.TAPE_DEC_EOB p holes)
    let word := holes + m.get (F.TAPE_DEC_CODE p holes) * 2 ^ 8 + b2n par * 2 ^ 16 + b2n (!valid) * 2 ^ 17 + b2n eob * 2 ^ 18
    let m := m.bump (F.TAPE_STAT_CHARS p)
    let m := if par then m.bump (F.TAPE_STAT_PARERR p) else m
    let m :=
      if m.flag (F.TAPE_DEC_SKIP p holes) && !m.flag (F.TAPE_CFG_RAW p) then m
      else match m.unitRx (0x60 + p) with
        | none => m.bump (F.TAPE_STAT_LOST p)
        | some i =>
          match m.rnUnitWord i word (!m.flag (F.TAPE_CFG_BLOCK p) || eob) io with
          | (true, m') => m'
          | (false, m') => m'.bump (F.TAPE_STAT_LOST p)
    if par && m.flag (F.TAPE_CFG_STOPERR p) then m.set (F.TAPE_CTL_GO p) 0 else m

/-- TAPE_CHARACTER_CAPTURE: the hole pattern, the level of RDY, and what the word meets at the runnel. -/
def execTapeCharacterCapture (p : Fin 2) (holes : BitVec 8) (rdy : Bool) (io : RnIo) (s : State) : Host.Outcome State Fault Refusal :=
  s.onMain fun m => m.tapeCapture p.val holes.toNat rdy io

/-- R395: the ns from the presentation of the holes to the rise and to the end of the SPR pulse. -/
def Main.tapeRise (m : Main) (p : Nat) : Nat := 1000 * m.get (F.TAPE_CFG_SETUP p)
def Main.tapeFall (m : Main) (p : Nat) : Nat := m.tapeRise p + 1000 * m.get (F.TAPE_CFG_SPW p)

/-- R395: the ns from one character to the next in level mode: CPS, and the end of the SPR pulse, till which the holes are held. -/
def Main.tapePace (m : Main) (p : Nat) : Nat :=
  Nat.max (m.tapeFall p) (1000000000 / Nat.max 1 (Nat.min 5000 (m.get (F.TAPE_CFG_CPS p))))

/-- R395, R402: the level of RUN, an output in READ mode: RDY and STOPMARGIN free slots as the producer side of the runnel sees them
(log 214); none while GO is 0 or the mode is another: high impedance. -/
def Main.tapeRun (m : Main) (p : Nat) : Option Bool :=
  if m.get (F.TAPE_CFG_MODE p) ≠ 1 ∨ m.flag (F.TAPE_CTL_GO p) = false then none
  else some ((m.tape p).rdy && match m.unitRx (0x60 + p) with
    | some i => m.rnRoomFor (m.rn 0 i) (m.get (F.TAPE_CFG_STOPMARGIN p))
    | none => false)

/-- R395, R402: the level of RDY, an output in EMULATE mode. -/
def Main.tapeRdy (m : Main) (p : Nat) : Option Bool :=
  if m.get (F.TAPE_CFG_MODE p) = 2 ∧ m.flag (F.TAPE_CTL_GO p) = true then some true else none

/-- R395: the holes of a character are held until SPR ends. -/
def Main.tapeBusy (m : Main) (p : Nat) : Bool := (m.tape p).holes.any (fun h => decide (m.now < h.2 + m.tapeFall p))

/-- R395, R402: in EMULATE mode the holes on CH, held until SPR ends, and the level of SPR. -/
def Main.tapeHoles (m : Main) (p : Nat) : Option (Nat × Bool) :=
  if m.get (F.TAPE_CFG_MODE p) ≠ 2 ∨ m.flag (F.TAPE_CTL_GO p) = false then none
  else some (match (m.tape p).holes with
    | some (h, t) => if m.tapeBusy p then (h, decide (t + m.tapeRise p ≤ m.now)) else (0, false)
    | none => (0, false))

/-- R395: a character may start in EMULATE mode: in level mode at the pace of CPS; in step mode at a rise of RUN, or once SPR has ended after one
(log 249). -/
def Main.tapeGo (m : Main) (p : Nat) (rise : Bool) : Bool :=
  if m.flag (F.TAPE_CFG_RUNMODE p) then (rise || (m.tape p).want) && !m.tapeBusy p
  else match (m.tape p).holes with
    | some h => decide (h.2 + m.tapePace p ≤ m.now)
    | none => true

/-- R395: a rise of RUN waits for the holes in hand to end, or no more. -/
def Main.tapeWant (m : Main) (p : Nat) (w : Bool) : Main := if (m.tape p).want = w then m else m.putTape { m.tape p with want := w }

/-- TAPE_CHARACTER_SEND (R395, R396): the level of the port's input: in READ mode RDY (log 249), in EMULATE mode RUN, where one character is taken
and presented when the run mode asks for it. -/
def Main.tapeSend (m : Main) (p : Nat) (run : Bool) (io : RnIo) : Main :=
  if m.get (F.TAPE_CFG_MODE p) = 1 then m.putTape { m.tape p with rdy := run }
  else
  let rise := run && !m.flag (F.TAPE_STAT_RUNIN p)
  let go := m.tapeGo p rise
  let m := m.set (F.TAPE_STAT_RUNIN p) (b2n run)
  let m := m.tapeWant p (m.flag (F.TAPE_CFG_RUNMODE p) && run && !go && (rise || (m.tape p).want))
  if m.get (F.TAPE_CFG_MODE p) ≠ 2 ∨ m.flag (F.TAPE_CTL_GO p) = false ∨ run = false ∨ go = false then m
  else match m.unitTxRn (0x60 + p) 0 with
  | none => m
  | some i =>
    if !m.live (.runnel 0 i) then m
    else match (m.rnSeeCommits 0 i io.lag).rnTake 0 i io.ecc with
    | .none_ => m
    | .lost _ m => m
    | .word o _ _ _ m =>
      if o.typ = tyEmpty then m
      else
        let c := o.value.toNat % 256
        let raw := m.flag (F.TAPE_CFG_RAW p)
        if !raw && !m.flag (F.TAPE_ENC_VALID p c) then m.bump (F.TAPE_STAT_BADCHAR p)
        else
          let holes := if raw then c else m.get (F.TAPE_ENC_HOLES p c)
          (m.putTape { m.tape p with holes := some (holes, m.now) }).bump (F.TAPE_STAT_CHARS p)

/-- TAPE_CHARACTER_SEND. -/
def execTapeCharacterSend (p : Fin 2) (run : Bool) (io : RnIo) (s : State) : Host.Outcome State Fault Refusal :=
  s.onMain fun m => m.tapeSend p.val run io

/-- A table entry written with its fields: DEC. -/
def Main.tapeDecPut (m : Main) (p c v : Nat) : Main :=
  (((m.set (F.TAPE_DEC_CODE p c) (bitsOf v 0 8)).set (F.TAPE_DEC_SKIP p c) (bitsOf v 8 1)).set
    (F.TAPE_DEC_EOB p c) (bitsOf v 9 1)).set (F.TAPE_DEC_VALID p c) (bitsOf v 10 1)

/-- A table entry written with its fields: ENC. -/
def Main.tapeEncPut (m : Main) (p c v : Nat) : Main :=
  (m.set (F.TAPE_ENC_HOLES p c) (bitsOf v 0 8)).set (F.TAPE_ENC_VALID p c) (bitsOf v 8 1)

/-- TAPE_LOADTAB (R397): DEC and ENC take the defaults of CFG.CODE. -/
def Main.tapeLoadTab (m : Main) (p : Nat) : Main :=
  let eia := m.flag (F.TAPE_CFG_CODE p)
  (List.range 256).foldl (fun m c =>
    (m.tapeDecPut p c (if eia then eiaDec c else isoDec c)).tapeEncPut p c (if eia then eiaEnc c else isoEnc c)) m

/-- TAPE_LOADTAB. -/
def execTapeLoadtab (p : Fin 2) (s : State) : Host.Outcome State Fault Refusal := s.onMain fun m => m.tapeLoadTab p.val

end Sys2Proof.Machine
end

