-- ==== Sys2Proof/Machine/Net.lean ====
section
/-! DEFINITION. Ethernet, MDIO and wall time (R415 to R421, R434), and what the interface units share (R409 to R412). -/

namespace Sys2Proof.Machine

/-! ### Packets of the interface units (R412) -/

/-- Bytes packed into words, byte 0 lowest; the bytes of the last word beyond the payload read as zero (R412). -/
def packBytes : List Nat → List Nat
  | [] => []
  | a :: b :: c :: d :: e :: f :: g :: h :: t =>
    (a % 256 + b % 256 * 2 ^ 8 + c % 256 * 2 ^ 16 + d % 256 * 2 ^ 24 + e % 256 * 2 ^ 32 + f % 256 * 2 ^ 40 + g % 256 * 2 ^ 48 +
      h % 256 * 2 ^ 56) :: packBytes t
  | l => [(l.zipIdx.map (fun p => p.1 % 256 * 2 ^ (8 * p.2))).sum]

/-- The first n bytes of words, byte 0 lowest (R412). -/
def unpackBytes (ws : List Nat) (n : Nat) : List Nat :=
  (ws.flatMap (fun w => (List.range 8).map (fun k => bitsOf w (8 * k) 8))).take n

/-- Words that n bytes take. -/
def wordsFor (n : Nat) : Nat := (n + 7) / 8

/-- R322, R323: what a unit sees of the commits on its TX runnels. -/
def Main.unitSees (m : Main) (u : Nat) (lags : List Nat) : Main :=
  (List.range 8).foldl (fun m k => match m.unitTxRn u k with
    | some i => m.rnSeeCommits 0 i (lags.getD k 0)
    | none => m) m

/-- R418, R423, R425: a packet is late: it could be taken only after its LAUNCH. Whether its commit had crossed by then is not to be seen in
the state while it need not have (R323): the command says it. -/
def Main.lateFor (m : Main) (i launch : Nat) (late : Bool) : Bool :=
  launch != 0 && decide (launch < m.now) && (m.rn 0 i).pkts.head?.any (fun p =>
    decide (launch < p.since) || (late && decide (1000 * launch < 1000 * p.at_ + m.commitBound 0 i)))

/-! ### Ethernet ports -/

/-- No gating. -/
def Gcl.none_ : Gcl := { base := 0, cycle := 0, entries := [] }

/-- The Ethernet port of a number. -/
def Main.eth (m : Main) (p : Nat) : EthSt :=
  (m.comm.eths.find? (fun x => x.p == p)).getD
    { p := p, txts := [], latched := none, oper := Gcl.none_, hold := false, pause := 0, wire := [] }

/-- Store an Ethernet port. -/
def Main.putEth (m : Main) (x : EthSt) : Main :=
  { m with comm := { m.comm with eths := m.comm.eths.filter (fun y => y.p != x.p) ++ [x] } }

/-- Event 512 + p with a cause and a TAG (R413). -/
def Main.ethEvent (m : Main) (p cause tag : Nat) : Main := m.event (512 + p) (cause + tag % 2 ^ 16 * 2 ^ 16)

/-- One bit time in ns (R415, STAT.SPEED). -/
def Main.ethBit (m : Main) (p : Nat) : Nat :=
  match m.get (F.ETH_STAT_SPEED p) with
  | 0 => 100
  | 1 => 10
  | _ => 1

/-- The delay that R417 adds on ETH0 to ETH3. -/
def Main.ethLat (m : Main) (p : Nat) (f : Nat → Fld) : Nat := if p ≤ 3 then m.get (f p) else 0

/-- R416: a port takes a frame: its own address, broadcast, a multicast frame whose hash bit is set, or every frame. -/
def Main.ethTakes (m : Main) (p : Nat) (dst : List Nat) : Bool :=
  m.flag (F.ETH_CFG_PROMISC p) ||
  packBytes dst == [m.get (F.ETH_MAC_ADDR p)] ||
  dst.all (fun b => b == 0xFF) ||
  (dst.headD 0 % 2 == 1 && bitsOf (m.get (F.ETH_HASH_BITS p)) (crc32 dst / 2 ^ 26) 1 == 1)

/-- A big-endian 16-bit field of a frame (IEEE 802.3). -/
def be16 (bs : List Nat) (k : Nat) : Nat := bs.getD k 0 * 256 + bs.getD (k + 1) 0

/-- A PAUSE frame (R415; Annex 31B of IEEE 802.3, PRESUMED, log 76). -/
def isPause (bs : List Nat) : Bool :=
  bs.take 6 == [0x01, 0x80, 0xC2, 0x00, 0x00, 0x01] && be16 bs 12 == 0x8808 && be16 bs 14 == 1

/-- A VLAN tag follows the addresses (IEEE 802.1Q, PRESUMED, log 76). -/
def isTagged (bs : List Nat) : Bool := be16 bs 12 == 0x8100 || be16 bs 12 == 0x88A8

/-- R412: the packet of a received frame. -/
def ethPacket (bs : List Nat) (time : Nat) : List Nat :=
  let tagged := isTagged bs
  (bs.length % 2 ^ 16 + (if tagged then bs.getD 14 0 / 32 else 0) * 2 ^ 16 + b2n tagged * 2 ^ 19 + bs.headD 0 % 2 * 2 ^ 20) :: time ::
    packBytes bs

/-- ETH_FRAME_RECEIVE (R416, R417): a frame without its FCS, the result of the FCS check, and the wall time of the first bit after
its SFD. -/
def Main.ethReceive (m : Main) (p : Nat) (bs : List Nat) (fcs : Bool) (time : Nat) (io : RnIo) : Main :=
  if !m.live (.iface p) then m
  else if !fcs || decide (bs.length + 4 < 64 ∨ m.get (F.ETH_CFG_MAXLEN p) < bs.length + 4) then m.bump (F.ETH_STAT_RXERR p)
  else if m.flag (F.ETH_CFG_PAUSEEN p) && isPause bs then
    m.putEth { m.eth p with pause := m.now + be16 bs 16 * 512 * m.ethBit p }
  else if !m.ethTakes p (bs.take 6) then m
  else
    let ws := ethPacket bs (time + m.ethLat p F.ETH_LAT_RXLAT)
    let r := match m.unitRx p with
      | some i => m.rnUnitCommit i (ws.map (opnd tyInt)) io
      | none => (false, m)
    if r.1 then r.2 else (r.2.bump (F.ETH_STAT_RXDROP p)).ethEvent p 3 0

/-- ETH_FRAME_RECEIVE. -/
def execEthFrameReceive (p : Fin 7) (bs : List (BitVec 8)) (fcs : Bool) (time : Nat) (io : RnIo) (s : State) :
    Host.Outcome State Fault Refusal :=
  s.onMain fun m => m.ethReceive p.val (bs.map BitVec.toNat) fcs time io

/-! ### Gating (R419, R420) -/

/-- The entries as (gate bits, time in force), truncated at the end of the cycle; the last entry stays in force to its end. -/
def gclSegs : List (Nat × Nat × Bool) → Nat → List (Nat × Nat)
  | [], _ => []
  | [e], rest => [(e.1, rest)]
  | e :: t, rest => if rest ≤ e.2.1 then [(e.1, rest)] else (e.1, e.2.1) :: gclSegs t (rest - e.2.1)

/-- The index of the entry in force a time after the start of the cycle, and the time since that entry began. -/
def segAt : List (Nat × Nat) → Nat → Nat × Nat
  | [], t => (0, t)
  | [_], t => (0, t)
  | s :: l, t => if t < s.2 then (0, t) else
    let r := segAt l (t - s.2)
    (r.1 + 1, r.2)

/-- The time for which a gate stays open through consecutive entries. -/
def openRun (q : Nat) : List (Nat × Nat) → Nat
  | [] => 0
  | s :: l => if bitsOf s.1 q 1 = 1 then s.2 + openRun q l else 0

/-- The entries of one cycle from an index on, wrapping. -/
def rotate (l : List (Nat × Nat)) (k : Nat) : List (Nat × Nat) := l.drop k ++ l.take k

/-- R419: the port is gating. -/
def Main.gating (m : Main) (p : Nat) : Bool := m.flag (F.ETH_CFG_GATEEN p) && (m.eth p).oper.cycle != 0

/-- R419: the index of the entry in force at a time and the time since it began. -/
def Gcl.entryAt (g : Gcl) (t : Nat) : Nat × Nat := segAt (gclSegs g.entries g.cycle) ((t - g.base) % g.cycle)

/-- R419: the time left at a time before the gate of a class closes: none when it never does. -/
def Main.gateLeft (m : Main) (p q t : Nat) : Option Nat :=
  let g := (m.eth p).oper
  let segs := gclSegs g.entries g.cycle
  let at_ := g.entryAt t
  if !m.gating p || segs.all (fun s => bitsOf s.1 q 1 == 1) then none
  else some (openRun q (rotate segs at_.1) - at_.2)

/-- R420: the entry in force at a time holds. -/
def Main.holdAt (m : Main) (p t : Nat) : Bool :=
  let g := (m.eth p).oper
  m.gating p && (g.entries.getD (g.entryAt t).1 (0xFF, 0, false)).2.2

/-- R419: the longest window of a class in the cycle: none when its gate never closes. -/
def Main.gateMax (m : Main) (p q : Nat) : Option Nat :=
  let g := (m.eth p).oper
  let segs := gclSegs g.entries g.cycle
  if !m.gating p || segs.all (fun s => bitsOf s.1 q 1 == 1) then none
  else some ((List.range segs.length).foldl (fun a k => Nat.max a (openRun q (rotate segs k))) 0)

/-- R419: INDEX, GATES and the hold request follow the entry in force. -/
def Main.gclFollow (m : Main) (p : Nat) : Main :=
  let x := m.eth p
  if !m.gating p then
    ((m.set (F.ETH_GCLOPER_GATES p) 0xFF).set (F.ETH_GCLOPER_INDEX p) 0).putEth { x with hold := false }
  else
    let g := x.oper
    let k := (g.entryAt m.now).1
    let e := g.entries.getD k (0xFF, 0, false)
    ((m.set (F.ETH_GCLOPER_GATES p) e.1).set (F.ETH_GCLOPER_INDEX p) k).putEth { x with hold := e.2.2 }

/-- ETH_GCL_ENTRY (R419, R420): the gate control list advances to the entry in force now and issues its hold or release. -/
def execEthGclEntry (p : Fin 7) (s : State) : Host.Outcome State Fault Refusal := s.onMain fun m => m.gclFollow p.val

/-- R419: the first cycle start of a list at or after a time. -/
def cycleStart (base cycle t : Nat) : Nat := if t ≤ base then base else base + (t - base + cycle - 1) / cycle * cycle

/-- ETH_GCL_CHANGE (R419): a write of 1 to CHG latches the admin list, CYCLE and BASE. -/
def Main.gclChange (m : Main) (p : Nat) : Main :=
  let len := m.get (F.ETH_GCLCTL_LEN p)
  let n := if len = 0 then 256 else len
  let es := (List.range n).map (fun k =>
    (m.get (F.ETH_GCL_GATES p k), m.get (F.ETH_GCL_INTERVAL p k), m.flag (F.ETH_GCL_HOLD p k)))
  let g : Gcl := { base := m.get (F.ETH_GCLBASE_BASE p), cycle := m.get (F.ETH_GCLCTL_CYCLE p), entries := es }
  let at_ := if g.cycle = 0 then m.now + 1 else cycleStart g.base g.cycle (Nat.max m.now (m.get (F.ETH_GCLCHG_CHGTIME p)))
  (m.set (F.ETH_GCLCTL_CHG p) 1).putEth { m.eth p with latched := some (g, at_) }

/-- ETH_GCL_CHANGE. -/
def execEthGclChange (p : Fin 7) (s : State) : Host.Outcome State Fault Refusal := s.onMain fun m => m.gclChange p.val

/-- ETH_GCL_ADOPT (R419): the latched list takes effect at its time. -/
def Main.gclAdopt (m : Main) (p : Nat) : Main :=
  let x := m.eth p
  match x.latched with
  | none => m
  | some (g, at_) =>
    if m.now < at_ then m
    else ((m.set (F.ETH_GCLCTL_CHG p) 0).putEth { x with latched := none, oper := g, since := m.now }).gclFollow p

/-- R419: in one step a change that is due takes effect, and the entry in force is followed, before eligibility is judged. -/
def Main.gclDue (m : Main) (p : Nat) : Main :=
  let m := m.gclAdopt p
  if m.gating p then m.gclFollow p else m

/-- ETH_GCL_ADOPT. -/
def execEthGclAdopt (p : Fin 7) (s : State) : Host.Outcome State Fault Refusal := s.onMain fun m => m.gclAdopt p.val

/-- ETH_VERIFY_DONE (R420, R413): the preemption verify procedure ends. -/
def Main.ethVerified (m : Main) (p : Nat) (ok : Bool) : Main :=
  if !m.flag (F.ETH_CFG_VERIFY p) then m else (m.set (F.ETH_STAT_VERIFIED p) (b2n ok)).ethEvent p 4 0

/-- ETH_VERIFY_DONE. -/
def execEthVerifyDone (p : Fin 7) (ok : Bool) (s : State) : Host.Outcome State Fault Refusal :=
  s.onMain fun m => m.ethVerified p.val ok

/-- R415: a rate that a port has, in the code of STAT.SPEED. -/
def ethRateOk (p speed : Nat) : Bool := if p ≤ 3 then decide (speed ≤ 2) else if p = 4 then speed == 1 else speed == 0

/-- ETH_LINK_CHANGE (R413, R415): a link goes up at a rate, or down. -/
def Main.ethLink (m : Main) (p : Nat) (up : Bool) (speed : Nat) : Main :=
  if m.flag (F.ETH_STAT_LINK p) == up || (up && !ethRateOk p speed) then m
  else
    let m := m.set (F.ETH_STAT_LINK p) (b2n up)
    (m.setIf up (F.ETH_STAT_SPEED p) speed).ethEvent p 1 0

/-- ETH_LINK_CHANGE. -/
def execEthLinkChange (p : Fin 7) (up : Bool) (speed : BitVec 2) (s : State) : Host.Outcome State Fault Refusal :=
  s.onMain fun m => m.ethLink p.val up speed.toNat

/-! ### Transmission (R417 to R420) -/

/-- R419: ns from the first preamble bit to the last FCS bit; short frames are padded (IEEE 802.3, log 76). -/
def Main.ethDur (m : Main) (p len : Nat) : Nat := (12 + Nat.max 60 len) * 8 * m.ethBit p

/-- R420: a class that is sent as preemptable. -/
def Main.preemptable (m : Main) (p q : Nat) : Bool :=
  m.flag (F.ETH_STAT_VERIFIED p) && bitsOf (m.get (F.ETH_CFG_FPE p)) q 1 == 1

/-- R419: the indexes of the entries in which the gate of a class is open. -/
def Main.openAt (m : Main) (p q : Nat) : List Nat :=
  let g := (m.eth p).oper
  ((gclSegs g.entries g.cycle).zipIdx.filter (fun s => bitsOf s.1.1 q 1 == 1 && s.1.2 != 0)).map (fun s => s.2)

/-- R418, R419: at a time the gate of a class is open and a frame of it fits. -/
def Main.ethFits (m : Main) (p q dur t : Nat) : Bool :=
  match m.gateLeft p q t with
  | none => true
  | some r => decide (0 < r) && (decide (dur ≤ r) || (m.preemptable p q && !m.holdAt p t))

/-- R418: a frame with a LAUNCH is late: it was not there to send at that time, or its gate was shut or it did not fit. Where another gate
control list was in force then, the command says it. -/
def Main.ethLate (m : Main) (p q i dur launch : Nat) (late : Bool) : Bool :=
  m.lateFor i launch late ||
  (launch != 0 && decide (launch < m.now) && (if launch < (m.eth p).since then late else !m.ethFits p q dur launch))

/-- R419: a frame that fits in no window of the cycle: it is longer than each of them, and of a class that is not preemptable or is held
whenever its gate is open. -/
def Main.ethTooLong (m : Main) (p q dur : Nat) : Bool :=
  match m.gateMax p q with
  | none => false
  | some t => decide (t < dur) &&
    (!m.preemptable p q || (m.openAt p q).all (fun k => ((m.eth p).oper.entries.getD k (0xFF, 0, false)).2.2))

/-- R420: a hold keeps a preemptable class from starting. -/
def Main.ethHeld (m : Main) (p q : Nat) : Bool := m.preemptable p q && (m.eth p).hold

/-- What the MAC does with the head frame of a class. -/
inductive EthAct
  | wait | bad | empty | tooLong | late | send
  deriving DecidableEq, Repr

/-- R412, R418, R419: what the head packet of a class asks for now. -/
def Main.ethAct (m : Main) (p q i : Nat) (ws : List Nat) (late : Bool) : EthAct :=
  let w0 := ws.getD 0 0
  let len := bitsOf w0 0 16
  let launch := ws.getD 1 0
  let dur := m.ethDur p len
  if ws = [] then .empty
  else if ws.length ≠ 2 + wordsFor len ∨ len < 14 ∨ m.get (F.ETH_CFG_MAXLEN p) < len + 4 then .bad
  else if m.ethTooLong p q dur then .tooLong
  else if m.now < launch ∨ m.now < (m.eth p).pause ∨ m.ethFits p q dur m.now = false then .wait
  else if m.ethLate p q i dur launch late = true ∧ m.flag (F.ETH_CFG_LATEPOL p) = true then .late
  else if m.ethHeld p q then .wait
  else .send

/-- R417: a transmit timestamp enters the queue. -/
def Main.txtsPush (m : Main) (p tag time : Nat) : Main :=
  let x := m.eth p
  let full := decide (16 ≤ x.txts.length)
  let q := (if full then x.txts.drop 1 else x.txts) ++ [(tag, time)]
  let m := if full then m.bump (F.ETH_CNT_TSLOST p) else m
  (m.putEth { x with txts := q }).ethEvent p 2 tag

/-- The bytes of a frame on the medium, with its FCS; short frames are padded (log 76). -/
def frameBytes (ws : List Nat) : Nat := Nat.max 60 (bitsOf (ws.getD 0 0) 0 16) + 4

/-- R420: the MAC transmits a frame from where it stands; the medium is then occupied, the gap after a frame included (log 76). -/
def Main.ethStart (m : Main) (p : Nat) (t : EthTx) : Main :=
  m.putEth { m.eth p with tx := some { t with start := m.now }, wire := t.ws
                          busy := m.now + (8 + (frameBytes t.ws - t.done) + 12) * 8 * m.ethBit p }

/-- R417, R418: a frame goes out; one that is late is counted. -/
def Main.ethSend (m : Main) (p q : Nat) (ws : List Nat) (late : Bool) : Main :=
  let w0 := ws.getD 0 0
  let m := m.ethStart p { ws := ws, cls := q, pre := m.preemptable p q, done := 0, start := m.now }
  let m := if late then m.bump (F.ETH_CNT_LATE p) else m
  if bitsOf w0 16 1 = 1 then
    m.txtsPush p (bitsOf w0 32 16) (m.now + 64 * m.ethBit p + m.ethLat p F.ETH_LAT_TXLAT)
  else m

/-- R420: how much of a preemptable frame will have been carried if it is cut now: a fragment of the least size that FRAGSZ gives has gone
and another one remains (IEEE 802.3br, PRESUMED, log 76). -/
def Main.ethCut (m : Main) (p : Nat) (t : EthTx) : Option Nat :=
  let gone := (m.now - t.start) / (8 * m.ethBit p) - 8
  if t.pre && decide (64 * (1 + m.get (F.ETH_CFG_FRAGSZ p)) ≤ gone + 4 ∧ t.done + gone + 64 ≤ frameBytes t.ws) then some (t.done + gone) else none

/-- What the head packets of the classes ask for, the highest class first. -/
def Main.ethActs (m : Main) (p : Nat) (late : Bool) : List (Nat × Nat × List Nat × EthAct) :=
  (List.range 8).reverse.filterMap (fun q =>
    match m.unitTxRn p q with
    | none => none
    | some i => match m.unitHead i with
      | none => none
      | some ws => match m.ethAct p q i ws late with
        | .wait => none
        | a => some (q, i, ws, a))

/-- R420: an express frame, or a hold, preempts the frame in transmission at its next fragment boundary; the fragment's mCRC and the gap
follow it. -/
def Main.ethPreempt (m : Main) (p : Nat) (t : EthTx) (late : Bool) : Main :=
  let x := m.eth p
  let express := (m.ethActs p late).any (fun a => a.2.2.2 == .send && !m.preemptable p a.1)
  match (if x.hold || express then m.ethCut p t else none) with
  | some k => m.putEth { x with tx := none, paused := some { t with done := k }, busy := m.now + 16 * 8 * m.ethBit p }
  | none => m

/-- The MAC deals with the head packet of a class. -/
def Main.ethDo (m : Main) (p q i : Nat) (ws : List Nat) (a : EthAct) (late : Bool) (ecc : List Ecc) : Main :=
  let was := m.ethLate p q i (m.ethDur p (bitsOf (ws.getD 0 0) 0 16)) (ws.getD 1 0) late
  if ecc.contains .uncorrectable then m.unitLose i ecc
  else
    let m := m.unitTake i ecc
    match a with
    | .bad => m.bump (F.ETH_STAT_TXERR p)
    | .tooLong => m.bump (F.ETH_CNT_TOOLONG p)
    | .late => m.bump (F.ETH_CNT_LATE p)
    | .send => m.ethSend p q ws was
    | _ => m

/-- ETH_FRAME_TRANSMIT (R418, R420): the highest class whose head packet asks for something is served, once the medium is free; a preempted
frame resumes when no express one goes before it and no hold is in force. -/
def Main.ethTransmit (m : Main) (p : Nat) (late : Bool) (rd : RnRd) : Main :=
  let m := (m.unitSees p rd.lag).gclDue p
  let x := m.eth p
  if m.now < x.busy then
    match x.tx with
    | some t => m.ethPreempt p t late
    | none => m
  else
    let acts := (m.ethActs p late).filter (fun a => !(x.paused.isSome && a.2.2.2 == .send && m.preemptable p a.1))
    match acts, x.paused with
    | (q, i, ws, a) :: _, _ => m.ethDo p q i ws a late rd.ecc
    | [], some t => if x.hold then m else (m.putEth { x with paused := none }).ethStart p t
    | [], none => m

/-- ETH_FRAME_TRANSMIT: late says that the frame became eligible only after its LAUNCH, where the state does not show it. -/
def execEthFrameTransmit (p : Fin 7) (late : Bool) (rd : RnRd) (s : State) : Host.Outcome State Fault Refusal :=
  s.onMain fun m => m.ethTransmit p.val late rd

/-- TXTS_READ (R434): a read of TXTSTIME removes the head entry. -/
def Main.txtsRead (m : Main) (p : Nat) : Main := m.putEth { m.eth p with txts := (m.eth p).txts.drop 1 }

/-- TXTS_READ. -/
def execTxtsRead (p : Fin 7) (s : State) : Host.Outcome State Fault Refusal := s.onMain fun m => m.txtsRead p.val

/-- A write to ETH[p].CFG (R434). -/
def Main.ethCfgWrite (m : Main) (p v : Nat) : Main :=
  let m := ((m.set (F.ETH_CFG_PROMISC p) (bitsOf v 0 1)).set (F.ETH_CFG_PAUSEEN p) (bitsOf v 1 1)).set (F.ETH_CFG_LATEPOL p)
    (bitsOf v 2 1)
  let m := if bitsOf v 14 1 = m.get (F.ETH_CFG_GATEEN p) then m else m.putEth { m.eth p with since := m.now }
  let m := ((m.set (F.ETH_CFG_MAXLEN p) (bitsOf v 3 11)).set (F.ETH_CFG_GATEEN p) (bitsOf v 14 1)).set (F.ETH_CFG_FPE p)
    (bitsOf v 15 8)
  ((m.set (F.ETH_CFG_VERIFY p) (bitsOf v 23 1)).set (F.ETH_CFG_FRAGSZ p) (bitsOf v 24 2)).gclFollow p

/-- A write to ETH[p].GCLCTL (R434). -/
def Main.gclCtlWrite (m : Main) (p v : Nat) : Main :=
  let m := (m.set (F.ETH_GCLCTL_CYCLE p) (bitsOf v 0 32)).set (F.ETH_GCLCTL_LEN p) (bitsOf v 32 8)
  if bitsOf v 40 1 = 1 then m.gclChange p else m

/-! ### MDIO (R434) -/

/-- MDIO_FRAME, a write of the register: OP starts the frame; while one is in progress it is ignored. -/
def Main.mdioWrite (m : Main) (v : Nat) : Main :=
  let m := (((m.set F.ETH_MDIO_PHYAD (bitsOf v 0 5)).set F.ETH_MDIO_REGAD (bitsOf v 5 5)).set F.ETH_MDIO_CFT (bitsOf v 10 1)).set F.ETH_MDIO_DATA
    (bitsOf v 16 16)
  let op := bitsOf v 11 2
  if op = 0 ∨ m.comm.mdio ≠ 0 then m
  else { m.set F.ETH_MDIO_BUSY 1 with comm := { m.comm with mdio := op } }

/-- MDIO_FRAME, its completion: a read leaves the data. -/
def Main.mdioDone (m : Main) (data : Nat) : Main :=
  if m.comm.mdio = 0 then m
  else
    let m' : Main := { m.set F.ETH_MDIO_BUSY 0 with comm := { m.comm with mdio := 0 } }
    if m.comm.mdio = 2 then m'.set F.ETH_MDIO_DATA data else m'

/-- MDIO_FRAME. -/
def execMdioFrame (ev : MdioEv) (s : State) : Host.Outcome State Fault Refusal :=
  s.onMain fun m => match ev with
    | .start v => m.mdioWrite v.toNat
    | .done d => m.mdioDone d.toNat

/-! ### Wall time (R203, R413, R421) -/

/-- R421: the paths that may write RATE, STEP and LOCKED. -/
def Path.servo (p : Path) : Bool := p == .ctx0 || p == .ctx255

/-- TIME_STEP_WRITE (R421): a positive step advances wall time; a negative or zero one is ignored. -/
def Main.timeStep (m : Main) (p : Path) (v : Nat) : Main :=
  if !p.servo then m
  else if sgn 64 v ≤ 0 then m.set F.TIME_STAT_STEPREF 1
  else { m with wall := { m.wall with ns := (m.wall.ns + v % 2 ^ 64) } }

/-- TIME_STEP_WRITE. -/
def execTimeStepWrite (p : Path) (v : Word) (s : State) : Host.Outcome State Fault Refusal :=
  s.onMain fun m => m.regCmd p .TIME_STEP v.toNat fun m => m.timeStep p v.toNat

/-- A write to TIME.STAT (R413, R421). -/
def Main.timeStatWrite (m : Main) (p : Path) (v : Nat) : Main :=
  let m := (m.setIf (bitsOf v 1 1 == 1) F.TIME_STAT_STEPREF 0).set F.TIME_STAT_DOMAIN (bitsOf v 8 8)
  if !p.servo || m.get F.TIME_STAT_LOCKED == bitsOf v 0 1 then m
  else (m.set F.TIME_STAT_LOCKED (bitsOf v 0 1)).event 544 (bitsOf v 0 1)

/-- WHOLE_SECOND (R413): the next whole second of reference 1 has passed. -/
def Main.wholeSecond (m : Main) : Main :=
  if m.wall.ns / 1000000000 ≤ m.wall.sec then m
  else
    let m' : Main := { m with wall := { m.wall with sec := m.wall.sec + 1 } }
    m'.event 545 m'.wall.sec

/-- WHOLE_SECOND. -/
def execWholeSecond (s : State) : Host.Outcome State Fault Refusal := s.onMain Main.wholeSecond

end Sys2Proof.Machine
end

