-- ==== Sys2Proof/Machine/Comm.lean ====
section
/-! DEFINITION. CAN, UARTs, the PCIe host channels, USB and storage (R422 to R429). -/

namespace Sys2Proof.Machine

/-! ### CAN (R422, R423) -/

/-- The CAN controller of a number. -/
def Main.can (m : Main) (c : Nat) : CanSt := (m.comm.cans.find? (fun x => x.c == c)).getD { c := c, wire := [] }

/-- Store a CAN controller. -/
def Main.putCan (m : Main) (x : CanSt) : Main :=
  { m with comm := { m.comm with cans := m.comm.cans.filter (fun y => y.c != x.c) ++ [x] } }

/-- Event 520 + c (R413): a cause and the state of the controller. -/
def Main.canEvent (m : Main) (c cause : Nat) : Main := m.event (520 + c) (cause + m.get (F.CAN_STAT_STATE c) * 16)

/-- The error counters take new values and the error state follows (R423; the rules of ISO 11898-1 are PRESUMED, log 83). -/
def Main.canCounts (m : Main) (c rec tec : Nat) : Main :=
  let st := if 255 < tec then 2 else if 127 < tec ∨ 127 < rec then 1 else 0
  let old := m.get (F.CAN_STAT_STATE c)
  let m := ((m.set (F.CAN_STAT_REC c) (Nat.min 255 rec)).set (F.CAN_STAT_TEC c) (Nat.min 255 tec)).set (F.CAN_STAT_STATE c) st
  if st = old then m else m.canEvent c 1

/-- The data bytes that a DLC stands for (R412). -/
def dlcBytes (fdf rtr : Bool) (dlc : Nat) : Nat :=
  if !fdf then (if rtr then 0 else Nat.min 8 dlc)
  else if dlc ≤ 8 then dlc else [12, 16, 20, 24, 32, 48, 64].getD (dlc - 9) 64

/-- R412: word 0 of a CAN packet. -/
def canWord (f : CanFrame) : Nat :=
  (if f.ide then f.id.toNat else f.id.toNat % 2 ^ 11) + b2n f.ide * 2 ^ 29 + b2n f.rtr * 2 ^ 30 + b2n f.fdf * 2 ^ 31 +
    b2n f.brs * 2 ^ 32 + b2n f.esi * 2 ^ 33 + f.dlc.toNat * 2 ^ 34 + Nat.min 64 f.data.length * 2 ^ 38

/-- R423: a filter accepts a frame; no enabled filter accepts every frame. -/
def Main.canAccepts (m : Main) (c : Nat) (f : CanFrame) : Bool :=
  let on := (List.range 32).filter (fun k => m.flag (F.CAN_FLT_EN c k))
  on.isEmpty || on.any (fun k =>
    (canWord f % 2 ^ 29 ^^^ m.get (F.CAN_FLT_ID c k)) &&& m.get (F.CAN_FLT_MASK c k) == 0 && f.ide == m.flag (F.CAN_FLT_IDE c k))

/-- CAN_FRAME_RECEIVE (R422, R423): a good frame is filtered and committed, a CAN FD one only with FD 1 (log 205); an error raises the receive
error count. -/
def Main.canReceive (m : Main) (c : Nat) (rx : CanRx) (sof : Nat) (io : RnIo) : Main :=
  let rec_ := m.get (F.CAN_STAT_REC c)
  let tec := m.get (F.CAN_STAT_TEC c)
  if !m.live (.iface (0x10 + c)) || m.get (F.CAN_CFG_MODE c) == 0 || m.get (F.CAN_STAT_STATE c) == 2 then m
  else match rx with
  | .error => m.canCounts c (rec_ + 1) tec
  | .frame f own =>
    let p := if own then (0, m) else if rec_ ≤ 127 then (rec_ - 1, m)
      else (fun (r : Nat × Main) => (119 + r.1 % 9, r.2)) m.takeFree
    let m := if own then m else p.2.canCounts c p.1 tec
    if (own && !m.flag (F.CAN_CFG_SELFRX c)) || (f.fdf && !m.flag (F.CAN_CFG_FD c)) || !m.canAccepts c f then m
    else
      let ws := canWord f :: sof :: packBytes ((f.data.take 64).map BitVec.toNat)
      let r := match m.unitRx (0x10 + c) with
        | some i => m.rnUnitCommit i (ws.map (opnd tyInt)) io
        | none => (false, m)
      if r.1 then r.2 else (r.2.bump (F.CAN_STAT_RXDROP c)).canEvent c 2

/-- CAN_FRAME_RECEIVE. -/
def execCanFrameReceive (c : Fin 4) (rx : CanRx) (sof : Nat) (io : RnIo) (s : State) : Host.Outcome State Fault Refusal :=
  s.onMain fun m => m.canReceive c.val rx sof io

/-- R412, R422: a CAN packet whose word count matches its word 0, and which asks for no CAN FD frame with FD 0 (log 205). -/
def canWellFormed (fd : Bool) (ws : List Nat) : Bool :=
  let w := ws.getD 0 0
  (fd || bitsOf w 31 1 == 0) &&
  ws.length == 2 + wordsFor (dlcBytes (bitsOf w 31 1 == 1) (bitsOf w 30 1 == 1) (bitsOf w 34 4))

/-- R423: among the heads of the TX runnels, the packet to deal with: one that is empty or malformed, else the eligible frame with
the lowest ID, the lowest runnel first. -/
def Main.canPick (m : Main) (c : Nat) : Option (Nat × List Nat) :=
  let heads := (List.range 4).filterMap (fun k => (m.unitTxRn (0x10 + c) k).bind (fun i => (m.unitHead i).map (fun ws => (i, ws))))
  match heads.find? (fun h => !canWellFormed (m.flag (F.CAN_CFG_FD c)) h.2) with
  | some h => some h
  | none =>
    (heads.filter (fun h => decide (h.2.getD 1 0 ≤ m.now))).foldl (fun (a : Option (Nat × List Nat)) h =>
      match a with
      | none => some h
      | some b => if h.2.getD 0 0 % 2 ^ 29 < b.2.getD 0 0 % 2 ^ 29 then some h else a) none

/-- CAN_FRAME_TRANSMIT (R423): the frame that the controller offers is sent, loses arbitration, or meets an error. -/
def Main.canTransmit (m : Main) (c : Nat) (res : CanTx) (late : Bool) (rd : RnRd) : Main :=
  let m := m.unitSees (0x10 + c) rd.lag
  let ecc := rd.ecc
  let mode := m.get (F.CAN_CFG_MODE c)
  if (mode ≠ 1 ∧ mode ≠ 3) ∨ m.get (F.CAN_STAT_STATE c) = 2 then m
  else match m.canPick c with
  | none => m
  | some (i, ws) =>
    let rec_ := m.get (F.CAN_STAT_REC c)
    let tec := m.get (F.CAN_STAT_TEC c)
    let drop := fun (m : Main) => m.unitTake i ecc
    if ecc.contains .uncorrectable then m.unitLose i ecc
    else if ws = [] then drop m
    else if !canWellFormed (m.flag (F.CAN_CFG_FD c)) ws then (drop m).bump (F.CAN_STAT_TXERR c)
    else if m.lateFor i (ws.getD 1 0) late = true ∧ m.flag (F.CAN_CFG_LATEPOL c) = true then drop m
    else
      let once := m.flag (F.CAN_CFG_ONESHOT c)
      match res with
      | .sent => ((drop m).putCan { m.can c with wire := ws }).canCounts c rec_ (tec - 1)
      | .lost => if once then drop m else m
      | .error => ((if once then drop m else m).canCounts c rec_ (tec + 8)).canEvent c 3

/-- CAN_FRAME_TRANSMIT. -/
def execCanFrameTransmit (c : Fin 4) (res : CanTx) (late : Bool) (rd : RnRd) (s : State) : Host.Outcome State Fault Refusal :=
  s.onMain fun m => m.canTransmit c.val res late rd

/-- CAN_BUS_OFF_RECOVERY (R423): with AUTOREC 1 a bus-off controller rejoins after 128 × 11 recessive bits. -/
def Main.canRecover (m : Main) (c : Nat) : Main :=
  if m.get (F.CAN_STAT_STATE c) = 2 ∧ m.flag (F.CAN_CFG_AUTOREC c) = true then m.canCounts c 0 0 else m

/-- CAN_BUS_OFF_RECOVERY. -/
def execCanBusOffRecovery (c : Fin 4) (s : State) : Host.Outcome State Fault Refusal := s.onMain fun m => m.canRecover c.val

/-- A write to CAN[c].CFG (R423, R435): with AUTOREC 0 the write of MODE lets a bus-off controller rejoin. -/
def Main.canCfgWrite (m : Main) (c v : Nat) : Main :=
  let m := ((m.set (F.CAN_CFG_MODE c) (bitsOf v 0 2)).set (F.CAN_CFG_FD c) (bitsOf v 2 1)).set (F.CAN_CFG_AUTOREC c) (bitsOf v 3 1)
  let m := ((m.set (F.CAN_CFG_ONESHOT c) (bitsOf v 4 1)).set (F.CAN_CFG_SELFRX c) (bitsOf v 5 1)).set (F.CAN_CFG_LATEPOL c)
    (bitsOf v 6 1)
  if m.get (F.CAN_STAT_STATE c) = 2 ∧ m.flag (F.CAN_CFG_AUTOREC c) = false then m.canCounts c 0 0 else m

/-! ### UARTs (R424, R425) -/

/-- The UART of a number. -/
def Main.uart (m : Main) (n : Nat) : UartSt :=
  (m.comm.uarts.find? (fun x => x.n == n)).getD
    { n := n, bytes := [], count := 0, first := 0, flags := 0, dropping := false, bound := 0, txEnd := 0, deEnd := 0, wire := [] }

/-- Store a UART. -/
def Main.putUart (m : Main) (x : UartSt) : Main :=
  { m with comm := { m.comm with uarts := m.comm.uarts.filter (fun y => y.n != x.n) ++ [x] } }

/-- Event 528 + n (R413). -/
def Main.uartEvent (m : Main) (n cause : Nat) : Main := m.event (528 + n) cause

/-- A unit keeps the words of a packet that it has not committed yet in its runnel: false when they find no room. A write fault aborts the
packet, whose further words are accepted and discarded (R144, R311). -/
def Main.rnUnitHold (m : Main) (i : Nat) (words : List Nat) (io : RnIo) : Bool × Main :=
  let m := m.rnSeeFrees 0 i io.lag
  let r := m.rn 0 i
  let s := match r.open_ with
    | some p => (p, m)
    | none =>
      let s := m.rnSerial 0 i
      ({ serial := s.1, next := 0, words := [], doomed := false, aborted := false, by_ := none, via := [] }, s.2)
  if !m.live (.runnel 0 i) then (false, m)
  else if s.1.aborted then (true, m)
  else if !m.rnRoomFor { r with open_ := none } words.length then (false, m)
  else
    let keep := fun (m : Main) (o : OpenPkt) => (true, m.putRn { m.rn 0 i with open_ := some o })
    if io.ecc = .uncorrectable then keep (s.2.bump (F.RUNNEL_STAT_ABORTS 0 i)) { s.1 with words := [], aborted := true }
    else keep s.2 { s.1 with next := words.length, words := words.map (opnd tyInt) }

/-- A unit drops the packet that it has not committed. -/
def Main.rnUnitCancel (m : Main) (i : Nat) : Main := m.putRn { m.rn 0 i with open_ := none }

/-- A unit closes the packet that it keeps: it is committed with its final words, or vanishes when it has been aborted; a write fault on
them aborts it (R144, R311). -/
def Main.rnUnitClose (m : Main) (i : Nat) (words : List Nat) (ecc : Ecc) : Main :=
  match (m.rn 0 i).open_ with
  | none => m
  | some p =>
    if p.aborted then m.rnUnitCancel i
    else if ecc = .uncorrectable then (m.rnUnitCancel i).bump (F.RUNNEL_STAT_ABORTS 0 i)
    else (m.rnCommit 0 i p.serial (words.map (opnd tyInt)) none).2

/-- R412: the packet of a received message; END 0 idle, 1 delimiter, 2 MAXLEN. -/
def uartPacket (x : UartSt) (end_ : Nat) : List Nat :=
  (x.bytes.length % 2 ^ 16 + x.flags * 2 ^ 16 + end_ * 2 ^ 19) :: x.first :: packBytes x.bytes

/-- R424: ns that a number of bit times take. -/
def Main.uartBits (m : Main) (n bits : Nat) : Nat :=
  bits * (if m.flag (F.UART_CFG_OVSEIGHT n) then 8 else 16) * m.get (F.UART_CFG_DIV n) * 5 / 1024

/-- Bit times of a character (R424). -/
def Main.uartChar (m : Main) (n : Nat) : Nat :=
  1 + (if m.flag (F.UART_CFG_SEVEN n) then 7 else 8) + (if m.get (F.UART_CFG_PARITY n) = 0 then 0 else 1) +
    (if m.flag (F.UART_CFG_STOPTWO n) then 2 else 1)

/-- R425: at a time the line has been idle for IDLE bit times since the last character. -/
def Main.uartIdle (m : Main) (n t : Nat) : Bool :=
  m.get (F.UART_MSG_IDLE n) != 0 && decide ((m.uart n).last + m.uartBits n (m.get (F.UART_MSG_IDLE n)) ≤ t)

/-- R425: the message ends at a boundary: the one that has been reached, or at a time an idle line. -/
def Main.uartEnd (m : Main) (n t : Nat) (ecc : Ecc) : Main :=
  let x := m.uart n
  if x.count = 0 ∨ (x.bound = 0 ∧ m.uartIdle n t = false) then m
  else
    let m := if x.dropping then m
      else match m.unitRx (0x20 + n) with
        | some i => m.rnUnitClose i (uartPacket x (x.bound - 1)) ecc
        | none => m
    m.putUart { x with bytes := [], count := 0, flags := 0, dropping := false, bound := 0 }

/-- UART_MESSAGE_END (R425). -/
def execUartMessageEnd (e : MsgEnd) (s : State) : Host.Outcome State Fault Refusal := s.onMain fun m => m.uartEnd e.n.val m.now e.ecc

/-- UART_CHARACTER_RECEIVE (R425): a character or break arrives; one that finds no room drops its whole message. A message whose boundary came
before it has ended. -/
def Main.uartReceive (m : Main) (n ch : Nat) (fe pe brk : Bool) (start : Nat) (io : RnIo) : Main :=
  let deaf := m.get (F.UART_CFG_LINE n) == 2 && !m.flag (F.UART_CFG_ECHO n) && decide (start < (m.uart n).deEnd)
  if !m.live (.iface (0x20 + n)) || deaf then m
  else
    let m := m.uartEnd n start .ok
    let x := m.uart n
    let ch := ch % if m.flag (F.UART_CFG_SEVEN n) then 128 else 256
    let m := if fe then m.bump (F.UART_STAT_FE n) else m
    let m := if pe then m.bump (F.UART_STAT_PE n) else m
    let m := if brk then m.uartEvent n 1 else m
    let flag := fun (b : Bool) (k old : Nat) => if b && bitsOf old k 1 == 0 then old + 2 ^ k else old
    let x := { x with first := if x.count = 0 then start else x.first, count := x.count + 1,
                      last := start + m.uartBits n (m.uartChar n),
                      flags := flag brk 2 (flag pe 1 (flag fe 0 x.flags)), bytes := if x.dropping then x.bytes else x.bytes ++ [ch] }
    let bound := if m.flag (F.UART_MSG_DELEN n) && ch == m.get (F.UART_MSG_DELIM n) then 2
      else if Nat.max 1 (m.get (F.UART_MSG_MAXLEN n)) ≤ x.count then 3 else 0
    let x := { x with bound := bound }
    if x.dropping then m.putUart x
    else
      let r := match m.unitRx (0x20 + n) with
        | some i => (m.rnUnitHold i (uartPacket x 0) io, some i)
        | none => ((false, m), none)
      if r.1.1 then r.1.2.putUart x
      else
        let m := match r.2 with
          | some i => m.rnUnitCancel i
          | none => m
        ((m.bump (F.UART_STAT_DROPS n)).uartEvent n 2).putUart { x with bytes := [], dropping := true }

/-- UART_CHARACTER_RECEIVE: the character, framing and parity error, break, and the time of its start bit. -/
def execUartCharacterReceive (n : Fin 16) (ch : BitVec 8) (fe pe brk : Bool) (start : Nat) (io : RnIo) (s : State) :
    Host.Outcome State Fault Refusal :=
  s.onMain fun m => m.uartReceive n.val ch.toNat fe pe brk start io

/-- R425: when the characters of a packet start, from a time on: each after the one before and the time for which CTS holds it back. -/
def Main.uartStarts (m : Main) (n : Nat) : Nat → Nat → List Nat → List Nat
  | 0, _, _ => []
  | k + 1, t, waits =>
    let s := t + (if m.get (F.UART_CFG_LINE n) = 1 then waits.headD 0 else 0)
    s :: m.uartStarts n k (s + m.uartBits n (m.uartChar n)) waits.tail

/-- R425: the time from which a packet may be sent: under LINE 2, DE comes DEG bit times before the first start bit. -/
def Main.uartLead (m : Main) (n : Nat) : Nat :=
  if m.get (F.UART_CFG_LINE n) = 2 then m.uartBits n (m.get (F.UART_MSG_DEG n)) else 0

/-- R425: until when DE is asserted once the characters of a packet have been given their starts and end: DEG bit times after the last. -/
def Main.uartDe (m : Main) (n : Nat) (starts : List Nat) (e : Nat) : Nat :=
  if m.get (F.UART_CFG_LINE n) = 2 ∧ starts ≠ [] then e + m.uartLead n else (m.uart n).deEnd

/-- UART_TRANSMIT (R424, R425): a packet's characters are sent back to back from LAUNCH; waits is the time in ns for which CTS keeps each of
them from starting (LINE 1). -/
def Main.uartTransmit (m : Main) (n : Nat) (waits : List Nat) (late : Bool) (rd : RnRd) : Main :=
  let m := m.unitSees (0x20 + n) rd.lag
  let ecc := rd.ecc
  match m.unitTxRn (0x20 + n) 0 with
  | none => m
  | some i => match m.unitHead i with
    | none => m
    | some ws =>
      let x := m.uart n
      let len := bitsOf (ws.getD 0 0) 0 16
      let launch := ws.getD 1 0
      let lead := m.uartLead n
      if m.now < x.txEnd then m
      else if ecc.contains .uncorrectable then m.unitLose i ecc
      else if ws = [] then m.unitTake i ecc
      else if ws.length ≠ 2 + wordsFor len then (m.unitTake i ecc).bump (F.UART_STAT_TXERR n)
      else if m.now + lead < launch then m
      else if m.lateFor i launch late = true ∧ m.flag (F.UART_CFG_LATEPOL n) = true then m.unitTake i ecc
      else
        let starts := m.uartStarts n len (Nat.max launch (m.now + lead)) waits
        let e := starts.getLast?.elim m.now (fun t => t + m.uartBits n (m.uartChar n))
        let bytes := (unpackBytes (ws.drop 2) len).map (fun b => b % if m.flag (F.UART_CFG_SEVEN n) then 128 else 256)
        (m.unitTake i ecc).putUart { x with starts := starts, txEnd := e, deEnd := m.uartDe n starts e, wire := bytes }

/-- UART_TRANSMIT. -/
def execUartTransmit (n : Fin 16) (waits : List Nat) (late : Bool) (rd : RnRd) (s : State) : Host.Outcome State Fault Refusal :=
  s.onMain fun m => m.uartTransmit n.val waits late rd

/-- R411: a UART that goes idle: the character in transmission completes, and no other one starts. -/
def Main.uartStop (m : Main) (n : Nat) : Main :=
  let x := m.uart n
  let begun := x.starts.filter (fun t => decide (t ≤ m.now))
  if x.txEnd ≤ m.now then m
  else
    let e := begun.getLast?.elim m.now (fun t => t + m.uartBits n (m.uartChar n))
    m.putUart { x with starts := begun, txEnd := e, deEnd := m.uartDe n begun e, wire := x.wire.take begun.length }

/-- R425: RTS on the DE pin under LINE 1: deasserted while the RX runnel has fewer than 16 free slots. -/
def Main.uartRts (m : Main) (n : Nat) : Bool :=
  match m.unitRx (0x20 + n) with
  | some i => decide (16 ≤ m.rnCap 0 i - ((m.rn 0 i).occ + (m.rn 0 i).frees.length))
  | none => false

/-! ### PCIe host (R426, R427) -/

/-- PCIE_DOORBELL (R426): raises event 960 + D. -/
def Main.doorbell (m : Main) (v : Nat) : Main := m.event (960 + v % 16) (bitsOf v 32 32)

/-- PCIE_DOORBELL. -/
def execPcieDoorbell (v : Word) (s : State) : Host.Outcome State Fault Refusal := s.onMain fun m => m.regCmd .host .PCIE_DOORBELL v.toNat fun m => m.doorbell v.toNat

/-- R551: the session of a path, if it has one, ends. -/
def Main.sessionEnd (m : Main) (path : Nat) : Main :=
  if m.flag F.SEC_STAT_SESSION && m.get F.SEC_STAT_PATH == path then
    ((m.set F.SEC_STAT_SESSION 0).set F.SEC_STAT_LEVEL 0).set F.SEC_STAT_PATH 0
  else m

/-- PCIE_LINK_EVENT (R413, R426, R437, R551): a link comes up at a rate and width that the endpoint has, or goes down. -/
def Main.pcieLink (m : Main) (ev : PcieEv) : Main :=
  match ev with
  | .up sp w =>
    if sp = 0 ∨ 4 < sp.toNat ∨ ¬[1, 2, 4].contains w.toNat then m
    else (((m.set F.PCIE_LINK_UP 1).set F.PCIE_LINK_SPEED sp.toNat).set F.PCIE_LINK_WIDTH w.toNat).event 976 1
  | .down => ((((m.set F.PCIE_LINK_UP 0).set F.PCIE_LINK_SPEED 0).set F.PCIE_LINK_WIDTH 0).event 976 2).sessionEnd 0
  | .perst => m.event 976 3

/-- PCIE_LINK_EVENT. -/
def execPcieLinkEvent (ev : PcieEv) (s : State) : Host.Outcome State Fault Refusal := s.onMain fun m => m.pcieLink ev

/-- Ring entries of a LOGSIZE (R437). -/
def ringSize (log : Nat) : Nat := 2 ^ Nat.max 4 (Nat.min 16 log)

/-- R427: a completed entry is written back to its host address, and sends its vector when IRQ is 1. -/
def Main.ringDone (m : Main) (pa : Nat) (e : RingEnt) (irq : Bool) (c : Nat) : Main :=
  { m with comm := { m.comm with ring := some (pa, e), vector := if irq then some c else m.comm.vector } }

/-- HTD_ENTRY (R427): the entry at HEAD of a host-to-device ring, which lies at RING + 16 × HEAD of host memory. -/
def Main.htdEntry (m : Main) (c : Nat) (e : RingEnt) (io : RnIo) : Main :=
  let size := ringSize (m.get (F.PCIE_CH_HTDCTL_LOGSIZE c))
  let head := m.get (F.PCIE_CH_HTDCTL_HEAD c) % size
  let irq := m.flag (F.PCIE_CH_HTDCTL_IRQ c)
  let n := e.words.toNat
  if !m.live (.iface (0x30 + c)) || head == m.get (F.PCIE_CH_HTDCTL_TAIL c) % size || !e.dev then m
  else
    let next := fun (m : Main) (err : Bool) =>
      (m.set (F.PCIE_CH_HTDCTL_HEAD c) ((head + 1) % size)).ringDone (m.get (F.PCIE_CH_HTD_RING c) + 16 * head)
        { e with dev := false, err := err } irq c
    if e.len.toNat < n * 8 then next m true
    else match m.unitRx (0x30 + c) with
    | none => m
    | some i =>
      let r := m.rnUnitCommit i (if n = 0 then [emptyPkt] else (e.data.take n).map (fun w => opnd tyInt w.toNat)) io
      if r.1 then next r.2 false else r.2

/-- HTD_ENTRY: the entry as the device reads it, with the words of its buffer. -/
def execHtdEntry (c : Fin 8) (e : RingEnt) (io : RnIo) (s : State) : Host.Outcome State Fault Refusal :=
  s.onMain fun m => m.htdEntry c.val e io

/-- DTH_ENTRY (R427): a committed packet fills the entry at HEAD of a device-to-host ring; the bytes of a word that LEN cuts are
written, and WORDS counts whole words (log 183). -/
def Main.dthEntry (m : Main) (c : Nat) (e : RingEnt) (rd : RnRd) : Main :=
  let m := m.unitSees (0x30 + c) rd.lag
  let ecc := rd.ecc
  let size := ringSize (m.get (F.PCIE_CH_DTHCTL_LOGSIZE c))
  let head := m.get (F.PCIE_CH_DTHCTL_HEAD c) % size
  let irq := m.flag (F.PCIE_CH_DTHCTL_IRQ c)
  if head == m.get (F.PCIE_CH_DTHCTL_TAIL c) % size || !e.dev then m
  else match m.unitTxRn (0x30 + c) 0 with
  | none => m
  | some i => match m.unitHead i with
    | none => m
    | some ws =>
      if ecc.contains .uncorrectable then m.unitLose i ecc
      else
        let n := Nat.min ws.length (e.len.toNat / 8)
        let part := if n < ws.length ∧ e.len.toNat % 8 ≠ 0 then [w64 (ws.getD n 0 % 2 ^ (8 * (e.len.toNat % 8)))] else []
        let m := m.unitTake i ecc
        (m.set (F.PCIE_CH_DTHCTL_HEAD c) ((head + 1) % size)).ringDone (m.get (F.PCIE_CH_DTH_RING c) + 16 * head)
          { e with dev := false, err := decide (e.len.toNat < 8 * ws.length), words := BitVec.ofNat 16 n,
                   data := (ws.take n).map w64 ++ part } irq c

/-- DTH_ENTRY: the entry as the device reads it. -/
def execDthEntry (c : Fin 8) (e : RingEnt) (rd : RnRd) (s : State) : Host.Outcome State Fault Refusal :=
  s.onMain fun m => m.dthEntry c.val e rd

/-- MSIX_WRITE (R427): a PSTORE of context 0 or 255 sends a vector from 8 to 63; no mask is held (log 206). -/
def Main.msixWrite (m : Main) (p : Path) (v : Nat) : Main :=
  if p.servo && decide (8 ≤ v % 64) then { m with comm := { m.comm with vector := some (v % 64) } } else m

/-- MSIX_WRITE. -/
def execMsixWrite (p : Path) (v : Word) (s : State) : Host.Outcome State Fault Refusal := s.onMain fun m => m.regCmd p .PCIE_MSIX v.toNat fun m => m.msixWrite p v.toNat

/-! ### USB (R428) -/

/-- USB_OUT_TRANSFER (R428): a bulk OUT transfer becomes one packet; without room it is not taken. -/
def Main.usbOut (m : Main) (k : Nat) (bs : List Nat) (io : RnIo) : Main :=
  if m.get F.USB_STAT_STATE ≠ 3 then m
  else match m.unitRx (0x38 + k) with
  | none => m
  | some i => match m.rnUnitCommit i ((bs.length :: packBytes bs).map (opnd tyInt)) io with
    | (true, m') => m'
    | (false, _) => m

/-- USB_OUT_TRANSFER. -/
def execUsbOutTransfer (k : Fin 2) (bs : List (BitVec 8)) (io : RnIo) (s : State) : Host.Outcome State Fault Refusal :=
  s.onMain fun m => m.usbOut k.val (bs.map BitVec.toNat) io

/-- USB_IN_TRANSFER (R428, R412): a committed packet is sent as one transfer. -/
def Main.usbIn (m : Main) (k : Nat) (rd : RnRd) : Main :=
  let m := m.unitSees (0x38 + k) rd.lag
  let ecc := rd.ecc
  if m.get F.USB_STAT_STATE ≠ 3 then m
  else match m.unitTxRn (0x38 + k) 0 with
  | none => m
  | some i => match m.unitHead i with
    | none => m
    | some ws =>
      if ecc.contains .uncorrectable then m.unitLose i ecc
      else
        let len := bitsOf (ws.getD 0 0) 0 32
        let m := m.unitTake i ecc
        if ws = [] ∨ ws.length ≠ 1 + wordsFor len then m
        else { m with comm := { m.comm with usb := m.comm.usb.set k (unpackBytes (ws.drop 1) len) } }

/-- USB_IN_TRANSFER. -/
def execUsbInTransfer (k : Fin 2) (rd : RnRd) (s : State) : Host.Outcome State Fault Refusal :=
  s.onMain fun m => m.usbIn k.val rd

/-- R438, R551: USB leaves the bus. -/
def Main.usbDetach (m : Main) : Main :=
  if m.get F.USB_STAT_STATE = 0 then m
  else ((((m.set F.USB_STAT_STATE 0).set F.USB_STAT_HS 0).set F.USB_STAT_ADDR 0).event 977 4).sessionEnd 1

/-- USB_BUS_EVENT (R413, R428, R438). -/
def Main.usbEvent (m : Main) (ev : UsbEv) : Main :=
  let st := m.get F.USB_STAT_STATE
  match ev with
  | .vbus on => if on then m.set F.USB_STAT_VBUS 1 else (m.usbDetach).set F.USB_STAT_VBUS 0
  | .attach hs =>
    if st = 0 ∧ m.flag F.USB_CFG_CONNECT = true ∧ m.flag F.USB_STAT_VBUS = true then
      ((m.set F.USB_STAT_STATE 1).set F.USB_STAT_HS (b2n (hs && m.flag F.USB_CFG_HSEN))).event 977 1
    else m
  | .address a => if st = 0 then m else (m.set F.USB_STAT_ADDR a.toNat).set F.USB_STAT_STATE (if a = 0 then 1 else 2)
  | .configured => if st = 2 then (m.set F.USB_STAT_STATE 3).event 977 2 else m
  | .suspend => if st = 0 then m else m.event 977 3
  | .detach => m.usbDetach

/-- USB_BUS_EVENT. -/
def execUsbBusEvent (ev : UsbEv) (s : State) : Host.Outcome State Fault Refusal := s.onMain fun m => m.usbEvent ev

/-- A write to USB.CFG (R438): leaving the bus detaches. -/
def Main.usbCfgWrite (m : Main) (v : Nat) : Main :=
  let m := (m.set F.USB_CFG_CONNECT (bitsOf v 0 1)).set F.USB_CFG_HSEN (bitsOf v 1 1)
  if bitsOf v 0 1 = 0 then m.usbDetach else m

/-! ### Storage (R429) -/

/-- The storage unit of a number: 0 eMMC, 1 xSPI. -/
def Main.stor (m : Main) (u : Nat) : StorSt :=
  (m.comm.stors.find? (fun x => x.u == u)).getD { u := u, cmd := none, done := none, wire := [] }

/-- Store a storage unit. -/
def Main.putStor (m : Main) (x : StorSt) : Main :=
  { m with comm := { m.comm with stors := m.comm.stors.filter (fun y => y.u != x.u) ++ [x] } }

/-- R429: an address in scratch, field SRAM or DRAM. -/
def storAddrOk (pa len : Nat) : Bool :=
  let inMem := fun (a : Nat) => match regionOf a with
    | .dram _ _ | .scratch _ _ _ _ | .fsram _ _ => true
    | _ => false
  inMem pa && inMem (pa + (len - 1))

/-- STORAGE_COMMAND (R429): the next command packet is taken and started, or answered at once. -/
def Main.storCommand (m : Main) (u : Nat) (rd : RnRd) : Main :=
  let m := m.unitSees (0x40 + u) rd.lag
  let ecc := rd.ecc
  let x := m.stor u
  match m.unitTxRn (0x40 + u) 0 with
  | none => m
  | some i => match m.unitHead i with
    | none => m
    | some ws =>
      if x.cmd.isSome || x.done.isSome then m
      else if ecc.contains .uncorrectable then m.unitLose i ecc
      else
        let m := m.unitTake i ecc
        let w := fun k => ws.getD k 0
        let op := bitsOf (w 0) 0 4
        let tag := bitsOf (w 0) 32 32
        let c : StorCmd := { op := op, part := bitsOf (w 0) 4 4, tag := tag, dev := w 1, pa := w 2, len := w 3 }
        let bad := decide (ws.length ≠ 4 ∨ op = 0 ∨ 4 < op ∨ 2 ^ 40 ≤ w 2 ∨ (u = 0 ∧ w 3 % 512 ≠ 0))
        if ws = [] then m
        else if bad then m.putStor { x with done := some (3 + tag * 2 ^ 32) }
        else if op ≤ 2 ∧ storAddrOk c.pa c.len = false then m.putStor { x with done := some (2 + tag * 2 ^ 32) }
        else m.putStor { x with cmd := some c }

/-- STORAGE_COMMAND. -/
def execStorageCommand (u : Fin 2) (rd : RnRd) (s : State) : Host.Outcome State Fault Refusal :=
  s.onMain fun m => m.storCommand u.val rd

/-- Write bytes at rising addresses, whole aligned words at a time: the first outcome that is not ok stops. -/
def Main.storeBytes (m : Main) (id : AccId) (pa : Nat) : Nat → List Nat → MemOut × Main
  | 0, _ => (.ok 0, m)
  | n + 1, bs =>
    if bs = [] then (.ok 0, m)
    else
      let k := if pa % 8 = 0 ∧ 8 ≤ bs.length then 8 else 1
      match m.storePhys id pa ((packBytes (bs.take k)).headD 0) k with
      | (.ok _, m') => m'.storeBytes id (pa + k) n (bs.drop k)
      | (.wait, _) => (.wait, m.wakeFor pa)
      | r => r

/-- Read n bytes at rising addresses. -/
def Main.loadBytes (m : Main) (id : AccId) (pa : Nat) : Nat → List Nat × MemOut × Main
  | 0 => ([], .ok 0, m)
  | n + 1 =>
    match m.loadPhys id pa 1 with
    | (.ok v, m') =>
      let r := m'.loadBytes id (pa + 1) n
      (v :: r.1, r.2)
    | (.wait, _) => ([], .wait, m.wakeFor pa)
    | r => ([], r)

/-- R429: the identity of a storage unit's accesses: that of the context that sends its commands (log 88). -/
def Main.storId (m : Main) (u : Nat) : AccId :=
  match m.unitTxRn (0x40 + u) 0 with
  | some i => let e := m.rnProd 0 i; if e.1 = 0 then ctxId e.2 0 else ctxId 0 0
  | none => ctxId 0 0

/-- R429: the completion word goes to the runnel when there is room. -/
def Main.storAnswer (m : Main) (u : Nat) (io : RnIo) : Main :=
  let x := m.stor u
  match x.done, m.unitRx (0x40 + u) with
  | some w, some i => match m.rnUnitCommit i [opnd tyInt w] io with
    | (true, m') => m'.putStor { x with done := none }
    | (false, _) => m
  | _, _ => m

/-- R429: what the end of a command does to memory: its status, none while its target makes it wait. -/
def Main.storFinish (m : Main) (u : Nat) (c : StorCmd) (ev : StorEv) : Option Nat × Main :=
  match ev with
  | .card => (none, m)
  | .error => (some 1, m.event (546 + u) 1)
  | .ok data =>
    if c.op = 1 then
      let bs := (data.take c.len).map BitVec.toNat
      match m.storeBytes (m.storId u) c.pa bs.length bs with
      | (.ok _, m') => (some 0, m')
      | (.wait, m') => (none, m')
      | (.fail _ _, m') => (some 2, m')
    else if c.op = 2 then
      match m.loadBytes (m.storId u) c.pa c.len with
      | (bs, .ok _, m') => (some 0, m'.putStor { m'.stor u with wire := bs })
      | (_, .wait, m') => (none, m')
      | (_, .fail _ _, m') => (some 2, m')
    else (some 0, m)

/-- STORAGE_COMPLETION (R429, R413): the command in progress ends and its completion word is produced. -/
def Main.storComplete (m : Main) (u : Nat) (ev : StorEv) (io : RnIo) : Main :=
  if ev = .card then m.event (546 + u) 2
  else
    let x := m.stor u
    match x.cmd with
    | none => m.storAnswer u io
    | some c => match m.storFinish u c ev with
      | (none, m') => m'
      | (some st, m') => (m'.putStor { m'.stor u with cmd := none, done := some (st + c.tag * 2 ^ 32) }).storAnswer u io

/-- STORAGE_COMPLETION. -/
def execStorageCompletion (u : Fin 2) (ev : StorEv) (io : RnIo) (s : State) : Host.Outcome State Fault Refusal :=
  s.onMain fun m => m.storComplete u.val ev io

end Sys2Proof.Machine
end

