-- ==== Sys2Proof/Machine/Sluice.lean ====
section
/-! DEFINITION. Sluices (R152, R153, R335 to R346). -/

namespace Sys2Proof.Machine

/-- The identity that holds a sluice, as HOLDER shows it: CTX in [15:8], origin in [7:0] (R335). -/
def Main.holder (m : Main) (s : Nat) : Nat := m.get (F.SLUICE_HOLDER_CTX s) * 256 + m.get (F.SLUICE_HOLDER_ORIGIN s)

/-- A sluice is held. -/
def Main.slHeld (m : Main) (s : Nat) : Bool := m.flag (F.SLUICE_HOLDER_HELD s)

/-- The identity of a waiter. -/
def Waiter.identity (w : Waiter) : Nat := w.f.ctx.toNat * 256 + w.origin

/-- R341: the grant result. -/
def sluiceVal (s holder result : Nat) (abandoned : Bool) (wait : Nat) : Opnd :=
  opnd tySluice (s + holder * 2 ^ 16 + result * 2 ^ 32 + b2n abandoned * 2 ^ 36 + Nat.min wait 0xFFFFFF * 2 ^ 40)

/-- An identity becomes the holder. -/
def Main.slTake (m : Main) (s ident : Nat) : Main :=
  (((m.set (F.SLUICE_HOLDER_CTX s) (ident / 256)).set (F.SLUICE_HOLDER_ORIGIN s) (ident % 256)).set
    (F.SLUICE_HOLDER_HELD s) 1).bump (F.SLUICE_STAT_GRANTS s)

/-- Microseconds that a waiter has spent in the pool. -/
def Main.slWait (m : Main) (w : Waiter) : Nat := (m.now - w.joined) / 1000

/-- Take a waiter out of the pool. -/
def Main.slLeave (m : Main) (w : Waiter) : Main := { m with waiters := m.waiters.erase w }

/-- R339: wait priority. -/
def Main.waitPrio (m : Main) (w : Waiter) : Nat := Nat.max w.f.prio.toNat (m.eff w.f.ctx.toNat)

/-- R339: the best waiter of a sluice: highest wait priority, then the oldest. -/
def Main.bestWaiter (m : Main) (s : Nat) : Option Waiter :=
  (m.waiters.filter (fun w => w.sluice == s)).foldl (fun b w => match b with
    | none => some w
    | some x => if m.waitPrio x < m.waitPrio w then some w else b) none

/-- R343: a wait by the identity that now holds the sluice is a repeat. -/
def Main.slRepeats (m : Main) (s ident : Nat) : Main :=
  (m.waiters.filter (fun w => w.sluice == s && w.identity == ident)).foldl (fun m w =>
    (((m.slLeave w).bump (F.SLUICE_STAT_GRANTS s)).answerBoth w.f (sluiceVal s ident 2 false (m.slWait w)))) m

/-- SLUICE_GRANT (R339, R344): a free sluice goes to the best waiter. -/
def Main.slGrant (m : Main) (s : Nat) : Main :=
  match m.bestWaiter s with
  | none => m
  | some w =>
    let ab := m.flag (F.SLUICE_HOLDER_ABANDONED s)
    let t := m.slWait w
    let m := ((m.slLeave w).slTake s w.identity).set (F.SLUICE_HOLDER_ABANDONED s) 0
    (m.answerBoth w.f (sluiceVal s w.identity 1 ab t)).slRepeats s w.identity

/-- R342, R344: a held sluice becomes free, abandoned or not, and the next waiter is granted. -/
def Main.slFree (m : Main) (s : Nat) (abandoned : Bool) : Main :=
  let m := (m.set (F.SLUICE_HOLDER_HELD s) 0).set (F.SLUICE_HOLDER_ABANDONED s) (b2n abandoned)
  let m := (m.set (F.SLUICE_HOLDER_CTX s) 0).set (F.SLUICE_HOLDER_ORIGIN s) 0
  (if abandoned then m.bump (F.SLUICE_STAT_ABANDONS s) else m).slGrant s

/-! ### SLACQ and SLREL -/

/-- R151: the fields of a sluice word: sluice, origin, timeout; none when it is malformed or names a register master (R336). -/
def sluiceWord (x : Nat) : Option (Nat × Nat × Nat) :=
  if bitsOf x 10 6 = 0 ∧ bitsOf x 48 16 = 0 ∧ bitsOf x 16 8 < 0xF0 then some (bitsOf x 0 10, bitsOf x 16 8, bitsOf x 24 24)
  else none

/-- R338, R340: a request joins the waiter pool. MINFREE follows (R346). -/
def Main.slJoin (m : Main) (f : Firing) (s origin tmo : Nat) : Main :=
  let w : Waiter := { sluice := s, origin := origin, f := { f with replay := none }, joined := m.now,
                      deadline := if tmo = 0xFFFFFF then none else some (m.now + tmo * 1000) }
  let m := { m with waiters := m.waiters ++ [w] }
  (m.set F.SLUICE_POOL_MINFREE (Nat.min (m.get F.SLUICE_POOL_MINFREE) (2048 - m.waiters.length))).rpDone f.replay 0

/-- A claim by SLACQ (R337, R338, R340, R344). -/
def Main.slClaim (m : Main) (f : Firing) (s origin tmo : Nat) : Main :=
  let ident := f.ctx.toNat * 256 + origin
  if !m.slHeld s then
    let ab := m.flag (F.SLUICE_HOLDER_ABANDONED s)
    ((m.slTake s ident).set (F.SLUICE_HOLDER_ABANDONED s) 0).answerBoth f (sluiceVal s ident 0 ab 0)
  else if m.holder s = ident then (m.bump (F.SLUICE_STAT_GRANTS s)).answerBoth f (sluiceVal s ident 2 false 0)
  else if tmo = 0 then m.answerBoth f (sluiceVal s (m.holder s) 3 false 0)
  else if 2048 ≤ m.waiters.length then (m.bump F.SLUICE_POOL_POOLFULL).parkOp f fcSluicePoolfull s f.right.value.toNat
  else m.slJoin f s origin tmo

/-- SLACQ (R152). -/
def execSlacq (f : Firing) (s : State) : Host.Outcome State Fault Refusal :=
  s.onMain fun m => m.fireReq f .slacq fun m =>
    match sluiceWord f.right.value.toNat with
    | none => m.badOperand f 1
    | some (n, origin, tmo) => m.once f fun m =>
      if !m.live (.sluice n) then m.parkOp f fcUnitDisabled n f.right.value.toNat else m.slClaim f n origin tmo

/-- SLREL (R153, R342). -/
def execSlrel (f : Firing) (s : State) : Host.Outcome State Fault Refusal :=
  s.onMain fun m => m.fireReq f .slrel fun m =>
    match sluiceWord f.right.value.toNat with
    | none => m.badOperand f 1
    | some (n, origin, _) => m.once f fun m =>
      if !m.live (.sluice n) then m.parkOp f fcUnitDisabled n f.right.value.toNat
      else if m.slHeld n && m.holder n == f.ctx.toNat * 256 + origin then (m.slFree n false).answerBoth f (opBool true)
      else m.opFault f fcSluiceNotHeld n f.right.value.toNat

/-- SLUICE_WAIT_TIMEOUT (R340): the i-th waiter of the pool has waited long enough. -/
def Main.slTimeout (m : Main) (i : Nat) : Main :=
  match m.waiters[i]? with
  | none => m
  | some w =>
    match w.deadline with
    | none => m
    | some t =>
      if m.now < t then m
      else
        let val := sluiceVal w.sluice (m.holder w.sluice) 4 false (m.slWait w)
        ((m.slLeave w).bump (F.SLUICE_STAT_TIMEOUTS w.sluice)).answerBoth w.f val

/-- SLUICE_WAIT_TIMEOUT. -/
def execSluiceWaitTimeout (i : Fin 2048) (s : State) : Host.Outcome State Fault Refusal := s.onMain fun m => m.slTimeout i.val

/-! ### Register masters (R336, R337, R342) -/

/-- R336: the identity of the register master on a path. -/
def Path.identity : Path → Nat
  | .host => 0x00F0
  | .usb => 0x00F1
  | .i2c => 0x00F2
  | .debug => 0x00F3
  | .ctx0 => 0x00F4
  | .ctx255 => 0xFFF5

/-- SLUICE_CLAIM_WRITE (R337, R344): a register claim never waits. -/
def Main.slClaimWrite (m : Main) (p : Path) (s v : Nat) : Main :=
  if v % 2 ^ 16 ≠ p.identity ∨ m.live (.sluice s) = false then m.set (F.SLUICE_STAT_BADCLAIM s) 1
  else if !m.slHeld s then m.slTake s p.identity
  else if m.holder s = p.identity then m.bump (F.SLUICE_STAT_GRANTS s)
  else m

/-- SLUICE_CLAIM_WRITE: a write of SLUICE.CLAIM. -/
def execSluiceClaimWrite (p : Path) (n : Fin 1024) (v : Word) (s : State) : Host.Outcome State Fault Refusal :=
  s.onMain fun m => m.regCmd p .SLUICE_CLAIM v.toNat fun m => m.slClaimWrite p n.val v.toNat

/-- SLUICE_RELEASE_WRITE (R336, R342). -/
def Main.slReleaseWrite (m : Main) (p : Path) (s v : Nat) : Main :=
  if v % 2 ^ 16 ≠ p.identity then m.set (F.SLUICE_STAT_BADCLAIM s) 1
  else if v / 2 ^ 16 % 2 = 1 then
    (if p = .ctx0 ∨ p = .ctx255 then (if m.slHeld s then m.slFree s true else m) else m.set (F.SLUICE_STAT_BADCLAIM s) 1)
  else if m.slHeld s = true ∧ m.holder s = p.identity then m.slFree s false
  else m.set (F.SLUICE_STAT_BADCLAIM s) 1

/-- SLUICE_RELEASE_WRITE: a write of SLUICE.RELEASE. -/
def execSluiceReleaseWrite (p : Path) (n : Fin 1024) (v : Word) (s : State) : Host.Outcome State Fault Refusal :=
  s.onMain fun m => m.regCmd p .SLUICE_RELEASE v.toNat fun m => m.slReleaseWrite p n.val v.toNat

/-! ### Disables and resets (R343, R344) -/

/-- R343: the UST disables a sluice. -/
def Main.slDisable (m : Main) (s : Nat) : Main :=
  let ws := m.waiters.filter (fun w => w.sluice == s)
  let m := { m with waiters := m.waiters.filter (fun w => w.sluice != s) }
  let m := ws.foldl (fun m w => m.parkOp w.f fcUnitDisabled s w.f.right.value.toNat) m
  if m.slHeld s then m.slFree s true else m

/-- The sluices that are held, which are those whose HELD field the register file lists. -/
def Main.heldSluices (m : Main) : List Nat := (List.range 1024).filter m.slHeld

/-- R344: the waiters of contexts are discarded, and then their sluices are abandoned. -/
def Main.slContextsGone (m : Main) (cs : List Nat) : Main :=
  let m := { m with waiters := m.waiters.filter (fun w => !cs.contains w.f.ctx.toNat) }
  (m.heldSluices.filter (fun s => cs.contains (m.get (F.SLUICE_HOLDER_CTX s)) && decide (m.get (F.SLUICE_HOLDER_ORIGIN s) < 0xF0))).foldl
    (fun m s => m.slFree s true) m

/-- R344: the sluices of a context are abandoned and its waiters discarded. -/
def Main.slContextGone (m : Main) (c : Nat) : Main := m.slContextsGone [c]

/-- R344: a warm reset abandons every sluice that is held. -/
def Main.slWarm (m : Main) : Main :=
  m.heldSluices.foldl (fun m s => m.slFree s true) { m with waiters := [] }

end Sys2Proof.Machine
end

