-- ==== Sys2Proof/Machine/Ust.lean ====
section
/-! DEFINITION. The unit state table (R365 to R367): its writes and their checks (R312, R410, R429), the units' application of
the changes and the effects of a disable (R321, R343, R366, R411), and the scrub. -/

namespace Sys2Proof.Machine

/-- The unit that a bit of a UST register stands for: none for an unlisted bit (R370, R409). -/
def UstReg.unit_ (r : UstReg) (b : Nat) : Option UnitId :=
  match r with
  | .run d k => if d.val = 0 then (if k.val < 64 then some (.runnel 0 (64 * k.val + b)) else none)
    else if d.val ≤ 5 then some (.runnel d.val (64 * k.val + b)) else none
  | .flume d => if d.val ≤ 5 ∧ b < (if d.val = 0 then 16 else 32) then some (.flume d.val b) else none
  | .out k => if chanOk (64 * k.val + b) then some (.channel (64 * k.val + b)) else none
  | .sluice k => some (.sluice (64 * k.val + b))
  | .unit k => if (unitTx (64 * k.val + b)).isSome then some (.iface (64 * k.val + b)) else none

/-- Write a unit's enable in the table. -/
def Main.ustPut (m : Main) (u : UnitId) (on : Bool) : Main :=
  let w := m.get u.place.1
  let b := 2 ^ u.place.2
  if m.ustOn u == on then m else m.set u.place.1 (if on then w + b else w - b)

/-! ### Checks of an enable -/

/-- R410, R429: whether a UST write may enable an interface unit. -/
def Main.ifaceOk (m : Main) (u : Nat) : Bool :=
  match unitTx u with
  | none => false
  | some n =>
    let rx := m.get (F.UST_BIND_RX u)
    let tx := (List.range (m.get (F.UST_BIND_NTX u) + 1)).map (fun k => m.get (F.UST_BIND_TXBASE u) + k)
    let txs := if n = 0 then [] else tx
    let stor := u == 0x40 || u == 0x41
    let boot := fun (e : Nat × Nat) => !stor || e.1 != 0 || e.2 == 0 || e.2 == 255
    m.flag (F.UST_BIND_RXEN u) && m.flag (F.UST_BIND_TXEN u) == (n != 0) &&
    (n == 0 || decide (m.get (F.UST_BIND_NTX u) + 1 ≤ n)) &&
    m.ustRun 0 rx && m.rnProd 0 rx == (1, u) && boot (m.rnCons 0 rx) &&
    txs.all (fun i => decide (i < 4096) && m.ustRun 0 i && m.rnCons 0 i == (1, u) && boot (m.rnProd 0 i))

/-- Whether a unit may be enabled. -/
def Main.enableOk (m : Main) (u : UnitId) : Bool :=
  match u with
  | .runnel d i => m.rnEnableOk d i
  | .iface n => m.ifaceOk n
  | _ => true

/-- A refused enable is recorded (R312, R410). -/
def Main.enableRefused (m : Main) (u : UnitId) : Main :=
  match u with
  | .runnel d i => m.set (F.RUNNEL_STAT_CFGERR d i) 1
  | .iface n => m.set (F.UST_BIND_ERR n) 1
  | _ => m

/-! ### UST writes (R365) -/

/-- One bit of a UST write. -/
def Main.ustBit (m : Main) (u : UnitId) (on : Bool) : Main :=
  if m.ustOn u == on ∨ m.pop u.die = false then m
  else if on && !m.enableOk u then m.enableRefused u
  else { (m.ustPut u on).set F.UST_STAT_BUSY 1 with ust := { m.ust with changes := m.ust.changes ++ [(u, on)] } }

/-- UST_WRITE (R365): checks the changes of a word, bit by bit, and sends the accepted ones to the units. -/
def Main.ustWrite (m : Main) (r : UstReg) (v : Nat) : Main :=
  (List.range 64).foldl (fun m b =>
    match r.unit_ b with
    | some u => m.ustBit u (bitsOf v b 1 == 1)
    | none => m) m

/-- UST_WRITE. -/
def execUstWrite (r : UstReg) (v : Word) (s : State) : Host.Outcome State Fault Refusal := s.onMain fun m => m.ustWrite r v.toNat

/-! ### What a unit does with a change (R366) -/

/-- R411: a launch that a unit holds for a runnel is discarded. -/
def Main.dropLaunch (m : Main) (i : Nat) : Main :=
  match m.unitHead i with
  | some ws => if m.now < ws.getD 1 0 then m.unitDrop i else m
  | none => m

/-- R411: what an interface unit loses when it is disabled. -/
def Main.ifaceIdle (m : Main) (u : Nat) : Main :=
  let launches := fun (m : Main) (k : Nat) =>
    (List.range k).foldl (fun m j => if j ≤ m.get (F.UST_BIND_NTX u) then m.dropLaunch (m.get (F.UST_BIND_TXBASE u) + j) else m) m
  if u < 0x10 then launches m 8
  else if u < 0x20 then launches m 4
  else if u < 0x30 then
    let m := m.uartStop (u - 0x20)
    let x := m.uart (u - 0x20)
    let m := if x.count = 0 ∨ x.dropping = true then m else m.rnUnitCancel (m.get (F.UST_BIND_RX u))
    launches (m.putUart { x with bytes := [], count := 0, flags := 0, dropping := false, bound := 0 }) 1
  else if u = 0x40 ∨ u = 0x41 then m.putStor { m.stor (u - 0x40) with cmd := none, done := none }
  else if 0x50 ≤ u ∧ u ≤ 0x5F then m.putMotor { m.motor (u - 0x50) with group := false, samples := [] }
  else if u = 0x60 ∨ u = 0x61 then m.rnUnitCancel (m.get (F.UST_BIND_RX u))
  else m

/-- R366: the effects of a disable on a unit. -/
def Main.unitOff (m : Main) (u : UnitId) : Main :=
  let m : Main := { m with ust := { m.ust with live := m.ust.live.filter (fun x => x != u) } }
  match u with
  | .runnel d i => m.rnDisable d i
  | .flume _ _ => m
  | .channel n => m.outCancel n (fun o => o.slot.isNone)
  | .sluice n => m.slDisable n
  | .iface n => m.ifaceIdle n

/-- A unit is enabled. -/
def Main.unitOn (m : Main) (u : UnitId) : Main :=
  if m.live u then m else { m with ust := { m.ust with live := m.ust.live ++ [u] } }

/-- A unit applies one change. -/
def Main.unitApply (m : Main) (c : UnitId × Bool) : Main :=
  if c.2 then m.unitOn c.1 else if m.live c.1 then m.unitOff c.1 else m

/-- UST_APPLY_DONE (R365): the accepted changes have been applied in order. -/
def Main.ustApply (m : Main) : Main :=
  let cs := m.ust.changes
  cs.foldl (fun m c => m.unitApply c) ({ m with ust := { m.ust with changes := [] } }.set F.UST_STAT_BUSY 0)

/-- UST_APPLY_DONE. -/
def execUstApplyDone (s : State) : Host.Outcome State Fault Refusal := s.onMain Main.ustApply

/-! ### The scrub (R367) -/

/-- The units that a register of the table shows enabled. -/
def Main.regUnits (m : Main) (r : UstReg) (f : Fld) : List UnitId :=
  let w := m.get f
  if w = 0 then [] else (List.range 64).filterMap (fun b => if bitsOf w b 1 = 1 then r.unit_ b else none)

/-- All units that the table shows enabled. -/
def Main.ustUnits (m : Main) : List UnitId :=
  ([0, 1, 2, 3, 4, 5].flatMap (fun d => (m.ustRuns d).map (fun i => UnitId.runnel d i))) ++
  ([0, 1, 2, 3, 4, 5].flatMap (fun d => m.regUnits (.flume (fin8 d)) (F.UST_FLUME_EN d))) ++
  ((List.finRange 17).flatMap (fun k => m.regUnits (.out k) (F.UST_OUT_EN k.val))) ++
  ((List.finRange 16).flatMap (fun k => m.regUnits (.sluice k) (F.UST_SLUICE_EN k.val))) ++
  ((List.finRange 4).flatMap (fun k => m.regUnits (.unit k) (F.UST_UNIT_EN k.val)))

/-- Class and number of a unit (R371). -/
def UnitId.code (u : UnitId) : Nat × Nat :=
  match u with
  | .runnel _ i => (0, i)
  | .flume _ i => (1, i)
  | .channel n => (2, n)
  | .sluice n => (3, n)
  | .iface n => (4, n)

/-- R367: a mismatch is forced to the state of the table and recorded. -/
def Main.ustForce (m : Main) (u : UnitId) : Main :=
  let on := m.ustOn u
  let m := if !on then m.unitOff u
    else match u with
      | .runnel d i => if m.rnEnableOk d i then m.unitOn u else (m.ustPut u false).set F.UST_STAT_FORCEFAIL 1
      | _ => m.unitOn u
  let m := (((m.set F.UST_STAT_LASTDIR (if on then 2 else 1)).set F.UST_STAT_LASTCLASS u.code.1).set F.UST_STAT_LASTDIE u.die).set
    F.UST_STAT_LASTINDEX u.code.2
  (m.bump F.UST_STAT_MISMATCH).raiseSrc 29 0 u.die (u.code.2 % 2 ^ 16)

/-- UST_SCRUB (R367): one pass. -/
def Main.ustScrub (m : Main) : Main :=
  let on := m.ustUnits
  let bad := on.filter (fun u => !m.live u) ++ m.ust.live.filter (fun u => !on.contains u)
  let bad := bad.filter (fun u => !m.ust.changes.any (fun c => c.1 == u))
  (bad.foldl (fun m u => m.ustForce u) m).bump F.UST_STAT_PASSES

/-- UST_SCRUB. -/
def execUstScrub (s : State) : Host.Outcome State Fault Refusal := s.onMain Main.ustScrub

/-- R368, R411, R529: entries written to disabled by a reset, with the units' own enables. -/
def Main.ustReset (m : Main) (p : UnitId → Bool) : Main :=
  let m := (m.ustUnits.filter p).foldl (fun m u => m.ustPut u false) m
  let m : Main := { m with ust := { live := m.ust.live.filter (fun u => !p u), changes := m.ust.changes.filter (fun c => !p c.1) } }
  if m.ust.changes = [] then m.set F.UST_STAT_BUSY 0 else m

/-- A write to UST.BIND[u] (R410, R433): ignored while u is enabled. -/
def Main.bindWrite (m : Main) (u v : Nat) : Main :=
  if m.ustOn (.iface u) then m
  else
    let m := m.setIf (bitsOf v 32 1 == 1) (F.UST_BIND_ERR u) 0
    (((((m.set (F.UST_BIND_RX u) (bitsOf v 0 12)).set (F.UST_BIND_RXEN u) (bitsOf v 12 1)).set (F.UST_BIND_TXBASE u)
      (bitsOf v 16 12)).set (F.UST_BIND_NTX u) (bitsOf v 28 3)).set (F.UST_BIND_TXEN u) (bitsOf v 31 1))

end Sys2Proof.Machine
end

