-- ==== Sys2Proof/Machine/Dredge.lean ====
section
/-! DEFINITION. The dredges (R293 to R308). An element is one step here: between commands a strip under test is between two
elements, so that accesses are served at the aside buffer, which holds what the bank held (R298). -/

namespace Sys2Proof.Machine

/-! ### End of a run (R306, R308) -/

/-- DREDGE.STAT as a word (R309). -/
def Main.drStat (m : Main) (d : Nat) : Nat :=
  m.get (F.DREDGE_STAT_STATE d) + m.get (F.DREDGE_STAT_EMPTY d) * 2 ^ 3 + m.get (F.DREDGE_STAT_FAILED d) * 2 ^ 4 +
  m.get (F.DREDGE_STAT_REPAIRED d) * 2 ^ 5 + m.get (F.DREDGE_STAT_ERR d) * 2 ^ 6 + m.get (F.DREDGE_STAT_DONE d) * 2 ^ 10 +
  m.get (F.DREDGE_STAT_YIELDS d) * 2 ^ 38 + m.get (F.DREDGE_STAT_SKIPPED d) * 2 ^ 54

/-- R308: the notification token of a run that has ended. -/
def Main.drNote (m : Main) (d : Nat) : Main :=
  if !m.flag (F.DREDGE_NOTE_EN d) then m
  else
    let c := BitVec.ofNat 8 (m.get (F.DREDGE_NOTE_CTX d))
    m.send { value := w64 (m.drStat d), ia := BitVec.ofNat 20 (m.get (F.DREDGE_NOTE_IA d)),
             port := BitVec.ofNat 2 (m.get (F.DREDGE_NOTE_PORT d)), typ := tyInt, wsel := 0, ctx := c, frame := 0,
             stamp := BitVec.ofNat 32 m.now, prio := m.newPrio c, side := false, odie := fin8 d, otuft := 0, pass := false,
             replay := none }

/-- R307, R549: the boot test of a die's own banks, or (md a memory die) of the DRAM that it attaches to, starts. -/
def Main.drBoot (m : Main) (d : Nat) (md : Option Nat) : Main :=
  let x : DredgeSt := {
    die := d, alg := 0, destr := true, dram := md.isSome, boot := md.isNone, bank := 0,
    first := match md with
      | some k => (k - 6) * 2 ^ 20
      | none => 0
    count := if md.isSome then 2 ^ 20 else if d = 0 then 2048 else 66 * 256
    phase := .elem 0, cur := 0, tries := 0, next := 1, again := [], ending := none, repair := [] }
  ({ m with dredges := m.dredges ++ [x] }.set (F.DREDGE_STAT_STATE d) 1).set (F.DREDGE_CTL_START d) 1

/-- R307, R549: the memory die whose DRAM a compute die tests at boot (log 162), when BOOTCFG[5] asks for it in a boot. -/
def Main.bootDram (m : Main) (d : Nat) : Option Nat :=
  let md := if d = 1 then 6 else 7
  if (d = 1 ∨ d = 3) ∧ m.pop md = true ∧ bitsOf (nmGet m.hw.otp 2 0) 5 1 = 1 ∧ m.get F.MODE_CUR_MODE = 1 then some md else none

/-- A run ends: DONE, or ABORTED with its error. An error recorded before (NOSPARE) stays. A boot test of banks may be followed by
one of DRAM. -/
def Main.drEnd (m : Main) (d err : Nat) : Main :=
  let boot := m.dredges.any (fun x => x.die == d && x.boot)
  let m : Main := { m with dredges := m.dredges.filter (fun x => x.die != d) }
  let m := if err = 0 then m.set (F.DREDGE_STAT_STATE d) 3
    else (m.set (F.DREDGE_STAT_STATE d) 4).set (F.DREDGE_STAT_ERR d) err
  let m := (m.set (F.DREDGE_CTL_START d) 0).drNote d
  if boot && err == 0 && (m.bootDram d).isSome then m.drBoot d (m.bootDram d) else m

/-! ### Contents that a destructive run leaves (R294, R301) -/

/-- An operation of an element on a line: a read or a write of the first pattern or of the second: 0 and 1, for RETAIN c and ~c. -/
inductive DrOp
  | r (second : Bool)
  | w (second : Bool)
  deriving DecidableEq, Repr

/-- The elements of an algorithm with their operations. ALG 3 has none. -/
def drMarch (alg : Nat) : List (List DrOp) :=
  match alg with
  | 0 => [[.w false], [.r false, .w true], [.r true, .w false], [.r false, .w true], [.r true, .w false], [.r false]]
  | 1 => [[.w false], [.r false, .r false, .w false, .r false, .w true], [.r true, .r true, .w true, .r true, .w false],
          [.r false, .r false, .w false, .r false, .w true], [.r true, .r true, .w true, .r true, .w false], [.r false]]
  | 2 => [[.w false], [.r false, .w true], [.r true]]
  | _ => []

/-- The number of elements of an algorithm. -/
def drElems (alg : Nat) : Nat := (drMarch alg).length

/-- Operation op of element k reads. -/
def drReads (alg k op : Nat) : Bool :=
  match ((drMarch alg).getD k [])[op]? with
  | some (.r _) => true
  | _ => false

/-- The pattern that elements 0 to k leave: the second one, or the first. -/
def drLeft (alg k : Nat) : Bool :=
  ((drMarch alg).take (k + 1)).flatten.foldl (fun last o => match o with
    | .w second => second
    | .r _ => last) false

/-- The pattern that stands in every word of a line after elements 0 to k. -/
def drPattern (alg k line : Nat) : Nat :=
  let first := if alg ≠ 2 then 0 else if line % 2 = 0 then 0x5555555555555555 else 0xAAAAAAAAAAAAAAAA
  if drLeft alg k then 0xFFFFFFFFFFFFFFFF - first else first

/-- R294: an element that runs in descending line order. ⇕ is taken as ascending (log 97). -/
def drDescends (alg k : Nat) : Bool := alg != 2 && (k == 3 || k == 4)

/-- Write one 64-bit word with a fresh code, whatever the word held. -/
def Main.drWord (m : Main) (wa v : Nat) : Main :=
  (m.poke wa v 8).freshWord wa

/-- A pattern written into the lines of a range: byte address of the range, first line and number of lines. -/
def Main.drFill (m : Main) (base alg k first n : Nat) : Main :=
  (List.range (8 * n)).foldl (fun m i =>
    m.drWord (base + 64 * first + 8 * i) (drPattern alg k (first + i / 8))) m

/-- The byte addresses at which a run's target begins, for each part of it, with its size in lines. -/
def DredgeSt.areas (x : DredgeSt) : List (Nat × Nat) :=
  let scratch := 0x8000000000 + x.die * 0x1000000000
  if x.boot then (if x.die = 0 then [(0x8000000000, 2 ^ 17)] else (List.range 64).map (fun b => (scratch + b * 0x100000, 16384)))
  else if x.dram then [(x.first * 4096, x.count * 64)]
  else if x.die = 0 then [(0x8000000000 + x.first * 4096, x.count * 64)]
  else if x.bank < 64 then [(scratch + x.bank * 0x100000 + x.first * 4096, x.count * 64)]
  else []

/-- R301: what a destructive run leaves behind: the pattern of its last element in the n lines it has done, and elsewhere that of the
element before. -/
def Main.drLeave (m : Main) (x : DredgeSt) (k n : Nat) : Main :=
  x.areas.foldl (fun m a =>
    let n := Nat.min n a.2
    let new := if drDescends x.alg k then (a.2 - n, n) else (0, n)
    let old := if drDescends x.alg k then (0, a.2 - n) else (n, a.2 - n)
    let m := if k = 0 then m else m.drFill a.1 x.alg (k - 1) old.1 old.2
    m.drFill a.1 x.alg k new.1 new.2) m

/-- What a destructive run leaves between two elements: the pattern of the last one that is complete. -/
def Main.drWhole (m : Main) (x : DredgeSt) : Main :=
  match x.phase with
  | .elem k | .pause k _ => if k = 0 then m else m.drLeave x (k - 1) (2 ^ 30)
  | _ => m

/-- R301, R305: a run is broken off: how many lines the element in progress of a destructive one has done is open (log 208). While its bank
is being repaired it is between two elements (R303). -/
def Main.drBreak (m : Main) (x : DredgeSt) : Main :=
  match x.destr, x.phase with
  | true, .elem k => if m.get (F.DREDGE_STAT_STATE x.die) = 2 then m.drWhole x else m.takeFree.2.drLeave x k m.takeFree.1
  | true, .pause _ _ => m.drWhole x
  | _, _ => m

/-- R305, R530: a run is broken off without a restore: a strip of DRAM under test, which outlives the dredge's die, keeps what the test and the
restore have left in it. How many lines the element or the restore in progress has done is open (log 208). -/
def Main.drDrop (m : Main) (x : DredgeSt) : Main :=
  if x.destr || !x.dram then m.drBreak x
  else
    let strip := { x with first := x.first + x.cur, count := 1 }
    let n := m.takeFree.1 % 65
    match x.phase with
    | .elem k => m.takeFree.2.drLeave strip k n
    | .restore => m.takeFree.2.drFill (strip.first * 4096) x.alg (drElems x.alg - 1) n (64 - n)
    | _ => m

/-- R305: the runs that p picks end, with the strip under test of a preserving one as it was. -/
def Main.drRunsEnd (m : Main) (p : DredgeSt → Bool) : Main :=
  (m.dredges.filter p).foldl (fun m x => (m.drBreak x).drEnd x.die 7) m

/-- R305: the runs of a die that enters dormant end, with their strips as they are. -/
def Main.drRunsDrop (m : Main) (d : Nat) : Main :=
  (m.dredges.filter (fun x => x.die == d)).foldl (fun m x => (m.drDrop x).drEnd x.die 7) m

/-! ### Start (R293, R294, R299, R301, R306) -/

/-- R22: the memory dies that a compute die attaches to. -/
def Main.attaches (m : Main) (c d : Nat) : Bool :=
  m.pop c && m.pop d && ((d == 6 && decide (c ≤ 3)) || (d == 7 && decide (3 ≤ c)))

/-- R293: a range within its target. -/
def Main.drRangeOk (m : Main) (d : Nat) (dram : Bool) : Bool :=
  let first := m.get (F.DREDGE_RANGE_FIRST d)
  let count := m.get (F.DREDGE_RANGE_COUNT d)
  let bank := m.get (F.DREDGE_RANGE_BANK d)
  if d = 0 then decide (first + count ≤ 2048)
  else if dram then
    let die := 6 + first / 2 ^ 20
    decide (die ≤ 7) && decide (first % 2 ^ 20 + count ≤ 2 ^ 20) && m.attaches d die
  else
    decide (first + count ≤ 256) && (decide (bank < 64) || (bank == 64 && m.get (F.DREDGE_REPAIR_MAPA d) == 0x7F) ||
      (bank == 65 && m.get (F.DREDGE_REPAIR_MAPB d) == 0x7F))

/-- The error with which a run ends at once, 0 for none. -/
def Main.drCheck (m : Main) (d : Nat) : Nat :=
  let alg := m.get (F.DREDGE_CTL_ALG d)
  let destr := m.flag (F.DREDGE_CTL_DESTR d)
  let dram := d != 0 && m.flag (F.DREDGE_CTL_DRAM d)
  let bank := m.get (F.DREDGE_RANGE_BANK d)
  if !m.drRangeOk d dram then 1
  else if alg = 3 ∨ (!destr && (alg == 2 || (dram && alg != 0))) = true then 5
  else if destr && (dram || d == 0) then (if m.get F.MODE_CUR_MODE = 1 then 0 else 3)
  else if dram ∨ d = 0 ∨ 64 ≤ bank then 0
  else if destr && !(m.get (F.BANK_OWN_KIND d bank) == 3 && m.flag (F.BANK_OWN_DONE d bank)) then 2
  else if m.get (F.BANK_PWR_STATE d bank) ≠ 0 then 4
  else if !m.flag (F.BANK_OWN_DONE d bank) then 8
  else 0

/-- DREDGE_START (R306): a write of 1 to START. -/
def Main.drStart (m : Main) (d : Nat) : Main :=
  let st := m.get (F.DREDGE_STAT_STATE d)
  if st = 1 ∨ st = 2 then m
  else
    let m := ((((m.set (F.DREDGE_STAT_EMPTY d) 0).set (F.DREDGE_STAT_FAILED d) 0).set (F.DREDGE_STAT_REPAIRED d) 0).set
      (F.DREDGE_STAT_ERR d) 0).set (F.DREDGE_STAT_DONE d) 0
    let count := m.get (F.DREDGE_RANGE_COUNT d)
    if count = 0 then (m.set (F.DREDGE_STAT_EMPTY d) 1).drEnd d 0
    else
      let err := m.drCheck d
      if err ≠ 0 then m.drEnd d err
      else
        let destr := m.flag (F.DREDGE_CTL_DESTR d)
        let x : DredgeSt := {
          die := d, alg := m.get (F.DREDGE_CTL_ALG d), destr := destr, dram := d != 0 && m.flag (F.DREDGE_CTL_DRAM d), boot := false,
          bank := m.get (F.DREDGE_RANGE_BANK d), first := m.get (F.DREDGE_RANGE_FIRST d), count := count,
          phase := if destr then .elem 0 else .copy, cur := 0, tries := 0, next := 1, again := [], ending := none, repair := [] }
        ((m.putDr x).set (F.DREDGE_STAT_STATE d) 1).set (F.DREDGE_CTL_START d) 1

/-- The dredge of a die that can be reached. -/
def Main.onDredge (m : Main) (d : Nat) (act : Main → Main) : Main :=
  if d = 0 ∨ (m.compute d && m.dieLive d) = true then act m else m

/-- DREDGE_START. -/
def execDredgeStart (d : Fin 6) (s : State) : Host.Outcome State Fault Refusal :=
  s.onMain fun m => m.onDredge d.val fun m => m.drStart d.val

/-! ### Failures and repair (R302, R303) -/

/-- The logical bank that a physical bank serves, if any. -/
def Main.logical (m : Main) (d phys : Nat) : Option Nat :=
  (List.range 64).find? (fun b => m.get (F.BANK_STAT_PHYS d b) == phys)

/-- R303, R307: a spare that fails is marked BAD; the bank that it serves stays on it until a repair (R309). -/
def Main.spareBad (m : Main) (d phys : Nat) : Main :=
  if phys = 64 then m.set (F.DREDGE_REPAIR_BADA d) 1 else if phys = 65 then m.set (F.DREDGE_REPAIR_BADB d) 1 else m

/-- A spare that is free and good (R303). -/
def Main.freeSpare (m : Main) (d : Nat) : Option Nat :=
  if m.get (F.DREDGE_REPAIR_MAPA d) = 0x7F ∧ m.flag (F.DREDGE_REPAIR_BADA d) = false then some 64
  else if m.get (F.DREDGE_REPAIR_MAPB d) = 0x7F ∧ m.flag (F.DREDGE_REPAIR_BADB d) = false then some 65
  else none

/-- R302: one failure is recorded. For a DRAM target the record names no bank: a free value (log 98). -/
def Main.drFailure (m : Main) (x : DredgeSt) (k : Nat) (f : DrFail) : DredgeSt × Main :=
  let d := x.die
  let p : Nat × Main := if x.dram then (fun (r : Nat × Main) => (r.1 % 128, r.2)) m.takeFree
    else if d = 0 then (127, m)
    else if x.boot then (f.phys.toNat, m)
    else if x.bank < 64 then (m.get (F.BANK_STAT_PHYS d x.bank), m) else (x.bank, m)
  let m := p.2
  let i := m.get (F.DREDGE_FAILS_NEXT d)
  let strip := if x.destr then f.strip.toNat else x.first + x.cur
  let m := (((m.set (F.DREDGE_FAIL_WHERE_STRIP d i) strip).set (F.DREDGE_FAIL_WHERE_LINE d i) f.line.toNat).set
    (F.DREDGE_FAIL_WHERE_PHYS d i) p.1).set (F.DREDGE_FAIL_WHERE_ELEM d i) k
  let m := (((m.set (F.DREDGE_FAIL_WHERE_OP d i) f.op.toNat).set (F.DREDGE_FAIL_WHERE_SUBS d i) f.subs.toNat).set
    (F.DREDGE_FAIL_WHERE_DESTR d i) (b2n x.destr)).set (F.DREDGE_FAIL_BITS_XOR d i) f.bits.toNat
  let m := ((m.bump (F.DREDGE_FAILS_COUNT d)).set (F.DREDGE_FAILS_NEXT d) ((i + 1) % 16)).set (F.DREDGE_STAT_FAILED d) 1
  let m := m.raiseSrc 20 d d p.1
  if d = 0 ∨ x.dram = true then (x, m)
  else
    let lb := m.logical d p.1
    let m := m.spareBad d p.1
    match lb with
    | some b =>
      if (x.boot || m.flag (F.DREDGE_CTL_AUTOREP d)) && !x.repair.contains b then ({ x with repair := x.repair ++ [b] }, m) else (x, m)
    | none => (x, m)

/-- All failures of an element, which are those of its reads. -/
def Main.drFailures (m : Main) (x : DredgeSt) (k : Nat) (fs : List DrFail) : DredgeSt × Main :=
  (fs.filter (fun f => drReads x.alg k f.op.toNat)).foldl (fun (a : DredgeSt × Main) f => a.2.drFailure a.1 k f) (x, m)

/-- R303: banks for which no spare is left are reported; the run waits for a repair when one is possible. -/
def Main.drTriage (m : Main) (x : DredgeSt) : List Nat → DredgeSt × Main
  | [] => ({ x with repair := [] }, m)
  | b :: t =>
    if (m.freeSpare x.die).isSome then ({ x with repair := b :: t }, m)
    else ((m.raiseSrc 19 x.die x.die b).set (F.DREDGE_STAT_ERR x.die) 6).drTriage x t

/-! ### The course of a run (R297, R300) -/

/-- R300: the next strip: a postponed one, or a fresh one; with none left the run is done. -/
def Main.drNext (m : Main) (x : DredgeSt) (postponed : Option (Nat × Nat)) : Main :=
  let again := x.again
  let pick : Option (Nat × Nat × Nat × List (Nat × Nat)) :=
    match again with
    | (s, n) :: t => some (s, n, x.next, t)
    | [] => if x.next < x.count then some (x.next, 0, x.next + 1, []) else none
  let push := fun (l : List (Nat × Nat)) => match postponed with
    | some p => l ++ [p]
    | none => l
  let go := fun (cur tries next : Nat) (again : List (Nat × Nat)) =>
    let gap := m.get (F.DREDGE_CTL_GAP x.die)
    m.putDr { x with cur := cur, tries := tries, next := next, again := again,
                     phase := if gap = 0 then .copy else .gap (m.now + gap * 1000) }
  match pick, postponed with
  | some (c, t, n, l), _ => go c t n (push l)
  | none, some (s, n) => go s n x.next []
  | none, none => m.drEnd x.die 0

/-- A strip is finished or abandoned: the run ends, waits for a repair, or goes on. -/
def Main.drMoveOn (m : Main) (x : DredgeSt) (postponed : Option (Nat × Nat)) : Main :=
  match x.ending with
  | some e => m.drEnd x.die e
  | none =>
    let r := m.drTriage x x.repair
    if r.1.repair ≠ [] then
      (r.2.putDr { r.1 with phase := .restore, later := postponed }).set (F.DREDGE_STAT_STATE x.die) 2
    else r.2.drNext r.1 postponed

/-- A destructive run has finished an element: it goes on, pauses, or is done; it waits for a repair first. -/
def Main.drDestr (m : Main) (x : DredgeSt) (k : Nat) : Main :=
  let last := decide (drElems x.alg ≤ k + 1)
  let phase := if x.alg = 2 && !last then
      DrPhase.pause (k + 1) (m.now + Nat.max 1 (m.get (F.DREDGE_PAUSE_MS x.die)) * 1000000)
    else DrPhase.elem (k + 1)
  let r := m.drTriage x x.repair
  if r.1.repair ≠ [] then (r.2.putDr { r.1 with phase := phase }).set (F.DREDGE_STAT_STATE x.die) 2
  else if last then ((r.2.drLeave r.1 k (2 ^ 30)).set (F.DREDGE_STAT_DONE x.die) x.count).drEnd x.die 0
  else r.2.putDr { r.1 with phase := phase }

/-- R297, R299: a preserving run has finished an element: it goes on with the next, or restores its strip; a change of its bank's power that
has been asked for cuts the test short. -/
def Main.drKeep (m : Main) (x : DredgeSt) (k : Nat) : Main :=
  let cut := x.ending == some 4 && decide (k < drElems x.alg)
  m.putDr { x with phase := if cut || decide (drElems x.alg ≤ k) then .restore else .elem k, cut := cut }

/-- DREDGE_ELEMENT (R297): one copy-aside, march element or restore is complete, with the failures that its reads found. A destructive run
that is to end does so with DREDGE_STOP, within an element (R301). -/
def Main.drElement (m : Main) (d : Nat) (fs : List DrFail) : Main :=
  match m.dredges.find? (fun x => x.die == d) with
  | none => m
  | some x =>
    if m.get (F.DREDGE_STAT_STATE d) ≠ 1 then m
    else match x.phase with
    | .copy => m.drKeep x 0
    | .elem k =>
      if x.destr && x.ending.isSome then m
      else
        let r := m.drFailures x k fs
        if x.destr then r.2.drDestr r.1 k else r.2.drKeep r.1 (k + 1)
    | .restore => (m.set (F.DREDGE_STAT_DONE d) (m.get (F.DREDGE_STAT_DONE d) + b2n (!x.cut))).drMoveOn { x with tries := 0, cut := false } none
    | _ => m

/-- DREDGE_ELEMENT. -/
def execDredgeElement (d : Fin 6) (fs : List DrFail) (s : State) : Host.Outcome State Fault Refusal :=
  s.onMain fun m => m.drElement d.val fs

/-- DREDGE_GAP_EXPIRY (R297, R299). -/
def Main.drGap (m : Main) (d : Nat) : Main :=
  match m.dredges.find? (fun x => x.die == d) with
  | some x => match x.phase with
    | .gap t => match x.ending with
      | some e => m.drEnd d e
      | none => if m.now < t then m else m.putDr { x with phase := .copy }
    | _ => m
  | none => m

/-- DREDGE_GAP_EXPIRY. -/
def execDredgeGapExpiry (d : Fin 6) (s : State) : Host.Outcome State Fault Refusal := s.onMain fun m => m.drGap d.val

/-- DREDGE_PAUSE_EXPIRY (R294, R301). -/
def Main.drPause (m : Main) (d : Nat) : Main :=
  match m.dredges.find? (fun x => x.die == d) with
  | some x => match x.phase with
    | .pause k t => match x.ending with
      | some e => (m.drWhole x).drEnd d e
      | none => if m.now < t then m else m.putDr { x with phase := .elem k }
    | _ => m
  | none => m

/-- DREDGE_PAUSE_EXPIRY. -/
def execDredgePauseExpiry (d : Fin 6) (s : State) : Host.Outcome State Fault Refusal := s.onMain fun m => m.drPause d.val

/-- The failures in what a dredge has read of the element in progress (R302). -/
def Main.drPartial (m : Main) (x : DredgeSt) (fs : List DrFail) : DredgeSt × Main :=
  match x.phase with
  | .elem k => m.drFailures x k fs
  | _ => (x, m)

/-- DREDGE_YIELD (R300, R302): an access reaches the strip of an URGENT bank during copy-aside or an element. -/
def Main.drYield (m : Main) (d : Nat) (fs : List DrFail) : Main :=
  match m.dredges.find? (fun x => x.die == d) with
  | none => m
  | some x =>
    let inElem := match x.phase with
      | .copy | .elem _ => true
      | _ => false
    if x.destr || x.dram || d == 0 || decide (64 ≤ x.bank) || !inElem || m.get (F.DREDGE_STAT_STATE d) != 1 ||
        !m.flag (F.BANK_CFG_URGENT d x.bank) then m
    else
      let r := (m.bump (F.DREDGE_STAT_YIELDS d)).drPartial x fs
      let x := r.1
      let m := r.2
      if x.tries + 1 = 8 then (m.bump (F.DREDGE_STAT_SKIPPED d)).drMoveOn { x with tries := 0 } none
      else m.drMoveOn x (some (x.cur, x.tries + 1))

/-- DREDGE_YIELD. -/
def execDredgeYield (x : DrYield) (s : State) : Host.Outcome State Fault Refusal := s.onMain fun m => m.drYield x.die.val x.fs

/-- R303: a bank switches to a spare; its correctable words have been corrected on the way. -/
def Main.repairBank (m : Main) (d b spare : Nat) : Main :=
  let was := m.get (F.BANK_STAT_PHYS d b)
  let m := if was = 64 then m.set (F.DREDGE_REPAIR_MAPA d) 0x7F else if was = 65 then m.set (F.DREDGE_REPAIR_MAPB d) 0x7F else m
  let m := m.set (F.BANK_STAT_PHYS d b) spare
  let m := if spare = 64 then m.set (F.DREDGE_REPAIR_MAPA d) b else m.set (F.DREDGE_REPAIR_MAPB d) b
  let m : Main := { m with mem := { m.mem with ce := m.mem.ce.filter (fun a => !inBank (64 * d + b) a) } }
  (m.set (F.DREDGE_STAT_REPAIRED d) 1).raiseSrc 18 d d b

/-- DREDGE_REPAIR (R303): the copy of a failing bank is complete and the bank switches over; the run goes on where it was, or ends where that
was asked for meanwhile (R299, R301). -/
def Main.drRepair (m : Main) (d : Nat) : Main :=
  match m.dredges.find? (fun x => x.die == d) with
  | none => m
  | some x =>
    if m.get (F.DREDGE_STAT_STATE d) ≠ 2 then m
    else match x.repair, m.freeSpare d with
    | b :: t, some sp =>
      let r := (m.repairBank d b sp).drTriage x t
      if r.1.repair ≠ [] then r.2.putDr r.1
      else
        let m := r.2.set (F.DREDGE_STAT_STATE d) 1
        if !x.destr then m.drMoveOn { r.1 with tries := 0, later := none } x.later
        else
          let all := match x.phase with
            | .elem k => decide (drElems x.alg ≤ k)
            | _ => false
          if all then ((m.drWhole x).set (F.DREDGE_STAT_DONE d) x.count).drEnd d (x.ending.getD 0)
          else match x.ending with
            | some e => (m.drWhole x).drEnd d e
            | none => m.putDr r.1
    | _, _ => m

/-- DREDGE_REPAIR. -/
def execDredgeRepair (d : Fin 6) (s : State) : Host.Outcome State Fault Refusal := s.onMain fun m => m.drRepair d.val

/-- DREDGE_STOP (R299, R301, R306): the run ends, a destructive one after its current line operation, a preserving one when it tests
no strip now; otherwise after the strip has been restored, or the bank repaired (log 97). part: what the current element has done; with none,
the line operation of a destructive run is still to come. -/
def Main.drStop (m : Main) (d : Nat) (part : Option DrPart) (stop : Bool) : Main :=
  match m.dredges.find? (fun x => x.die == d) with
  | none => m
  | some x =>
    let x := { x with ending := if stop then some (x.ending.getD 7) else x.ending }
    match x.ending with
    | none => m
    | some e =>
      if m.get (F.DREDGE_STAT_STATE d) = 2 then m.putDr x
      else match x.phase, part with
      | .gap _, _ => m.drEnd d e
      | .pause _ _, _ => (m.drWhole x).drEnd d e
      | .elem k, some p =>
        if x.destr then
          let r := m.drFailures x k p.fs
          (r.2.drLeave x k p.lines).drEnd d e
        else m.putDr x
      | _, _ => m.putDr x

/-- DREDGE_STOP: a write of 1 to STOP, or (stop false) the end that a write of STOP, a handover or a power request has asked for. -/
def execDredgeStop (d : Fin 6) (part : DrPart) (stop : Bool) (s : State) : Host.Outcome State Fault Refusal :=
  s.onMain fun m => m.drStop d.val (some part) stop

end Sys2Proof.Machine
end

