-- ==== Sys2Proof/Machine/Resets.lean ====
section
/-! DEFINITION. What a tuft, a context or a die loses (R78, R113, R186, R214, R220, R257, R278, R286, R305, R321, R344, R364, R368, R530), and
the isolation of a die with the takeover of its paired work (R35, R248). -/

namespace Sys2Proof.Machine

/-! ### Tufts (R78, R113) -/

/-- The contexts with work in the tufts that p selects (R78, R113; log 133). -/
def Main.tuftWork (m : Main) (p : Fin 8 → Fin 8 → Bool) : List (BitVec 8) :=
  let t := m.tuft
  (((t.ms ++ t.spill).filter (fun e => p e.die e.tuft)).map (fun e => e.ctx) ++
   (t.probes.filter (fun e => p e.die e.tuft)).map (fun e => e.tok.ctx) ++
   (t.weir.filter (fun e => p e.die e.tuft)).map (fun e => e.tok.ctx) ++
   (t.recs.filter (fun e => p e.die e.tuft)).map (fun e => e.ctx) ++
   (t.divs.filter (fun e => p e.die e.tuft)).flatMap (fun e => e.cur.ctx :: e.queue.map (fun f => f.ctx)) ++
   ((m.tok.ready ++ m.req.cmpWait ++ m.req.walks).filter (fun f => p f.die f.tuft)).map (fun f => f.ctx) ++
   (m.tok.arrived.filter (fun a => p a.die a.tuft)).map (fun a => a.tok.ctx)).eraseDups

/-- The stores, records, dividers, ready operand sets, translations and bus state of the tufts that p selects are lost (R78, R113, R278). Their
commit counts stay, so that no commit is applied twice (R226, log 233). -/
def Main.tuftEmpty (m : Main) (p : Fin 8 → Fin 8 → Bool) : Main :=
  let t := m.tuft
  let keep := fun (k : Nat) => !p (fin8 (k / 8)) (fin8 (k % 8))
  let own := fun (o : TlbOwner) => match o with
    | .tuft d u => p d u
    | .flumes _ => false
  { m with
    tok := { m.tok with ready := m.tok.ready.filter (fun f => !p f.die f.tuft), arrived := m.tok.arrived.filter (fun a => !p a.die a.tuft) }
    req := { m.req with walks := m.req.walks.filter (fun f => !p f.die f.tuft), cmpWait := m.req.cmpWait.filter (fun f => !p f.die f.tuft) }
    tuft := { t with
      ms := t.ms.filter (fun e => !p e.die e.tuft), spill := t.spill.filter (fun e => !p e.die e.tuft),
      probes := t.probes.filter (fun e => !p e.die e.tuft), weir := t.weir.filter (fun e => !p e.die e.tuft),
      recs := t.recs.filter (fun e => !p e.die e.tuft), divs := t.divs.filter (fun e => !p e.die e.tuft),
      epochs := t.epochs.filter (fun e => !p e.die e.tuft), 
      bus := t.bus.map (fun e => if p e.die e.tuft then { e with bad := 0, hold := false, seq := none, pos := [], dirn := [] } else e),
      tlb := t.tlb.filter (fun e => !own e.owner), wcache := t.wcache.filter (fun e => !p e.die e.tuft),
      ages := t.ages.filter (fun e => keep e.1), inj := t.inj.filter (fun e => keep e.1) } }

/-- R78, R344: each context with lost work gets one TUFT_RESET fault token, which breaks it; then they lose their sluices. A TLBINV that waited
for what was lost is answered (R163). -/
def Main.tuftTell (m : Main) (cs : List (BitVec 8)) (detail : Nat) (die tuft : Fin 8) : Main :=
  let live := cs.filter (fun c => !m.dead c.toNat)
  let m := live.foldl (fun m c =>
    m.faultOnly { ctx := c.toNat, code := fcTuftReset, detail := detail, object := 0, frame := 0, side := false, ia := 0, die := die,
                  tuft := tuft }) m
  (m.slContextsGone (live.map BitVec.toNat)).settleInv

/-- The registers of a tuft: its own block, and its word in the scheduler's (R14). -/
def RegAt.ofTuft (a : RegAt) (d t : Nat) : Bool :=
  a.die == d && a.i == t &&
  [RegName.TUFT_MSOCC, .TUFT_MSSPILL, .TUFT_MSPROBE, .TUFT_MSERR, .TUFT_MSCTL, .TUFT_LCOCC, .TUFT_DIVSTAT, .TUFT_WEIROCC, .TUFT_WEIRREL,
   .TUFT_TLBSTAT, .TUFT_LCREC, .SCHED_STAT].contains a.row.name

/-- An OTP word as it is fused. -/
def Main.otpWord (m : Main) (k : Nat) : Nat := nmGet m.hw.otp k 0

/-- R527: a reset of the whole device is in progress, which covers every narrower one. -/
def Main.resetRuns (m : Main) : Bool := m.sys.pow != 0 || m.sys.warm

/-- TUFT_RESET (R78, R113, R525, R527, R530): one tuft of a die that can be reached. -/
def Main.tuftReset (m : Main) (d t : Nat) : Main :=
  if !(m.compute d && m.dieLive d) || m.resetRuns then m
  else
    let p := fun (x y : Fin 8) => x.val == d && y.val == t
    let cs := m.tuftWork p
    ((m.tuftEmpty p).tuftTell cs (d + t * 8) (fin8 d) (fin8 t)).resetRegs .tuft (fun a => a.ofTuft d t)

/-- TUFT_RESET. -/
def execTuftReset (d t : Fin 8) (s : State) : Host.Outcome State Fault Refusal := s.onMain fun m => m.tuftReset d.val t.val

/-! ### Contexts (R235, R525, R527) -/

/-- R139: deferred reads leave their die's table; a word left with none returns to EMPTY. -/
def Main.deferDrop (m : Main) (p : DeferEntry → Bool) : Main :=
  let gone := m.req.defer.filter p
  let m : Main := { m with req := { m.req with defer := m.req.defer.filter (fun e => !p e) } }
  gone.foldl (fun m e =>
    if m.presence e.word = 2 ∧ m.req.defer.all (fun x => x.word != e.word) = true then m.setPresence e.word 0 else m) m

/-- The registers of a context's descriptor (R46). -/
def RegAt.ofContext (a : RegAt) (c : Nat) : Bool :=
  a.i == c &&
  [RegName.CTXTAB_STATE, .CTXTAB_HANDLER, .CTXTAB_SOAK, .CTXTAB_SOAKOCC, .CTXTAB_FPCTL, .CTXTAB_FPSTICKY, .CTXTAB_SCHED, .CTXTAB_PAIR,
   .CTXTAB_DLSTAT, .CTXTAB_PTROOT, .CTXTAB_PARK].contains a.row.name

/-- Tokens on their way are discarded; a resolving operation that waits for one of them gets its RPSTAT (R359). -/
def Main.tokensDrop (m : Main) (p : Token → Bool) : Main :=
  let gone := m.tok.inflight.filter p ++ (m.tok.arrived.filter (fun a => p a.tok)).map (fun a => a.tok)
  let m := gone.foldl (fun m t => m.rpDone t.replay 2) m
  { m with tok := { m.tok with inflight := m.tok.inflight.filter (fun t => !p t), arrived := m.tok.arrived.filter (fun a => !p a.tok) } }

/-- R52: tokens of a context that is reset are discarded wherever they are, and counted at their routers. -/
def Main.tokensGone (m : Main) (p : Token → Bool) : Main :=
  let m := (m.tok.inflight.filter p).foldl (fun m t => m.discard (m.routerOf t)) m
  ((m.tok.arrived.filter (fun a => p a.tok)).foldl (fun m a => m.discard a.die.val) m).tokensDrop p

/-- A divider and its queue without the firings that p selects: the first of those that remain is in it. -/
def Divider.without (e : Divider) (p : Firing → Bool) : Option Divider :=
  match (e.cur :: e.queue).filter (fun f => !p f) with
  | [] => none
  | f :: fs => some { e with cur := f, queue := fs }

/-- Firings leave the dividers; a divide that waited behind one starts, and is counted (R191). -/
def Main.divsDrop (m : Main) (p : Firing → Bool) : Main :=
  let start := m.tuft.divs.filter (fun e => p e.cur && e.queue.any (fun f => !p f))
  start.foldl (fun m e => m.bump (F.TUFT_DIVSTAT_DIVS e.die.val e.tuft.val))
    { m with tuft := { m.tuft with divs := m.tuft.divs.filterMap (fun e => e.without p) } }

/-- What the tufts and the translation hold of a context (R78, R113, R278). -/
def Main.tuftsForget (m : Main) (c : BitVec 8) : Main :=
  let m := m.divsDrop (fun f => f.ctx == c)
  let t := m.tuft
  { m with
    tok := { m.tok with ready := m.tok.ready.filter (fun f => f.ctx != c) }
    tuft := { t with
      ms := t.ms.filter (fun e => e.ctx != c), spill := t.spill.filter (fun e => e.ctx != c),
      probes := t.probes.filter (fun e => e.tok.ctx != c), recs := t.recs.filter (fun e => e.ctx != c),
      taken := t.taken.filter (fun i => i / 256 != c.toNat), survived := t.survived.filter (fun p => p.1 != c.toNat),
      epochs := t.epochs.filter (fun e => e.ctx != c), tlb := t.tlb.filter (fun e => e.ctx != c),
      wcache := t.wcache.filter (fun e => e.ctx != c) } }

/-- What the units behind the requests hold of a context (R127, R179, R186, R247, R351). -/
def Main.unitsForget (m : Main) (c : BitVec 8) : Main :=
  let r := m.req
  { m with req := { r with
      walks := r.walks.filter (fun f => f.ctx != c), tlbInvs := r.tlbInvs.filter (fun t => t.f.ctx != c),
      cmp := r.cmp.filter (fun e => e.ctx != c), cmpWait := r.cmpWait.filter (fun f => f.ctx != c),
      units := r.units.filter (fun u => u.ctx != c), fpTraps := r.fpTraps.filter (fun t => t.ctx != c),
      fpctlCopy := r.fpctlCopy.filter (fun p => p.1 != c.toNat), ticks := r.ticks.filter (fun t => t.ctx != c),
      park := { r.park with slots := r.park.slots.filter (fun p => p.ctx != c), seqs := nmDel r.park.seqs c.toNat,
                            boost := nmDel r.park.boost c.toNat } } }

/-- CONTEXT_RESET (R525, R527, R530): every effect that the chapters give for a context reset; contexts 0 and 255 are ignored. -/
def Main.contextReset (m : Main) (c : Nat) : Main :=
  if c = 0 ∨ c = 255 ∨ m.resetRuns = true then m
  else
    let x := BitVec.ofNat 8 c
    let m := (m.flContextReset c).slContextGone c
    let m := m.runnels.foldl (fun m r => m.rnContextReset c (m.rn r.die r.idx)) m
    let m := (m.ctxGone c).deferDrop (fun e => e.ret.ctx == x)
    let m := ((((m.tokensGone (fun t => t.ctx == x)).tuftsForget x).unitsForget x).occClear c).settleInv
    (m.resetRegs .context (fun a => a.ofContext c)).set F.MODE_CTXRST_BUSY 1

/-- CONTEXT_RESET. -/
def execContextReset (c : BitVec 8) (s : State) : Host.Outcome State Fault Refusal := s.onMain fun m => m.contextReset c.toNat

/-- CONTEXT_RESET_DONE (R527). -/
def execContextResetDone (s : State) : Host.Outcome State Fault Refusal := s.onMain fun m => m.set F.MODE_CTXRST_BUSY 0

/-! ### Dies -/

/-- R541: a die position changes its STATE. -/
def Main.dieSet (m : Main) (d st : Nat) : Main :=
  if m.dieState d = st then m else (m.set (F.MODE_DIE_STATE d) st).event (935 + d) st

/-- R364: the deferral table of a die is cleared, and each context that had entries in it is told. -/
def Main.deferLost (m : Main) (d : Nat) : Main :=
  let mine := fun (e : DeferEntry) => e.die.val == d
  let told := ((m.req.defer.filter mine).map (fun e => e.ret.ctx)).eraseDups
  told.foldl (fun m c =>
    m.faultOnly { ctx := c.toNat, code := fcIstructLost, detail := d, object := 0, frame := 0, side := false, ia := 0, die := 0, tuft := 0 })
    (m.deferDrop mine)

/-- The unit lies on a die as a runnel or flume (R368). -/
def UnitId.onDie (u : UnitId) (d : Nat) : Bool :=
  match u with
  | .runnel e _ => e == d
  | .flume e _ => e == d
  | _ => false

/-- What a compute die holds outside its tufts: translations of its flumes, bank changes, its performance-level change, its agent's
status word, halted dispatch, its links, its registers (R278, R321, R364, R368, R516, R530). -/
def Main.dieEmpty (m : Main) (d : Nat) : Main :=
  let m := ((m.rnDieReset d).ustReset (fun u => u.onDie d)).culvOff d
  let m : Main := { m with
    tuft := { m.tuft with tlb := m.tuft.tlb.filter (fun e => e.owner != .flumes (fin8 d)),
                          halted := m.tuft.halted.filter (fun k => k / 8 != d) }
    mem := { m.mem with change := m.mem.change.filter (fun e => e.1 / 64 != d), inj := nmDel m.mem.inj d, scrub := nmDel m.mem.scrub d }
    coll := { m.coll with agents := nmDel m.coll.agents d }
    sys := { m.sys with chgs := m.sys.chgs.filter (fun x => x.die != d), busq := m.sys.busq.filter (fun x => x != d) } }
  m.resetRegs .die (fun a => a.die == d && d != 0)

/-- R78, R286, R305, R364, R535: the work of a compute die ends: its dredge run, the contexts with work in its tufts, its flumes, its
deferral table. -/
def Main.dieWorkEnds (m : Main) (d : Nat) : Main :=
  let m := m.drRunsEnd (fun x => x.die == d)
  let p := fun (x _ : Fin 8) => x.val == d
  let cs := m.tuftWork p
  (((m.tuftEmpty p).tuftTell cs (d + 64) 0 0).flDieLost d).deferLost d

/-- R536, R538: the contents of a die that has been without power: scratch, presence states and instruction memory. -/
def Main.dieBlank (m : Main) (d : Nat) : Main :=
  let m := (List.range 64).foldl (fun m b => m.bankLose (64 * d + b)) m
  { m with mem := { m.mem with istr := m.mem.istr.filter (fun e => match regionOf e.1 with
                      | .scratch x _ _ _ => x != d
                      | _ => true) }
           tuft := { m.tuft with imem := m.tuft.imem.filter (fun e => e.die.val != d) } }

/-- Whether a die's ends of its links have power and are not disabled. -/
def Main.powered (m : Main) (d : Nat) : Bool := d == 0 || !([0, 2, 4].contains (m.dieState d))

/-- R526: a die that is up or isolated is reset at once; it rejoins with DIE_REJOIN. A memory die's array stays in self-refresh. -/
def Main.dieResetNow (m : Main) (d : Nat) : Main :=
  let m := if d ≤ 5 then m.dieWorkEnds d else (m.drRunsEnd (fun x => x.dram && 6 + x.first / 2 ^ 20 == d)).deferLost d
  let m := (m.dieEmpty d).dieSet d 6
  m.culvTrainDie d m.powered

/-- R536: a dormant die wakes: it comes out of a die reset with nothing kept, and its links train. -/
def Main.dieWake (m : Main) (d : Nat) : Main :=
  let m := (m.dieEmpty d).dieSet d 5
  ((m.set (F.MODE_DIE_WAKEPEND d) 0).bump (F.MODE_DIE_WAKES d)).culvTrainDie d m.powered

/-! ### Isolation and takeover (R35, R248) -/

/-- R35, R248 step 1: the culverts to a die are disabled, and what it still has under way is discarded. -/
def Main.dieIsolate (m : Main) (d : Nat) : Main :=
  let links := m.dieLinks d
  let m := (m.culvOff d).dieSet d 2
  let m : Main := (m.bump (F.MODE_DIE_ISOLS d))
  let m : Main := { m with sys := { m.sys with isol := m.sys.isol.filter (fun x => x != d) ++ [d] } }
  let m := links.foldl (fun m x => m.linkAborts x.2.1 d) m
  (m.tokensDrop (fun t => t.odie.val == d && d != 0)).flDieLost d

/-- The paired entries of a context that have a copy on a die (R248). -/
def Main.pairedOn (m : Main) (c d : Nat) : List Nat :=
  m.validEntries.filter (fun i => i / 256 == c && plPaired (m.master i) && (plDie (m.master i) false == d || plDie (m.master i) true == d))

/-- Every request that the units hold for a firing is changed by g. -/
def Main.mapUnits (m : Main) (g : Firing → Firing) : Main :=
  let rq := fun (r : MemReq) => { r with f := g r.f }
  { m with
    req := { m.req with
      reqs := m.req.reqs.map rq
      tlbInvs := m.req.tlbInvs.map (fun v => { f := g v.f, reqs := v.reqs.map rq, walks := v.walks.map g }) }
    runnels := m.runnels.map (fun r => { r with held := r.held.map g })
    waiters := m.waiters.map (fun w => { w with f := g w.f }) }

/-- Every firing that the tufts hold is changed by g. -/
def Main.mapTufts (m : Main) (g : Firing → Firing) : Main :=
  { m with
    tok := { m.tok with ready := m.tok.ready.map g }
    req := { m.req with walks := m.req.walks.map g, cmpWait := m.req.cmpWait.map g }
    tuft := { m.tuft with
      recs := m.tuft.recs.map (fun r => { r with held := r.held.map g })
      divs := m.tuft.divs.map (fun e => { e with cur := g e.cur, queue := e.queue.map g }) } }

/-- R127, R248: the request of a lost copy: where the other copy has asked too, it is that copy's from now on; otherwise it is nobody's. -/
def Main.lostRequest (m : Main) (f : Firing) : Firing :=
  match m.req.cmp.find? (fun e => e.isFor f && e.first == f.side && e.second.isSome) with
  | some { second := some r, .. } => { f with die := r.die, tuft := r.tuft, side := r.side }
  | _ => { f with lost := true }

/-- R248: requests of lost copies at their units. What no other copy waits for is not done where it has not begun: held runnel requests, sluice
waits, TLBINVs, deferred reads; an access to memory and a flume go on, and their results go nowhere (log 200). -/
def Main.lostAsked (m : Main) (gone : Firing → Bool) (lostRet : Ret → Bool) : Main :=
  let m := (m.mapUnits (fun f => if gone f then m.lostRequest f else f)).deferDrop (fun e => lostRet e.ret)
  { m with
    req := { m.req with tlbInvs := m.req.tlbInvs.filter (fun v => !v.f.lost) }
    runnels := m.runnels.map (fun r => { r with held := r.held.filter (fun f => !f.lost) })
    waiters := m.waiters.filter (fun w => !w.f.lost)
    flumes := m.flumes.map (fun x => if lostRet x.ret then { x with ret := { x.ret with dest0 := noDest, dest1 := noDest } } else x) }

/-- R186: a firing of a discarded epoch belongs to none: its epoch is not the number of one. -/
def Firing.noEpoch (f : Firing) (c : BitVec 8) (lost : Bool) (gone : List Nat) : Firing :=
  match f.epoch with
  | some (s, e) => if f.ctx == c && s == lost && gone.contains e then { f with epoch := some (s, 256) } else f
  | none => f

/-- R186: the closing epochs of the lost side are discarded, with what the tufts still count in them and the traps that they wait for. -/
def Main.epochsLost (m : Main) (c : BitVec 8) (lost : Bool) : Main :=
  let gone := (m.unitOf c lost).closing.map (fun k => k.epoch)
  let g := fun (f : Firing) => f.noEpoch c lost gone
  let m := m.mapTufts g
  let park := m.req.park.slots.map (fun p => match p.work with
    | .operation f => { p with work := .operation (g f) }
    | _ => p)
  { m with
    req := { m.req with
      park := { m.req.park with slots := park }
      fpTraps := m.req.fpTraps.map (fun t => if t.ctx == c && t.side == lost && gone.contains t.epoch then { t with epoch := 256 } else t)
      units := m.req.units.map (fun u => if u.ctx == c && u.side == lost then { u with closing := [], waiting := [] } else u) }
    tuft := { m.tuft with epochs := m.tuft.epochs.filter (fun t => !(t.ctx == c && t.side == lost && gone.contains t.epoch)) } }

/-- R248 steps 2, 4 and 5, R186: lost-side work of a context is discarded, and its comparator entries are freed. blk tells the blocks that were
paired. -/
def Main.lostGone (m : Main) (c : BitVec 8) (lost : Bool) (blk : BitVec 20 → Bool) : Main :=
  let gone := fun (f : Firing) => f.ctx == c && f.side == lost && blk f.ia
  let ent := fun (e : MsEntry) => e.ctx == c && e.side == lost && blk e.ia
  let m := (m.tokensDrop (fun t => t.ctx == c && t.side == lost)).epochsLost c lost
  let m := (m.lostAsked gone (fun r => r.ctx == c && r.side == lost && blk r.ia)).divsDrop gone
  let m := (m.tuft.spill.filter ent).foldl (fun m e => m.occChange (8 * e.die.val + e.tuft.val) c.toNat false) m
  let t := m.tuft
  Main.settleInv { m with
    tok := { m.tok with ready := m.tok.ready.filter (fun f => !gone f) }
    req := { m.req with cmpWait := m.req.cmpWait.filter (fun f => !gone f), walks := m.req.walks.filter (fun f => !gone f),
                        cmp := m.req.cmp.filter (fun e => e.ctx != c) }
    tuft := { t with
      ms := t.ms.filter (fun e => !ent e), spill := t.spill.filter (fun e => !ent e),
      probes := t.probes.filter (fun e => !(e.tok.ctx == c && e.tok.side == lost && blk e.tok.ia)),
      weir := t.weir.filter (fun e => !(e.tok.ctx == c && e.tok.side == lost && blk e.tok.ia)),
      recs := t.recs.filter (fun e => !(e.ctx == c && e.side == lost && blk (e.block.setWidth 20 <<< 12))) } }

/-- R248 step 6: what survives of a context is SIDE 0 from now on. Its epochs keep their sides (R186). -/
def Main.sideZero (m : Main) (c : BitVec 8) : Main :=
  let op := fun (f : Firing) => if f.ctx == c then { f with side := false } else f
  let ent := fun (e : MsEntry) => if e.ctx == c then { e with side := false } else e
  let tk := fun (t : Token) => if t.ctx == c then { t with side := false } else t
  let work := fun (w : Work) => match w with
    | .operation f => .operation (op f)
    | .token t => .token (tk t)
    | .flume d i => .flume d i
  let m := (m.mapTufts op).mapUnits op
  let t := m.tuft
  { m with
    tok := { m.tok with inflight := m.tok.inflight.map tk, arrived := m.tok.arrived.map (fun a => { a with tok := tk a.tok }) }
    req := { m.req with park := { m.req.park with slots := m.req.park.slots.map (fun p => { p with work := work p.work }) } }
    tuft := { t with
      ms := t.ms.map ent, spill := t.spill.map ent,
      probes := t.probes.map (fun p => { p with tok := tk p.tok, waiting := p.waiting.map tk }),
      weir := t.weir.map (fun w => { w with tok := tk w.tok }),
      recs := t.recs.map (fun r => if r.ctx == c then { r with side := false } else r) } }

/-- The unpaired entry that keeps the surviving copy of a paired one. -/
def plSurvivor (e : Nat) (lost : Bool) : Nat := 1 + plDie e (!lost) * 2 + plTuft e (!lost) * 16 + plSlot e (!lost) * 128

/-- R248: a context with a copy of a paired block on an isolated die, be it FREE or BROKEN too (R35). -/
def Main.takeover (m : Main) (c d : Nat) : Main :=
  let on := m.pairedOn c d
  if on = [] then m
  else
    let lost0 := on.any (fun i => plDie (m.master i) false == d)
    let lost1 := on.any (fun i => plDie (m.master i) true == d)
    if lost0 && lost1 then m.breakCtx c causeDieIsolated d
    else
      let x := BitVec.ofNat 8 c
      let all := m.validEntries.filter (fun i => i / 256 == c && plPaired (m.master i))
      let m := m.lostGone x lost1 (fun ia => all.contains (256 * c + (ia.extractLsb' 12 8).toNat))
      let m : Main := { m with tuft := { m.tuft with taken := (m.tuft.taken ++ all).eraseDups } }
      let m := all.foldl (fun m i => (m.setMaster i (plSurvivor (m.master i) lost1)).copyPlace i (0 :: m.computeDies)) m
      let m := (m.set (F.CTXTAB_PAIR_LOSTSIDE c) (b2n lost1)).set (F.CTXTAB_STATE_SOLE c) 1
      m.sideZero x

/-- R34, R35: a context with an unpaired block on an isolated die is marked broken; the fault token of R35 is sent at once (log 201). -/
def Main.unpairedBreaks (m : Main) (c d : Nat) : Main :=
  if m.validEntries.any (fun i => i / 256 == c && !plPaired (m.master i) && plDie (m.master i) false == d) then
    m.faultOnly { ctx := c, code := fcDieIsolated, detail := d, object := 0, frame := 0, side := false, ia := 0, die := 0, tuft := 0 }
  else m

/-- R34, R35: a die is isolated; each paired context with a copy on it switches to the other copy, and what was not paired there is lost. -/
def Main.isolate (m : Main) (d : Nat) : Main :=
  (List.range 256).foldl (fun m c => (m.unpairedBreaks c d).takeover c d) (m.dieIsolate d)

end Sys2Proof.Machine
end

