-- ==== Sys2Proof/Machine/Power.lean ====
section
/-! DEFINITION. Performance levels (R531 to R534, R540), the temperature watch (R265, R270, R458, R534), dormant dies (R535 to R537), and
the PMBus host (R432). -/

namespace Sys2Proof.Machine

/-! ### Dormant dies (R535 to R537) -/

/-- R535, R541: a mode or die request is refused with a reason. -/
def Main.dieRefuse (m : Main) (d reason : Nat) : Main :=
  ((m.set F.MODE_STAT_REFUSED 1).set F.MODE_STAT_REASON reason).event 929 (reason * 16 + d * 128)

/-- R535 steps 1 to 4: entry into dormant begins. -/
def Main.dormantEnter (m : Main) (d : Nat) : Main :=
  let m : Main := { m with sys := { m.sys with dorm := m.sys.dorm.filter (fun x => x != d) } }
  let m := (m.set (F.PWR_STAT_PENDV d) 0).dieSet d 3
  (((m.drRunsDrop d).dieWorkEnds d).rnDieReset d).ustReset (fun u => u.onDie d)

/-- R535: an accepted request waits for a level change in progress. -/
def Main.dormantAccept (m : Main) (d : Nat) : Main :=
  if m.flag (F.PWR_STAT_CHANGING d) then
    { m with sys := { m.sys with dorm := m.sys.dorm.filter (fun x => x != d) ++ [d] } }.set (F.PWR_STAT_PENDV d) 0
  else m.dormantEnter d

/-- DIE_DORMANT_REQUEST (R535, R537, R540). -/
def Main.dormantReq (m : Main) (d : Nat) : Main :=
  if !m.compute d || m.sys.back.isSome then m.dieRefuse d 4
  else if m.dieState d = 5 then { m with sys := { m.sys with dorm := m.sys.dorm.filter (fun x => x != d) ++ [d] } }
  else if m.dieState d ≠ 1 then m.dieRefuse d 4
  else if m.sys.dorm.contains d then m
  else if (m.computeDies.filter (fun x => m.dieState x == 1)).length ≤ 1 then m.dieRefuse d 7
  else m.dormantAccept d

/-- DIE_DORMANT_REQUEST. -/
def execDieDormantRequest (d : Fin 8) (s : State) : Host.Outcome State Fault Refusal := s.onMain fun m => m.dormantReq d.val

/-- DORMANT_ENTRY_DONE (R535 step 5, R537): the die loses its power; a wake that is pending follows at once. -/
def Main.dormantDone (m : Main) (d : Nat) : Main :=
  if m.dieState d ≠ 3 then m
  else
    let m := (((m.dieWorkEnds d).dieEmpty d).dieBlank d).dieSet d 4
    if m.flag (F.MODE_DIE_WAKEPEND d) then m.dieWake d else m

/-- DORMANT_ENTRY_DONE. -/
def execDormantEntryDone (d : Fin 8) (s : State) : Host.Outcome State Fault Refusal := s.onMain fun m => m.dormantDone d.val

/-- DIE_WAKE_REQUEST (R536, R537, R540). -/
def Main.wakeReq (m : Main) (d : Nat) : Main :=
  if m.sys.back.isSome then m.dieRefuse d 4
  else if m.dieState d = 4 then m.dieWake d
  else if m.dieState d = 3 then m.set (F.MODE_DIE_WAKEPEND d) 1
  else m

/-- DIE_WAKE_REQUEST. -/
def execDieWakeRequest (d : Fin 8) (s : State) : Host.Outcome State Fault Refusal := s.onMain fun m => m.wakeReq d.val

/-! ### Performance levels (R531 to R533) -/

/-- R531: VCORE of a level in mV. -/
def plMv (l : Nat) : Nat := [600, 600, 620, 650, 700, 750, 800, 850].getD l 850

/-- The change in progress on a die. -/
def Main.pwrChg (m : Main) (d : Nat) : Option PwrChg := m.sys.chgs.find? (fun x => x.die == d)

/-- Store the change in progress on a die. -/
def Main.putPwrChg (m : Main) (x : PwrChg) : Main :=
  { m with sys := { m.sys with chgs := m.sys.chgs.filter (fun y => y.die != x.die) ++ [x] } }

/-- R532: a PMBus transaction of the sequencer joins those that wait. -/
def Main.busJoin (m : Main) (d : Nat) : Main := { m with sys := { m.sys with busq := m.sys.busq ++ [d] } }

/-- R532: the transaction in front has completed. -/
def Main.busDone (m : Main) : Main := { m with sys := { m.sys with busq := m.sys.busq.drop 1 } }

/-- R532: a change to level t begins: voltage first on the way up, frequency first on the way down. -/
def Main.pwrStart (m : Main) (d t : Nat) : Main :=
  let up := decide (m.get (F.PWR_STAT_CUR d) < t)
  let m := (m.set (F.PWR_STAT_TARGET d) t).set (F.PWR_STAT_CHANGING d) 1
  let m := m.putPwrChg { die := d, to_ := t, up := up, phase := if up then 0 else 3, at_ := m.now, reps := 0 }
  if up then m.busJoin d else m

/-- R533: a new target while no change is in progress. -/
def Main.pwrGo (m : Main) (d t : Nat) : Main := if t = m.get (F.PWR_STAT_CUR d) then m else m.pwrStart d t

/-- R533: the target that the requested level and the cap give. -/
def Main.pwrTarget (m : Main) (d : Nat) : Nat := Nat.min (m.get (F.PWR_REQ_LEVEL d)) (m.get (F.PWR_STAT_CAP d))

/-- R533: a target becomes pending. -/
def Main.pwrPend (m : Main) (d t : Nat) : Main := (m.set (F.PWR_STAT_PEND d) t).set (F.PWR_STAT_PENDV d) 1

/-- R533, R535, R541: a change ends, completed or failed; a dormant request or the pending target follows. -/
def Main.pwrEnd (m : Main) (d : Nat) (ok : Bool) : Main :=
  let m : Main := { m with sys := { m.sys with chgs := m.sys.chgs.filter (fun x => x.die != d) } }
  let m := (m.set (F.PWR_STAT_CHANGING d) 0).set (F.PWR_STAT_TARGET d) (m.get (F.PWR_STAT_CUR d))
  let m := if ok then m.bump (F.PWR_STAT_CHANGES d) else m
  let m := m.event (929 + d) (m.get (F.PWR_STAT_CUR d) + m.get (F.PWR_STAT_REQ_REPLACED d) * 8 + m.get (F.PWR_STAT_CAP d) * 16 +
    m.get (F.PWR_STAT_VFAIL d) * 128)
  if m.sys.dorm.contains d then m.dormantEnter d
  else if m.flag (F.PWR_STAT_PENDV d) then (m.set (F.PWR_STAT_PENDV d) 0).pwrGo d (m.get (F.PWR_STAT_PEND d))
  else m

/-- PWR_REQ_WRITE (R533, R540): a write of the requested level on a die that is ACTIVE, outside STANDBY entry and wake. -/
def Main.pwrReq (m : Main) (d v : Nat) : Main :=
  if !m.compute d || m.dieState d != 1 || m.sys.back.isSome then m
  else
    let m := m.set (F.PWR_REQ_LEVEL d) (v % 8)
    let t := m.pwrTarget d
    if !m.flag (F.PWR_STAT_CHANGING d) then m.pwrGo d t
    else
      let m := if m.flag (F.PWR_STAT_PENDV d) then (m.set (F.PWR_STAT_REQ_REPLACED d) 1).bump (F.PWR_STAT_REPLACES d) else m
      m.pwrPend d t

/-- PWR_REQ_WRITE. -/
def execPwrReqWrite (d : Fin 8) (v : Word) (s : State) : Host.Outcome State Fault Refusal := s.onMain fun m => m.pwrReq d.val v.toNat

/-- A step of a change that is in a phase. -/
def Main.pwrStep (m : Main) (d phase : Nat) (act : PwrChg → Main → Main) : Main :=
  match m.pwrChg d with
  | some x => if x.phase = phase then act x m else m
  | none => m

/-- VOUT_COMMAND_DONE (R532): the write of the transaction in front completes and the wait begins. -/
def Main.voutDone (m : Main) (d : Nat) : Main :=
  if m.sys.busq.head? ≠ some d then m
  else m.pwrStep d 0 fun x m => m.busDone.putPwrChg { x with phase := 1, at_ := m.now }

/-- VOUT_COMMAND_DONE. -/
def execVoutCommandDone (d : Fin 8) (s : State) : Host.Outcome State Fault Refusal := s.onMain fun m => m.voutDone d.val

/-- VOLTAGE_SETTLE_EXPIRY (R532, R543): VSETTLE µs have passed; the read is requested. -/
def Main.settleExpiry (m : Main) (d : Nat) : Main :=
  m.pwrStep d 1 fun x m =>
    if m.now < x.at_ + 1000 * Nat.max 1 (Nat.min 1000 (m.get (F.PWR_CFG_VSETTLE d))) then m
    else (m.putPwrChg { x with phase := 2, at_ := m.now }).busJoin d

/-- VOLTAGE_SETTLE_EXPIRY. -/
def execVoltageSettleExpiry (d : Fin 8) (s : State) : Host.Outcome State Fault Refusal := s.onMain fun m => m.settleExpiry d.val

/-- The rail entry of a die's VCORE (R438); of no entry or several it is a free value (log 134). -/
def Main.vcoreRail (m : Main) (d : Nat) : Nat × Main :=
  match (List.range 16).filter (fun k => m.flag (F.PMB_RAIL_EN k) && m.get (F.PMB_RAIL_KIND k) == d) with
  | [k] => (k, m)
  | _ => (m.takeFree.1 % 16, m.takeFree.2)

/-- VOUT_READBACK (R532): READ_VOUT in mV: within 15 mV of the target it completes the step, otherwise the wait and the read are
repeated up to 8 times. -/
def Main.voutRead (m : Main) (d mv : Nat) : Main :=
  if m.sys.busq.head? ≠ some d then m
  else m.pwrStep d 2 fun x m =>
    let m := m.busDone
    let t := plMv x.to_
    if mv ≤ t + 15 ∧ t ≤ mv + 15 then
      if x.up then m.putPwrChg { x with phase := 3, at_ := m.now } else m.pwrEnd d true
    else if x.reps < 8 then m.putPwrChg { x with phase := 1, at_ := m.now, reps := x.reps + 1 }
    else
      let k := (m.set (F.PWR_STAT_VFAIL d) 1).vcoreRail d
      (k.2.raiseSrc 38 0 d k.1).pwrEnd d false

/-- VOUT_READBACK. -/
def execVoutReadback (d : Fin 8) (mv : BitVec 16) (s : State) : Host.Outcome State Fault Refusal :=
  s.onMain fun m => m.voutRead d.val mv.toNat

/-- FREQUENCY_SWITCH (R532): the die runs at the new frequency; on the way down the voltage step follows. -/
def Main.freqSwitch (m : Main) (d : Nat) : Main :=
  m.pwrStep d 3 fun x m =>
    let m := m.set (F.PWR_STAT_CUR d) x.to_
    if x.up then m.pwrEnd d true else (m.putPwrChg { x with phase := 0, at_ := m.now }).busJoin d

/-- FREQUENCY_SWITCH. -/
def execFrequencySwitch (d : Fin 8) (s : State) : Host.Outcome State Fault Refusal := s.onMain fun m => m.freqSwitch d.val

/-! ### Temperatures (R265, R270, R458, R534) -/

/-- R534: the cap that a temperature in 1/8 °C gives, from the cap in force. -/
def capNext (cap : Nat) (tj : Int) : Nat :=
  if 145 * 8 < tj then 3
  else if cap = 3 ∧ 140 * 8 < tj then 3
  else if 135 * 8 < tj then 5
  else if cap ≠ 7 ∧ 130 * 8 < tj then 5
  else 7

/-- R533, R534, R541: a cap is applied or lifted. -/
def Main.capSet (m : Main) (d cap tj12 : Nat) : Main :=
  let old := m.get (F.PWR_STAT_CAP d)
  if cap = old then m
  else
    let m := (m.set (F.PWR_STAT_CAP d) cap).event (944 + d) (cap + tj12 * 2 ^ 16)
    let m := if cap < old then (m.bump (F.PWR_THERM_CAPS d)).raiseSrc 3 d d tj12 else m
    let t := m.pwrTarget d
    if !m.flag (F.PWR_STAT_CHANGING d) then
      (if m.dieState d = 1 ∧ m.sys.back.isNone = true then m.pwrGo d t else m)
    else if cap < old then
      m.pwrPend d (if m.flag (F.PWR_STAT_PENDV d) then Nat.min (m.get (F.PWR_STAT_PEND d)) cap else t)
    else if m.get (F.PWR_STAT_CUR d) < m.get (F.PWR_REQ_LEVEL d) then m.pwrPend d t
    else m

/-- R534: THERMAL_FAULT is counted when a die rises above 155 °C, and again only after it has been at or below it (log 135). -/
def Main.thermalFault (m : Main) (p : Nat) (tj : Int) (tj12 : Nat) : Main :=
  let was := m.sys.hot.contains p
  let hot := decide (155 * 8 < tj)
  let m : Main := { m with sys := { m.sys with hot := m.sys.hot.filter (fun x => x != p) ++ (if hot then [p] else []) } }
  if hot && !was then m.raiseSrc 4 p p tj12 else m

/-- TEMPERATURE_UPDATE (R458, R534): a die that can be read shows its junction temperature in 1/8 °C. -/
def Main.temperature (m : Main) (p : Nat) (tj : BitVec 12) : Main :=
  if !m.watches || !m.pop p || !m.dieLive p then m
  else
    let x := tj.toInt
    let y := tj.toNat
    let m := (m.set (F.SURVEY_TEMP_TJ p) (uns 16 x)).thermalFault p x y
    if p = 0 then
      let was := m.sys.warmCap
      let now := decide (135 * 8 < x) || (was && decide (130 * 8 < x))
      let m : Main := { m with sys := { m.sys with warmCap := now } }
      if now && !was then m.raiseSrc 3 0 0 y else m
    else if p ≤ 5 then
      ((m.set (F.PWR_THERM_TJ p) y).retBlock p (decide (125 * 8 < x))).capSet p (capNext (m.get (F.PWR_STAT_CAP p)) x) y
    else m.set (F.MEMCTL_STAT_REFX p) (if 125 * 8 < x then 2 else if 85 * 8 < x then 1 else 0)

/-- TEMPERATURE_UPDATE. -/
def execTemperatureUpdate (p : Fin 8) (tj : BitVec 12) (s : State) : Host.Outcome State Fault Refusal :=
  s.onMain fun m => m.temperature p.val tj

/-! ### PMBus (R432, R438) -/

/-- A write of PMB.CMD: ignored while a transaction is under way, else its fields, and GO starts one. -/
def Main.pmbWrite (m : Main) (v : Nat) : Main :=
  if m.flag F.PMB_CMD_GO then m
  else m.setWord v [F.PMB_CMD_CODE, F.PMB_CMD_RAIL, F.PMB_CMD_OP, F.PMB_CMD_DATA, F.PMB_CMD_GO]

/-- The change of the rail that PMB.CMD names is in progress. -/
def Main.railChanges (m : Main) : Bool :=
  let k := m.get F.PMB_CMD_RAIL
  m.flag (F.PMB_RAIL_EN k) && (m.pwrChg (m.get (F.PMB_RAIL_KIND k))).isSome

/-- The end of a software transaction. -/
def Main.pmbDone (m : Main) (result data : Nat) : Main :=
  if !m.flag F.PMB_CMD_GO || m.railChanges then m
  else
    let m := (m.set F.PMB_CMD_RESULT result).set F.PMB_CMD_GO 0
    match m.get F.PMB_CMD_OP with
    | 2 => m.set F.PMB_CMD_DATA (data % 256)
    | 3 => m.set F.PMB_CMD_DATA data
    | _ => m

/-- PMBUS_COMMAND (R432). -/
def execPmbusCommand (ev : PmbEv) (s : State) : Host.Outcome State Fault Refusal :=
  s.onMain fun m => match ev with
    | .start v => m.pmbWrite v.toNat
    | .done result data => m.pmbDone result.toNat data.toNat

/-- R500: the die that a rail entry feeds; of VMEM, which feeds both memory dies of a D8, a free value says which (log 136). -/
def Main.railFeeds (m : Main) (k : Nat) : Nat × Main :=
  let kind := m.get (F.PMB_RAIL_KIND k)
  if 1 ≤ kind ∧ kind ≤ 5 then (kind, m)
  else if kind = 7 ∧ m.pop 6 = true then (if m.pop 7 then (6 + m.takeFree.1 % 2, m.takeFree.2) else (6, m))
  else (0, m)

/-- PMBUS_ALERT (R432): the regulator that answered the alert address. -/
def Main.pmbAlert (m : Main) (addr : Nat) : Main :=
  let ks := (List.range 16).filter (fun k => m.flag (F.PMB_RAIL_EN k) && m.get (F.PMB_RAIL_ADDR k) == addr)
  let m := ks.foldl (fun m k =>
    let w := m.get F.PMB_ALERT_RAILS
    let x := (if bitsOf w k 1 = 1 then m else m.set F.PMB_ALERT_RAILS (w + 2 ^ k)).railFeeds k
    x.2.raiseSrc 38 0 x.1 k) m
  m.event 959 (m.get F.PMB_ALERT_RAILS)

/-- PMBUS_ALERT. -/
def execPmbusAlert (addr : BitVec 7) (s : State) : Host.Outcome State Fault Refusal := s.onMain fun m => m.pmbAlert addr.toNat

end Sys2Proof.Machine
end

