-- ==== Sys2Proof/Machine/Modes.lean ====
section
/-! DEFINITION. Modes (R518 to R524), STANDBY (R538 to R540), die resets and rejoining (R526, R536, R537), warm, pin and power-on reset
(R525, R527 to R530), and the power of the safety island (R16, R565). -/

namespace Sys2Proof.Machine

/-! ### Mode changes -/

/-- R522: a mode change takes effect; a stimulus of the survey engine goes with it (R444). -/
def Main.modeChange (m : Main) (mode why : Nat) : Main := (m.enterMode mode why).survMode m.mode

/-- R505, R526: a die's isolation has not ended: it is ISOLATED, or on its way to rejoin from that. -/
def Main.outcast (m : Main) (d : Nat) : Bool := m.dieState d == 2 || m.sys.isol.contains d

/-- R519: a compute die is isolated. -/
def Main.isolated (m : Main) : Bool := m.computeDies.any (fun d => m.sys.isol.contains d)

/-- R519, R521: RUN and CHANGEOVER with an isolated compute die become DEGRADED. -/
def Main.degrade (m : Main) : Main := if (m.mode = 4 ∨ m.mode = 5) ∧ m.isolated = true then m.modeChange 6 3 else m

/-- R510: ALIVE_OUT stops at its present level (why as in STOPWHY). -/
def Main.aliveStop (m : Main) (why : Nat) : Main :=
  ((m.set F.FAULT_ALIVE_START 0).set F.FAULT_SUMMARY_ALIVESTOP 1).set F.FAULT_SUMMARY_STOPWHY why

/-- R500: an output disable. -/
def Main.outputOff (m : Main) (o : OutSel) : Main := if m.enabled o then m.putEnable o 0 else m

/-- R504: L4. -/
def Main.reactL4 (m : Main) : Main :=
  let m := (allOutputs.filter m.gated).foldl Main.outputOff m
  let m := if [0, 1, 7, 10, 11].contains m.mode then m else m.modeChange 7 5
  m.aliveStop 1

/-- R505: a context owns a safety-gated output channel (R215). -/
def Main.ownsGated (m : Main) (c : Nat) : Bool :=
  (allOutputs.filter m.gated).any (fun o =>
    let own := fun (ch : Nat) => m.flag (F.OUTSCHED_OWN_OWNED ch) && m.get (F.OUTSCHED_OWN_CTX ch) == c
    match o with
    | .dac n => own n.val
    | .motor k => [0, 1, 2, 3].any (fun j => own (0x100 + 4 * k.val + j))
    | .gpio n => own (0x200 + n.val)
    | _ => false)

/-- R505: a die is the last compute die that is not isolated. -/
def Main.lastDie (m : Main) (d : Nat) : Bool := decide (d ≤ 5) && (m.computeDies.filter (fun x => x != d)).all m.outcast

/-- R504, R505: a die is isolated as an L3 reaction does it; whether an L4 follows: of a memory die, or where a context that it breaks owns a
gated channel. -/
def Main.isolateAs (m : Main) (d : Nat) : Bool × Main :=
  let was := (List.range 256).filter (fun c => m.run c != 3)
  let n := (m.isolate d).degrade
  (decide (6 ≤ d) || was.any (fun c => n.run c == 3 && n.ownsGated c), n)

/-! ### STANDBY (R538, R539) -/

/-- R538: STANDBY entry begins. -/
def Main.standbyEnter (m : Main) : Main :=
  let m := (allOutputs.filter (fun o => m.gated o && m.enabled o)).foldl (fun m o => m.putEnable o 0) m
  let m := { m with sys := { m.sys with back := some m.mode, wake := none } }.set F.MODE_STAT_CHANGING 1
  let m := m.aliveStop 0
  (m.computeDies.filter (fun d => m.dieState d == 1)).foldl (fun m d => m.dormantAccept d) m

/-- R9, R519, R521: the mode in which a change to a mode ends: without a compute die that is not isolated it is SAFE-HOLD, and RUN, CHANGEOVER
and DEGRADED are what the isolated dies and the slots make of them (log 237). -/
def Main.modeBack (m : Main) (n : Nat) : Nat :=
  if m.computeDies.all (fun d => m.sys.isol.contains d) then 7
  else if n ≠ 4 ∧ n ≠ 5 ∧ n ≠ 6 then n
  else if m.isolated then 6
  else if n = 5 ∧ m.chgBusy = true then 5 else 4

/-- R529, R539: a warm reset and a wake end when every die that was to join is ACTIVE or has failed to join. -/
def Main.wakeSettle (m : Main) : Main :=
  if m.computeDies.any (fun d => m.dieState d == 5 || m.dieState d == 6) then m
  else if !m.sys.waking then { m with sys := { m.sys with warm := false } }
  else
    let back := m.sys.back.getD 3
    ({ m with sys := { m.sys with back := none, waking := false, warm := false } }.set F.MODE_STAT_CHANGING 0).modeChange (m.modeBack back) 7

/-- R539: a wake source takes effect in STANDBY. -/
def Main.standbyWakeNow (m : Main) (src : Nat) : Main :=
  let m := { m with sys := { m.sys with waking := true, wake := none } }.set F.MODE_STAT_CHANGING 1
  let m := (m.set F.MODE_STBY_LASTWAKE src).event 952 src
  let m := [6, 7].foldl (fun m d => if m.pop d && m.dieLive d then m.set (F.MEMCTL_STAT_READY d) 1 else m) m
  let m := (List.range 64).foldl (fun m n =>
    if m.get (F.AXIS_CFG_MODE n) = 0 then m else (m.set (F.AXIS_STAT_LOSTPOS n) 1).refsStand [2, 3, 4] n) m
  let m := (m.computeDies.filter (fun d => m.dieState d == 4 && bitsOf (m.get F.MODE_STBY_DIES) (d - 1) 1 == 1)).foldl
    (fun m d => m.dieWake d) m
  m.wakeSettle

/-- R539: whether a wake source is enabled. -/
def Main.wakeOn (m : Main) (src : Nat) : Bool :=
  match src with
  | 0 => m.flag F.MODE_STBY_WAKEN
  | 1 => m.flag F.MODE_STBY_SVCEN
  | _ => true

/-- R539, R540: a wake source: it ends STANDBY, or waits for the end of entry. -/
def Main.standbyWake (m : Main) (src : Nat) : Main :=
  if !m.wakeOn src || m.sys.back.isNone || m.sys.waking then m
  else if m.mode = 10 then m.standbyWakeNow src
  else if m.sys.wake.isSome then m
  else { m with sys := { m.sys with wake := some src } }

/-- R539: a wake source acts. A junction temperature above 155 °C also counts THERMAL_FAULT, which the collector takes when it runs. -/
def Main.standbyBy (m : Main) (src : WakeSrc) : Main :=
  match src with
  | .wakeN => m.standbyWake 0
  | .service => m.standbyWake 1
  | .temperature d tj =>
    if m.pop d.val = false ∨ tj.toInt ≤ 155 * 8 ∨ m.sys.back.isNone = true ∨ m.sys.waking = true then m
    else (m.standbyWake 2).thermalFault d.val tj.toInt tj.toNat

/-- STANDBY_WAKE. -/
def execStandbyWake (src : WakeSrc) (s : State) : Host.Outcome State Fault Refusal := s.onMain fun m => m.standbyBy src

/-- SVC_ADDRESS_WAKE (R431): the address comparator matches in STANDBY or on the way there. With WAKENAK 0 the target acknowledges the
address and the transaction goes on when the field die runs; with WAKENAK 1 it does not, and answers the next one (log 207). -/
def Main.svcWake (m : Main) : Main :=
  if !m.wakeOn 1 || m.sys.back.isNone || m.sys.waking then m
  else { m.set F.SVC_STAT_WOKE 1 with comm := { m.comm with svcAck := !m.flag F.SVC_CFG_WAKENAK } }.standbyWake 1

/-- SVC_ADDRESS_WAKE. -/
def execSvcAddressWake (s : State) : Host.Outcome State Fault Refusal := s.onMain Main.svcWake

/-- R538 step 3: the interface units that stop, with their links. -/
def Main.linksDrop (m : Main) : Main :=
  let stops := fun (u : Nat) => decide (u ≤ 0x2F ∨ 0x38 ≤ u ∧ u ≤ 0x41)
  let us := (List.range 0x42).filter (fun u => stops u && m.live (.iface u))
  let m := us.foldl (fun m u => m.ifaceIdle u) m
  let m := m.ustReset (fun u => match u with
    | .iface u => stops u
    | _ => false)
  ((List.range 7).foldl (fun m p => m.ethLink p false 0) m).usbDetach

/-- STANDBY_ENTRY_DONE (R538, R540): once every compute die is dormant, memory is in self-refresh and the clock stops. The mode that stands then
is the one to which the wake returns. -/
def Main.standbyDone (m : Main) : Main :=
  if m.sys.back.isNone || m.sys.waking || m.mode = 10 || m.computeDies.any (fun d => m.dieState d == 1 || m.dieState d == 3) then m
  else
    let m := [6, 7].foldl (fun m d => if m.pop d then m.set (F.MEMCTL_STAT_READY d) 0 else m) m.linksDrop
    let m := ({ m with sys := { m.sys with back := some m.mode } }.set F.MODE_STAT_CHANGING 0).modeChange 10 0
    match m.sys.wake with
    | some src => m.standbyWakeNow src
    | none => m

/-- STANDBY_ENTRY_DONE. -/
def execStandbyEntryDone (s : State) : Host.Outcome State Fault Refusal := s.onMain Main.standbyDone

/-! ### Mode requests (R518 to R520, R552) -/

/-- R520: the targets that a mode lists. -/
def modeTargets (mode : Nat) : List Nat :=
  match mode with
  | 3 => [4, 2, 8, 9, 10]
  | 4 | 6 => [3, 8, 9, 10]
  | 2 => [3, 8]
  | 8 => [3, 4, 2, 9, 10]
  | 9 => [3, 4, 8]
  | 7 => [3, 4, 8]
  | _ => []

/-- R520: a request is refused with a reason. -/
def Main.modeRefuse (m : Main) (t reason : Nat) : Main :=
  ((m.set F.MODE_STAT_REFUSED 1).set F.MODE_STAT_REASON reason).event 929 (t + reason * 16)

/-- R520: a changeover slot is STAGING or ARMED, or a die is ENTERING, JOINING or RESETTING. -/
def Main.modeBusy (m : Main) : Bool :=
  m.chgBusy || (List.range 8).any (fun d => [3, 5, 6].contains (m.dieState d))

/-- MODE_REQUEST (R519, R520, R540, R552; log 137): a write of MODE.REQ by a path. A path below SERVICE is denied the write itself. -/
def Main.modeReq (m : Main) (p : Path) (t : Nat) : Main :=
  let lv := m.pathLevel p
  if lv = 0 then m
  else
    let m := m.set F.MODE_STAT_LASTREQ t
    if p = .debug then m.modeRefuse t 6
    else if m.sys.back.isSome then m.modeRefuse t 4
    else if !(modeTargets m.mode).contains t then m.modeRefuse t 1
    else if (t = 8 ∧ lv < 2) ∨ (t = 9 ∧ lv < 3) then m.modeRefuse t 2
    else if (t = 2 ∨ t = 10) ∧ (m.get F.SAFE_OUT_STOREL ≠ 0 ∨ m.get F.SAFE_OUT_BRKREL ≠ 0) then m.modeRefuse t 3
    else if m.modeBusy then m.modeRefuse t 4
    else if t = 10 ∧ m.sys.isol ≠ [] then m.modeRefuse t 5
    else if t = 10 then m.standbyEnter
    else m.modeChange (if t = 4 ∧ m.isolated = true then 6 else t) 0

/-- MODE_REQUEST. -/
def execModeRequest (p : Path) (t : BitVec 4) (s : State) : Host.Outcome State Fault Refusal := s.onMain fun m => m.regCmd p .MODE_REQ t.toNat fun m => m.modeReq p t.toNat

/-! ### Die resets and rejoining (R526, R536, R537) -/

/-- R526: ISOLATE of a die reset: the die is isolated as by an L3 reaction, with the L4 of R505 in its place or after it. -/
def Main.isolateFirst (m : Main) (d : Nat) : Main :=
  if m.lastDie d then m.reactL4 else if (m.isolateAs d).1 then (m.isolateAs d).2.reactL4 else (m.isolateAs d).2

/-- DIE_RESET (R526, R527, R537): a write of MODE.DIERST with GO. -/
def Main.dieReset (m : Main) (d : Nat) (iso : Bool) : Main :=
  if d = 0 ∨ m.pop d = false ∨ m.resetRuns = true then m
  else match m.dieState d with
    | 1 => if iso && decide (d ≤ 5) then (m.isolateFirst d).dieResetNow d else m.dieResetNow d
    | 2 => m.dieResetNow d
    | 3 => m.set (F.MODE_DIE_WAKEPEND d) 1
    | 4 => m.dieWake d
    | _ => m

/-- DIE_RESET. -/
def execDieReset (d : Fin 8) (iso : Bool) (s : State) : Host.Outcome State Fault Refusal := s.onMain fun m => m.dieReset d.val iso

/-- R27, R36, R536: every tuft of a die that joins takes the reference bus with the frame that is current (log 202). -/
def Main.tuftsJoin (m : Main) (d : Nat) : Main :=
  let f := m.ref.frame
  (List.range 8).foldl (fun m t => m.putBus { die := Fin.ofNat 8 d, tuft := Fin.ofNat 8 t, bad := 0, hold := false,
                                              seq := some ((f.seq + 1) % 2 ^ 16), pos := f.pos, dirn := f.dirn, counts := f.counts }) m

/-- R83, R304, R526: what the field die reloads before a die rejoins, and its STATE through JOINING to ACTIVE. -/
def Main.dieJoins (m : Main) (d : Nat) : Main :=
  let m := m.dieSet d 5
  let m := if 6 ≤ d then m.set (F.MEMCTL_STAT_READY d) 1 else (m.placeReload d).tuftsJoin d
  let m : Main := { m with sys := { m.sys with isol := m.sys.isol.filter (fun x => x != d) } }.dieSet d 1
  let m := if m.mode = 6 ∧ m.isolated = false then m.modeChange 4 4 else m
  let m := m.wakeSettle
  if m.sys.dorm.contains d then { m with sys := { m.sys with dorm := m.sys.dorm.filter (fun x => x != d) } }.dormantReq d else m

/-- R9, R526, R529: a die that fails culvert training stays, or becomes, ISOLATED; without a compute die that is not isolated, L4. -/
def Main.dieFails (m : Main) (d : Nat) : Main :=
  let m := if m.sys.isol.contains d then m else
    { m with sys := { m.sys with isol := m.sys.isol ++ [d] } }.bump (F.MODE_DIE_ISOLS d)
  let m := m.dieSet d 2
  (if m.computeDies.all (fun x => m.sys.isol.contains x) then m.reactL4 else m.degrade).wakeSettle

/-- DIE_REJOIN (R36, R526, R536): a die that is RESETTING or JOINING rejoins when its link to the field die has trained and no other
link of it is still training. -/
def Main.dieRejoin (m : Main) (d : Nat) : Main :=
  if m.dieState d ≠ 5 ∧ m.dieState d ≠ 6 then m
  else match m.linkState d 0 0 d with
    | 2 | 3 => if (m.dieLinks d).any (fun x => m.linkState d x.1 x.2.1 x.2.2 == 1) then m else m.dieJoins d
    | 4 => m.dieFails d
    | _ => m

/-- DIE_REJOIN. -/
def execDieRejoin (d : Fin 8) (s : State) : Host.Outcome State Fault Refusal := s.onMain fun m => m.dieRejoin d.val

/-! ### Warm reset (R529, R530) -/

/-- Every populated die, all of whose links train (R327, R529). -/
def Main.trainAll (m : Main) : Main :=
  let ds := (List.range 8).filter m.pop
  ds.foldl (fun m d => m.culvTrainDie d (fun _ => true)) { m with culvs := [] }

/-- R529, R530: what the engines of the main domains lose in a warm reset. References, the scheduler's pending entries, axis ports,
timers, the survey record, wall time and the collector's counts and shadows are kept. -/
def Main.warmEngines (m : Main) : Main :=
  let r := Main.reset
  { m with
    tok := r.tok, tuft := r.tuft, req := r.req, placing := [], waiters := [], runnels := [], flumes := [], dredges := [], culvs := []
    mem := { m.mem with change := [], inj := [], scrub := [], held := [], istr := m.mem.istr.filter (fun e => e.2 != 2) }
    ref := { m.ref with outs := m.ref.outs.filter (fun o => o.slot.isNone), slots := [] }
    port := { m.port with dacs := [], motors := [], tapes := [] }
    comm := { r.comm with svc := m.comm.svc }
    sec := { r.sec with lockEnd := m.sec.lockEnd, otp := m.sec.otp }
    sys := { r.sys with pow := m.sys.pow, powAt := m.sys.powAt, rails := m.sys.rails, warm := true }
    coll := { m.coll with agents := [], acks := [], reacts := [], shadows := m.coll.shadows.filter (fun x => x.until_.isSome), echoes := [] } }

/-- R525, R529 steps 4 to 6: every populated die is in reset; a dormant one wakes. -/
def Main.warmDies (m : Main) : Main :=
  (((List.range 8).filter (fun d => d != 0 && m.pop d)).foldl (fun m d =>
    let m := m.set (F.MODE_DIE_WAKEPEND d) 0
    if m.dieState d = 4 then (m.bump (F.MODE_DIE_WAKES d)).dieSet d 5 else m.dieSet d 6) m).trainAll

/-- WARM_RESET (R525, R529, R530): the whole sequence up to mode BOOT; cause as in RSTCAUSE.LAST. The dies rejoin with DIE_REJOIN. -/
def Main.warmReset (m : Main) (cause : Nat) : Main :=
  let m := ((if m.survRuns then m.survEnd 3 4 else m).survSync).usbDetach
  let m := ((m.modeClears 0).slWarm).ustReset (fun u => match u with
    | .runnel _ _ | .flume _ _ | .iface _ => true
    | _ => false)
  let m := m.dredges.foldl (fun m x => m.drBreak x) m
  let m := (m.resetRegs .warm (fun _ => true)).warmEngines
  let m := ((m.aliveStop 1).set F.MODE_RSTCAUSE_LAST cause).bump F.MODE_RSTCAUSE_WARMS
  (m.warmDies).modeChange 1 1

/-- R525, R552: a path that may start a warm reset, and the cause that it records. -/
def Main.warmReq (m : Main) (p : Path) : Main :=
  if m.pathLevel p < 2 ∨ m.resetRuns = true then m
  else m.warmReset (match p with
    | .usb | .i2c => 3
    | _ => 2)

/-- WARM_RESET. -/
def execWarmReset (p : Path) (s : State) : Host.Outcome State Fault Refusal := s.onMain fun m => m.regCmd p .MODE_CTL 1 fun m => m.warmReq p

/-! ### Pin reset and power-on reset (R15, R525, R528, R530) -/

/-- R530: the main domains start anew, but for the registers that are kept, the part, the gate lines and the free values. -/
def Main.anew (m : Main) (k : ResetKind) (pow : Nat) : Main :=
  let r := Main.reset
  { r with
    hw := m.hw, fresh := m.fresh, regs := (m.resetRegs k (fun _ => true)).regs
    port := { r.port with openDac := m.port.openDac, openMot := m.port.openMot, openGpio := m.port.openGpio }
    sys := { r.sys with pow := pow, powAt := m.now, rails := if k = .pin then m.sys.rails else [] } }

/-- R528: the end of a power-on or pin sequence: the links have trained, the memory controllers are READY, and the mode is BOOT. -/
def Main.restartDone (m : Main) : Main :=
  let ds := (List.range 8).filter m.pop
  if (m.sys.pow ≠ 4 ∧ m.sys.pow ≠ 6) ∨ ds.any (fun d => (m.dieLinks d).any (fun x => m.linkState d x.1 x.2.1 x.2.2 == 1)) = true then m
  else
    let m := [6, 7].foldl (fun m d => if m.pop d then m.set (F.MEMCTL_STAT_READY d) 1 else m) m
    { m with sys := { m.sys with pow := 0 } }.modeChange 1 1

/-- R528, R544, R564: the entries of the OTP rail table in the order in which their rails are enabled: VFIELD, VANA, VDDIO, VMEM, and VCORE of
every populated compute die; of one kind in the order of the table (log 239). -/
def Main.railOrder (m : Main) : List Nat :=
  ([6, 8, 9, 7] ++ m.computeDies).flatMap (fun kind =>
    (List.range 16).filter (fun k => bitsOf (m.otpWord (72 + k)) 19 1 == 1 && bitsOf (m.otpWord (72 + k)) 15 4 == kind))

/-- R528: the rail that the power-on sequence is enabling, as its entry in the table. -/
def Main.railNext (m : Main) : Option Nat := m.railOrder[m.sys.rails.length]?

/-- R528 steps 2 to 5: the next rail has been confirmed by READ_VOUT; after the last one the links train. -/
def Main.railUp (m : Main) : Main :=
  match m.railNext with
  | some k => { m with sys := { m.sys with rails := m.sys.rails ++ [k], powAt := m.now } }
  | none => { m with sys := { m.sys with pow := 4 } }.trainAll

/-- POWER_ON_RESET (R15, R528): the main domains are reset; the rails come up and the dies' links train; BOOT is entered. -/
def Main.powerOn (m : Main) (ev : ResetEv) : Main :=
  match ev with
  | .start => if m.sys.pow = 5 then m else m.anew .powerOn 1
  | .run => if m.sys.pow = 1 then m.railUp else m
  | .done => m.restartDone

/-- POWER_ON_RESET. -/
def execPowerOnReset (ev : ResetEv) (s : State) : Host.Outcome State Fault Refusal := s.onMain fun m => m.powerOn ev

/-- PIN_RESET (R525, R527, R528): RESET_N goes low, is released, and the sequence ends in BOOT. Wall time, the rails and the lockout are kept.
A power-on or pin reset that is in progress covers it. -/
def Main.pinReset (m : Main) (ev : ResetEv) : Main :=
  match ev with
  | .start =>
    if m.sys.pow ≠ 0 then m
    else
      let n : Main := { m.anew .pin 3 with wall := m.wall }
      let n : Main := { n with sec := { n.sec with lockEnd := m.sec.lockEnd, otp := m.sec.otp } }
      (n.set F.MODE_RSTCAUSE_LAST 1).bump F.MODE_RSTCAUSE_PINS
  | .run => if m.sys.pow = 3 then { m with sys := { m.sys with pow := 6 } }.trainAll else m
  | .done => m.restartDone

/-- PIN_RESET. -/
def execPinReset (ev : ResetEv) (s : State) : Host.Outcome State Fault Refusal := s.onMain fun m => m.pinReset ev

/-- R528: the rails that are up are switched off, the last one first. -/
def Main.railsOff (m : Main) : Main := m.sys.rails.reverse.foldl (fun m k => { m with sys := { m.sys with rails := m.sys.rails.erase k } }) m

/-- RAIL_CONFIRM_TIMEOUT (R528): rail entry k, which is being enabled, has not confirmed within 10 ms: the rails are switched off and the
sequencer waits. -/
def Main.railTimeout (m : Main) (k : Nat) : Main :=
  if m.sys.pow ≠ 1 ∨ m.railNext ≠ some k ∨ m.now < m.sys.powAt + 10000000 then m
  else
    let m := m.railsOff
    { m with sys := { m.sys with pow := 2, powAt := m.now } }.set F.MODE_RSTCAUSE_RAILFAIL (k + 1)

/-- RAIL_CONFIRM_TIMEOUT. -/
def execRailConfirmTimeout (k : Fin 16) (s : State) : Host.Outcome State Fault Refusal := s.onMain fun m => m.railTimeout k.val

/-- RAIL_RETRY (R528): 1 s later the sequence starts again. -/
def Main.railRetry (m : Main) : Main :=
  if m.sys.pow = 2 ∧ m.sys.powAt + 1000000000 ≤ m.now then { m with sys := { m.sys with pow := 1, powAt := m.now } } else m

/-- RAIL_RETRY. -/
def execRailRetry (s : State) : Host.Outcome State Fault Refusal := s.onMain Main.railRetry

/-! ### The supply of the island and the always-on domain (R16, R465, R565) -/

/-- The island at VSAFE power-on: everything but island NV starts anew (R463). -/
def Island.fresh (i : Island) (on : Bool) : Island :=
  { Island.zero with on := on, nvKey := i.nvKey, nvHash := i.nvHash, nvSetNo := i.nvSetNo }

/-- ISLAND_POWER_ON (R16, R528): VSAFE comes into range: the island is reset, and the always-on domain with all that it powers up. -/
def execIslandPowerOn (s : State) : Host.Outcome State Fault Refusal :=
  .next (({ s with main := s.main.anew .powerOn 1 }.onIsl (fun i => i.fresh true)).showIsl)

/-- VSAFE_POWER_LOSS (R565, R572): VSAFE goes: the island and the always-on domain stop, and nothing is powered. -/
def execVsafePowerLoss (s : State) : Host.Outcome State Fault Refusal :=
  .next (({ s with main := s.main.anew .powerOn 5 }.onIsl (fun i => i.fresh false)).showIsl)

end Sys2Proof.Machine
end

