-- ==== Sys2Proof/Machine/Collector.lean ====
section
/-! DEFINITION. The fault collector: classification (R500 to R503), reactions (R504 to R506), acknowledgement and deadlines (R507, R508),
shadows (R509), ALIVE_OUT, self-check and clock loss (R510 to R512), the fault log (R513, R514), injection (R515), and the writes
of the FAULT block (R517). -/

namespace Sys2Proof.Machine

/-! ### The log (R513, R514) -/

/-- What an entry says beyond SEQ, TIME and SELFCHK. -/
structure LogFlags where
  level : Nat
  conseq : Bool
  poss : Bool
  esc : Bool
  failed : Bool
  link : Nat

/-- HEAD of an entry (R514). -/
def logHead (seq src die named sev cls : Nat) (self : Bool) (x : LogFlags) : Nat :=
  seq % 2 ^ 32 + src % 64 * 2 ^ 32 + die % 8 * 2 ^ 38 + named % 8 * 2 ^ 41 + sev % 4 * 2 ^ 44 + x.level % 8 * 2 ^ 46 + b2n x.conseq * 2 ^ 49 +
    b2n x.poss * 2 ^ 50 + b2n x.esc * 2 ^ 51 + b2n x.failed * 2 ^ 52 + b2n self * 2 ^ 53 + cls % 64 * 2 ^ 54

/-- R506: the capture word of events 768 + c and 832 + c. -/
def faultWord (src die sev seq : Nat) : Nat := src % 64 + die % 8 * 2 ^ 6 + sev % 4 * 2 ^ 9 + seq % 2 ^ 16 * 2 ^ 16

/-- R513: an entry is written, and copied to FIRST when it is the first SEVERE one. -/
def Main.logPut (m : Main) (src die named sev cls detail : Nat) (x : LogFlags) : Main :=
  let seq := m.get F.FAULT_LOGCTL_SEQ
  let i := m.get F.FAULT_LOGCTL_NEXT
  let ws := [logHead seq src die named sev cls (m.flag F.FAULT_SUMMARY_SELFFAIL) x, m.now % 2 ^ 64, detail % 2 ^ 64, x.link % 2 ^ 32]
  let put := fun (m : Main) (f : Nat → Fld) => (List.range 4).foldl (fun m j => m.set (f j) (ws.getD j 0)) m
  let m := put m (F.FAULT_LOG_WORD i)
  let m := if sev = 2 ∧ m.get (F.FAULT_FIRST_WORD 0) = 0 then put m F.FAULT_FIRST_WORD else m
  let m := m.setIf (256 ≤ seq) F.FAULT_LOGCTL_WRAPPED 1
  (m.set F.FAULT_LOGCTL_NEXT ((i + 1) % 256)).set F.FAULT_LOGCTL_SEQ ((seq + 1) % 2 ^ 32)

/-! ### Reactions (R504, R505, R508) -/

/-- R500: the L2 column names a block for the source. -/
def hasL2 (src : Nat) : Bool := [8, 9, 10, 21, 22, 23, 25, 26, 31, 32, 33, 34].contains src

/-- R504, R505, R511: the level that a reaction counts as, and the level whose action it takes. -/
def Main.reactAs (m : Main) (r : React) (lv : Nat) : Nat × Nat :=
  if m.flag F.FAULT_SUMMARY_SELFFAIL && decide (2 ≤ lv ∧ lv ≤ 6) then (1, 1)
  else if lv = 2 then (2, if hasL2 r.src then 2 else 1)
  else if lv = 3 then
    if r.named = 0 then (4, 4)
    else if m.pop r.named = false ∨ m.outcast r.named = true ∨ m.dieState r.named = 4 then (3, 1)
    else if m.lastDie r.named then (4, 4)
    else (3, 3)
  else (lv, lv)

/-- R504: the reset of the block in the L2 column. -/
def Main.reactL2 (m : Main) (r : React) : Main :=
  let x := r.detail
  match r.src with
  | 8 | 9 | 10 => m.tuftReset r.die (bitsOf x 0 3)
  | 21 | 22 | 23 =>
    match m.hw.part.partnerPort r.die (bitsOf x 0 3) with
    | some (a, pa) => m.linkTrain r.die (bitsOf x 0 3) a pa
    | none => m
  | 25 | 26 => m.contextReset (bitsOf x 0 8)
  | 31 | 32 => m.outputOff (.dac (Fin.ofNat 64 (bitsOf x 0 6)))
  | 33 => m.outputOff (.res (Fin.ofNat 16 (bitsOf x 0 4)))
  | 34 => m.outputOff (.motor (Fin.ofNat 16 (bitsOf x 0 4)))
  | _ => m

/-- R504, R521: L6. FAULT-STOP also ends a STANDBY entry or wake that is in progress: no other mode follows (R524, log 238). -/
def Main.reactL6 (m : Main) : Main :=
  let m := if m.mode = 0 ∨ m.sys.back.isNone = true then m
           else { m with sys := { m.sys with back := none, waking := false, wake := none } }.set F.MODE_STAT_CHANGING 0
  (if m.mode = 0 ∨ m.mode = 11 then m else m.modeChange 11 6).aliveStop 1

/-- R507: the class's acknowledgement timer starts or starts again; PEND keeps the higher level while it runs. -/
def Main.ackStart (m : Main) (r : React) (lv : Nat) : Main :=
  let pend := m.get (F.FAULT_CLASS_STAT_PEND r.cls)
  let runs := m.coll.acks.any (fun a => a.cls == r.cls)
  let m := m.set (F.FAULT_CLASS_STAT_PEND r.cls) (if runs ∧ pend ≠ 7 then Nat.max pend lv else lv)
  { m with coll := { m.coll with acks := m.coll.acks.filter (fun a => a.cls != r.cls) ++ [{ r with level := lv, at_ := m.now }] } }

/-- R509: the scope of a reaction's shadow. -/
def Main.shadowScope (m : Main) (cls act : Nat) : Nat :=
  let s := m.get (F.FAULT_CLASS_CFG_SCOPE cls)
  if s ≠ 0 then s else if act ≤ 3 then 2 else 3

/-- R509: a reaction at a level, whose action is at L2 or above, opens its shadow, unless SHADOW is 0. -/
def Main.shadowOpen (m : Main) (r : React) (lv act : Nat) : Main :=
  let us := m.get (F.FAULT_CLASS_CFG_SHADOW r.cls)
  if act < 2 ∨ us = 0 then m
  else { m with coll := { m.coll with shadows := m.coll.shadows ++
    [{ seq := r.seq, level := lv, scope := m.shadowScope r.cls act, src := r.src, die := r.die, named := r.named, until_ := none }] } }

/-- R508, R509: a reaction starts: it is in progress until it completes. -/
def Main.reactOpen (m : Main) (r : React) (lv act : Nat) : Main :=
  { m with coll := { m.coll with reacts := m.coll.reacts ++ [{ r with level := lv, at_ := m.now }] } }.shadowOpen r lv act

/-- R509: every reaction still in progress ends; their shadows close after SHADOW. -/
def Main.reactsEnd (m : Main) : Main :=
  { m with coll := { m.coll with
      reacts := []
      shadows := m.coll.shadows.map (fun x => match x.until_ with
        | some _ => x
        | none => { x with until_ := some (m.now +
            1000 * ((m.coll.reacts.find? (fun r => r.seq == x.seq && r.level == x.level)).map (fun r => m.get (F.FAULT_CLASS_CFG_SHADOW r.cls))).getD 0) }) } }

/-- R504: the reactions at L1 to L4. The event of the class is raised, the action is taken, and R505 lets an L4 follow an L3 that isolates
a memory die or breaks a context with a gated channel. -/
def Main.reactLow (m : Main) (r : React) (lv act : Nat) : Main :=
  let m := (m.ackStart r lv).event (768 + r.cls) (faultWord r.src r.die r.sev r.seq)
  let m := m.reactOpen r lv act
  match act with
  | 2 => m.reactL2 r
  | 3 =>
    let x := m.isolateAs r.named
    if x.1 then ((x.2.ackStart r 4).reactOpen r 4 4).reactL4 else x.2
  | 4 => m.reactL4
  | _ => m

/-- R504: the reaction at a level to what triggered it. A warm reset that a reset in progress covers has no effect of its own (R527). An L6 has no
acknowledgement timer, since no level follows it. -/
def Main.react (m : Main) (r : React) (lv : Nat) : Main :=
  let x := m.reactAs r lv
  match x.2 with
  | 0 => m
  | 5 =>
    let m := (m.ackStart r 5).reactsEnd
    (if m.resetRuns then m else m.warmReset 4).reactOpen r 5 5
  | 6 => (m.reactsEnd.reactL6).reactOpen r 6 6
  | _ => if x.2 ≤ 4 then m.reactLow r x.1 x.2 else m

/-! ### Classification (R502, R503, R509) -/

/-- R503, R517: a class's N and W (in ns). -/
def Main.classN (m : Main) (c : Nat) : Nat := Nat.max 1 (m.get (F.FAULT_CLASS_CFG_N c))

/-- R503, R517: W of a class in ns. -/
def Main.classW (m : Main) (c : Nat) : Nat := 1000 * Nat.min 3600000000 (Nat.max 1 (m.get (F.FAULT_CLASS_WIN_W c)))

/-- R503: an event is counted; whether it brings its count to N within W. -/
def Main.countEvent (m : Main) (die src cls : Nat) : Bool × Main :=
  let mine := fun (x : CountSt) => x.die == die && x.src == src
  let rest := m.coll.counts.filter (fun x => !mine x)
  let c := match m.coll.counts.find? mine with
    | some x => if m.now < x.at_ + m.classW cls then { x with n := x.n + 1 } else { die := die, src := src, n := 1, at_ := m.now }
    | none => { die := die, src := src, n := 1, at_ := m.now }
  if m.classN cls ≤ c.n then (true, { m with coll := { m.coll with counts := rest } })
  else (false, { m with coll := { m.coll with counts := rest ++ [c] } })

/-- R509: a shadow is open. -/
def Shadow.isOpen (x : Shadow) (now : Nat) : Bool :=
  match x.until_ with
  | none => true
  | some t => decide (now < t)

/-- R509: an event lies in the scope of a shadow. -/
def Shadow.covers (x : Shadow) (e : FaultEvent) : Bool :=
  match x.scope with
  | 1 => e.src == x.src && e.die.val == x.die
  | 2 => e.die.val == x.named || e.named == x.named
  | _ => true

/-- R504: the reaction level of a class at a severity. -/
def Main.classLevel (m : Main) (c sev : Nat) : Nat :=
  match sev with
  | 0 => m.get (F.FAULT_CLASS_CFG_RINFO c)
  | 1 => m.get (F.FAULT_CLASS_CFG_RMINOR c)
  | _ => m.get (F.FAULT_CLASS_CFG_RSEVERE c)

/-- R509: a consequential event is logged only. -/
def Main.consequential (m : Main) (e : FaultEvent) (cls : Nat) (x : Shadow) : Main :=
  let sev := if e.severe then 2 else m.get (F.FAULT_CLASS_CFG_BASE cls)
  let m := if 1 ≤ e.die.val ∧ e.die.val ≤ 5 then m.bump (F.ERR_COUNT_CONSEQ e.die.val e.src) else m
  m.logPut e.src e.die.val e.named sev cls e.detail { level := 7, conseq := true, poss := false, esc := false, failed := false, link := x.seq }

/-- R503, R504: a counted event gets its severity, its log entry and its reaction. -/
def Main.counted (m : Main) (e : FaultEvent) (cls : Nat) (poss : Bool) : Main :=
  let x := m.countEvent e.die.val e.src cls
  let sev := if x.1 || e.severe then 2 else m.get (F.FAULT_CLASS_CFG_BASE cls)
  let m := if sev = 2 then x.2.bump (F.FAULT_CLASS_STAT_SEVERES cls) else x.2
  let lv := m.classLevel cls sev
  if lv = 7 then m
  else
    let r : React := { seq := m.get F.FAULT_LOGCTL_SEQ, cls := cls, src := e.src, die := e.die.val, named := e.named, detail := e.detail,
                       sev := sev, level := lv, at_ := m.now }
    let m := m.logPut e.src e.die.val e.named sev cls e.detail
      { level := (m.reactAs r lv).1, conseq := false, poss := poss, esc := false, failed := false,
        link := 0 }
    m.react r lv

/-- R500 to R503, R509: an event that has reached the collector. -/
def Main.faultArrives (m : Main) (e : FaultEvent) : Main :=
  if e.die.val ≠ 0 ∧ m.outcast e.die.val = true then m
  else
    let seen := m.get (F.FAULT_DIESTAT_SRC e.die.val)
    let m := m.setIf (bitsOf seen e.src 1 == 0) (F.FAULT_DIESTAT_SRC e.die.val) (seen + 2 ^ e.src)
    let k := 64 * e.die.val + e.src
    let cls := m.get (F.FAULT_MAP_CLASS k)
    let opens := m.coll.shadows.filter (fun x => x.isOpen m.now)
    if m.flag (F.FAULT_MAP_MASK k) then m
    else match opens.find? (fun x => x.covers e && decide (2 ≤ e.src)) with
      | some x => m.consequential e cls x
      | none => m.counted e cls (!opens.isEmpty)

/-- R500, R503: an event reaches the collector before another: it was raised before it on the same die, in the same cycle with a lower source
number, or more than the 200 ns before it that an event takes at most. -/
def FaultEvent.before (x e : FaultEvent) : Bool :=
  x.die == e.die && (decide (x.at_ < e.at_) || x.at_ == e.at_ && decide (x.src < e.src)) || decide (x.at_ + 200 < e.at_)

/-- R503: no waiting event reaches the collector before this one. -/
def Main.faultFirst (m : Main) (e : FaultEvent) : Bool := m.coll.inbox.all (fun x => !x.before e)

/-- FAULT_EVENT (R500, R503): an event that is on its way arrives; or a line rises that has no command of its own: a die's PLL unlocks, a
memory controller loses READY, an entry of a matching store is found without a readable context (R59). Events come in the order of R503, those of
one cycle from different dies in the order in which they are given (log 240). -/
def Main.faultEvent (m : Main) (f : FaultIn) : Main :=
  let last := fun (n : Main) => match n.coll.inbox.getLast? with
    | some e => if n.faultFirst e then { n with coll := { n.coll with inbox := n.coll.inbox.dropLast } }.faultArrives e else n
    | none => n
  match f with
  | .arrived k => match m.coll.inbox[k.val]? with
    | some e => if m.faultFirst e then { m with coll := { m.coll with inbox := m.coll.inbox.eraseIdx k.val } }.faultArrives e else m
    | none => m
  | .pllLost d => if m.pop d.val && m.dieLive d.val then last (m.raiseSrc 2 d.val d.val 0) else m
  | .notReady d =>
    if decide (6 ≤ d.val) && m.pop d.val && m.flag (F.MEMCTL_STAT_READY d.val) then
      last ((m.set (F.MEMCTL_STAT_READY d.val) 0).raiseSrc 15 d.val d.val 0)
    else m
  | .msUe d t set way => match m.wayOf d t set way.val with
    | some e => last (m.entryNameless e)
    | none => m

/-- FAULT_EVENT. -/
def execFaultEvent (f : FaultIn) (s : State) : Host.Outcome State Fault Refusal := s.onMain fun m => m.unlessStandby fun m => m.faultEvent f

/-- COUNT_WINDOW_END (R503): a count that has reached the end of W closes. -/
def Main.countEnd (m : Main) (d src : Nat) : Main :=
  { m with coll := { m.coll with counts := m.coll.counts.filter (fun x =>
      !(x.die == d && x.src == src && decide (x.at_ + m.classW (m.get (F.FAULT_MAP_CLASS (64 * d + src))) ≤ m.now))) } }

/-- COUNT_WINDOW_END. -/
def execCountWindowEnd (d : Fin 8) (src : Fin 64) (s : State) : Host.Outcome State Fault Refusal :=
  s.onMain fun m => m.countEnd d.val src.val

/-! ### Acknowledgement, deadlines, completion and shadows (R507 to R509) -/

/-- R507: ACKTMO of a class in ns. -/
def Main.ackTime (m : Main) (c : Nat) : Nat := 1000 * Nat.min 1000000 (Nat.max 1 (m.get (F.FAULT_CLASS_CFG_ACKTMO c)))

/-- ACK_TIMEOUT (R507): the timer of a class expires. -/
def Main.ackTimeout (m : Main) (c : Nat) : Main :=
  match m.coll.acks.find? (fun a => a.cls == c) with
  | none => m
  | some r =>
    if m.now < r.at_ + m.ackTime c then m
    else
      let m : Main := { m with coll := { m.coll with acks := m.coll.acks.filter (fun a => a.cls != c) } }
      let lv := m.get (F.FAULT_CLASS_STAT_PEND c) + 1
      let seq := m.get F.FAULT_LOGCTL_SEQ
      let goes := decide (lv ≤ m.get (F.FAULT_CLASS_CFG_ESCMAX c) ∧ lv ≤ 6)
      let m := (m.bump (F.FAULT_CLASS_STAT_ESCS c)).event (832 + c) (faultWord r.src r.die r.sev seq)
      let m := m.logPut r.src r.die r.named r.sev c r.detail
        { level := if goes then (m.reactAs r lv).1 else 7, conseq := false, poss := false, esc := true, failed := false, link := r.seq }
      if goes then m.react { r with seq := seq } lv else m

/-- ACK_TIMEOUT. -/
def execAckTimeout (c : Fin 64) (s : State) : Host.Outcome State Fault Refusal := s.onMain fun m => m.ackTimeout c.val

/-- R508, R509: the reaction at a position of the list is no longer in progress; its shadow ends SHADOW later. -/
def Main.reactGone (m : Main) (k : Nat) (r : React) : Main :=
  let done := m.now + 1000 * m.get (F.FAULT_CLASS_CFG_SHADOW r.cls)
  { m with coll := { m.coll with
      reacts := m.coll.reacts.eraseIdx k
      shadows := m.coll.shadows.map (fun x =>
        if x.seq = r.seq ∧ x.level = r.level ∧ x.until_ = none then { x with until_ := some done } else x) } }

/-- REACTION_DEADLINE (R508): 10 µs, or 40 µs for an L2 on a culvert. -/
def Main.reactDeadline (m : Main) (k : Nat) : Main :=
  match m.coll.reacts[k]? with
  | none => m
  | some r =>
    let limit := if r.level = 2 ∧ 21 ≤ r.src ∧ r.src ≤ 23 then 40000 else 10000
    if m.now < r.at_ + limit then m
    else
      let m := m.reactGone k r
      let seq := m.get F.FAULT_LOGCTL_SEQ
      let m := (m.bump (F.FAULT_CLASS_STAT_FAILS r.cls)).logPut r.src r.die r.named r.sev r.cls r.detail
        { level := (m.reactAs r (r.level + 1)).1, conseq := false, poss := false, esc := false, failed := true, link := r.seq }
      m.react { r with seq := seq } (r.level + 1)

/-- REACTION_DEADLINE. -/
def execReactionDeadline (k : Fin 256) (s : State) : Host.Outcome State Fault Refusal := s.onMain fun m => m.reactDeadline k.val

/-- R504: the completion condition of a reaction, as far as state shows it. -/
def Main.reactDone (m : Main) (r : React) : Bool :=
  (decide (5 ≤ r.level) || !m.tok.captured.any (fun e => e.src == 768 + r.cls)) &&
  !(r.level == 2 && [25, 26].contains r.src && m.flag F.MODE_CTXRST_BUSY) &&
  !(r.level == 2 && [21, 22, 23].contains r.src && (match m.hw.part.partnerPort r.die (bitsOf r.detail 0 3) with
    | some (a, pa) => m.linkState r.die (bitsOf r.detail 0 3) a pa == 1
    | none => false)) &&
  !(r.level == 6 && m.mode != 11) &&
  !(r.level == 4 && allOutputs.any (fun o => m.gated o && m.enabled o))

/-- REACTION_COMPLETE (R504, R509). -/
def Main.reactComplete (m : Main) (k : Nat) : Main :=
  match m.coll.reacts[k]? with
  | none => m
  | some r => if m.reactDone r then m.reactGone k r else m

/-- REACTION_COMPLETE. -/
def execReactionComplete (k : Fin 256) (s : State) : Host.Outcome State Fault Refusal := s.onMain fun m => m.reactComplete k.val

/-- SHADOW_END (R509): the shadows of a reaction that have run out close. -/
def execShadowEnd (seq : BitVec 32) (s : State) : Host.Outcome State Fault Refusal :=
  s.onMain fun m => { m with coll := { m.coll with
    shadows := m.coll.shadows.filter (fun x => !(x.seq == seq.toNat && !x.isOpen m.now)) } }

/-! ### ALIVE_OUT (R510), self-check (R511), clocks (R512) -/

/-- R510: PERIOD in ns. -/
def Main.alivePeriod (m : Main) : Nat := 10000 * Nat.min 1000 (Nat.max 10 (m.get F.FAULT_ALIVE_PERIOD))

/-- ALIVE_TOGGLE (R510, R467): the level changes, and the island sees the edge. -/
def execAliveToggle (s : State) : Host.Outcome State Fault Refusal :=
  let m := s.main
  if m.flag F.FAULT_ALIVE_START && decide (m.coll.aliveAt + m.alivePeriod ≤ m.now) then
    .next ({ s with main := { m with coll := { m.coll with alive := !m.coll.alive, aliveAt := m.now } } }.onIsl
      fun i => { i with aliveAt := i.t })
  else .next s

/-- R510: no cause of a stop still holds, and the mode is neither SAFE-HOLD nor FAULT-STOP. -/
def Main.aliveMay (m : Main) : Bool :=
  !m.flag F.FAULT_SUMMARY_SELFFAIL && !m.flag F.FAULT_SUMMARY_CLKFAIL && m.coll.reacts.all (fun r => decide (r.level < 4)) &&
  m.mode != 0 && m.mode != 7 && m.mode != 11

/-- A write of FAULT.ALIVE: PERIOD, and START from contexts 0 and 255 (R510). -/
def Main.aliveWrite (m : Main) (p : Path) (v : Nat) : Main :=
  let m := m.set F.FAULT_ALIVE_PERIOD (bitsOf v 0 10)
  if bitsOf v 10 1 = 1 ∧ p.isCtx = true ∧ m.aliveMay = true ∧ m.flag F.FAULT_ALIVE_START = false then
    let m := ((m.set F.FAULT_ALIVE_START 1).set F.FAULT_SUMMARY_ALIVESTOP 0).set F.FAULT_SUMMARY_STOPWHY 0
    { m with coll := { m.coll with aliveAt := m.now } }
  else m

/-- ALIVE_START (R510). -/
def execAliveStart (p : Path) (v : Word) (s : State) : Host.Outcome State Fault Refusal :=
  s.onMain fun m => m.regCmd p .FAULT_ALIVE v.toNat fun m => m.aliveWrite p v.toNat

/-- SELF_CHECK (R511): every 1 ms a test word goes to each populated die that has its sideband. -/
def Main.selfCheck (m : Main) : Main :=
  if m.now < m.coll.checkAt + 1000000 then m
  else { m with coll := { m.coll with
    checkAt := m.now, echoes := (List.range 8).filter (fun d => m.pop d && (d == 0 || m.dieLive d)) } }

/-- SELF_CHECK. -/
def execSelfCheck (s : State) : Host.Outcome State Fault Refusal := s.onMain Main.selfCheck

/-- R511: the self-check fails; detail tells a missing echo from a mismatch. -/
def Main.selfFail (m : Main) (detail : Nat) : Main :=
  ((m.aliveStop 2).set F.FAULT_SUMMARY_SELFFAIL 1).raiseSrc 0 0 0 detail

/-- ECHO_TIMEOUT (R511): the echo of a die has been missing for 10 µs. -/
def Main.echoTimeout (m : Main) (d : Nat) : Main :=
  if !m.coll.echoes.contains d || decide (m.now < m.coll.checkAt + 10000) then m
  else
    let m : Main := { m with coll := { m.coll with echoes := m.coll.echoes.filter (fun x => x != d) } }
    if d = 0 then m.selfFail 1 else m.raiseSrc 0 d d 1

/-- ECHO_TIMEOUT. -/
def execEchoTimeout (d : Fin 8) (s : State) : Host.Outcome State Fault Refusal := s.onMain fun m => m.echoTimeout d.val

/-- SELF_CHECK_FAILURE (R511): the two copies of the collector's logic differ. -/
def execSelfCheckFailure (s : State) : Host.Outcome State Fault Refusal := s.onMain fun m => m.selfFail 2

/-- CLOCK_FAILURE (R512): the field die's clock stops or leaves its range. -/
def execClockFailure (s : State) : Host.Outcome State Fault Refusal :=
  s.onMain fun m => (m.aliveStop 3).set F.FAULT_SUMMARY_CLKFAIL 1

/-- CLK_REF (R20, R512): the reference input leaves its range while the field die's clock runs. -/
def execClkRef (s : State) : Host.Outcome State Fault Refusal := s.onMain fun m => m.raiseSrc 1 0 0 0

/-! ### Injection and the writes of the FAULT block (R515, R517) -/

/-- R500: the kinds of die that implement a source. -/
def srcOn (src die : Nat) : Bool :=
  if [0, 2, 4, 6].contains src then true
  else if [3, 7, 11, 12, 16, 20, 21, 22, 23].contains src then decide (die ≤ 5)
  else if [8, 9, 10, 17, 18, 19].contains src then decide (1 ≤ die ∧ die ≤ 5)
  else if [13, 14, 15].contains src then decide (6 ≤ die)
  else die == 0 && decide (src ≤ 40)

/-- R500: the named die of an injected event, whose detail is 0 (log 140). -/
def Main.injectNamed (m : Main) (src die : Nat) : Nat × Main :=
  if [21, 22, 23].contains src then (((m.hw.part.partnerPort die 0).map (fun x => x.1)).getD die, m)
  else if src = 38 then m.railFeeds 0
  else if [5, 6, 24].contains src then (0, m)
  else if src ≤ 20 ∧ src ≠ 1 then (die, m)
  else (0, m)

/-- A write of FAULT.INJECT (R515). -/
def Main.injectWrite (m : Main) (v : Nat) : Main :=
  let src := bitsOf v 0 6
  let die := bitsOf v 6 3
  if bitsOf v 9 1 = 1 ∧ m.pop die = true ∧ srcOn src die = true then (let x := m.injectNamed src die; x.2.raiseSrc src die x.1 0) else m

/-- FAULT_INJECT (R515). -/
def execFaultInject (p : Path) (v : Word) (s : State) : Host.Outcome State Fault Refusal :=
  s.onMain fun m => m.regCmd p .FAULT_INJECT v.toNat fun m => m.injectWrite v.toNat

/-- A write of FAULT.RAISE (R515). -/
def Main.raiseWrite (m : Main) (v : Nat) : Main := if bitsOf v 16 1 = 1 then m.raiseSrc 40 0 0 (bitsOf v 0 16) else m

/-- FAULT_RAISE_WRITE (R515). -/
def execFaultRaiseWrite (p : Path) (v : Word) (s : State) : Host.Outcome State Fault Refusal :=
  s.onMain fun m => m.regCmd p .FAULT_RAISE v.toNat fun m => m.raiseWrite v.toNat

/-- A write of CLASS[c].ACK (R507). -/
def Main.ackWrite (m : Main) (c v : Nat) : Main :=
  if bitsOf v 0 1 = 0 then m
  else { m with coll := { m.coll with acks := m.coll.acks.filter (fun a => a.cls != c) } }.set (F.FAULT_CLASS_STAT_PEND c) 7

/-- CLASS_ACK (R507). -/
def execClassAck (p : Path) (c : Fin 64) (v : Word) (s : State) : Host.Outcome State Fault Refusal :=
  s.onMain fun m => m.regCmd p .FAULT_CLASS_ACK v.toNat fun m => m.ackWrite c.val v.toNat

/-- R513: the log and FIRST are empty, and SEQ is 0. -/
def Main.logClear (m : Main) : Main :=
  let none4 := fun (m : Main) (f : Nat → Fld) => [0, 1, 2, 3].foldl (fun m j => m.set (f j) 0) m
  let m := (List.range 256).foldl (fun m i => none4 m (F.FAULT_LOG_WORD i)) (none4 m F.FAULT_FIRST_WORD)
  ((m.set F.FAULT_LOGCTL_NEXT 0).set F.FAULT_LOGCTL_WRAPPED 0).set F.FAULT_LOGCTL_SEQ 0

/-- A write of FAULT.LOGCTL (R517). -/
def Main.logctlWrite (m : Main) (v : Nat) : Main := if bitsOf v 9 1 = 1 then m.logClear else m

/-- LOG_CLEAR (R513). -/
def execLogClear (p : Path) (v : Word) (s : State) : Host.Outcome State Fault Refusal :=
  s.onMain fun m => m.regCmd p .FAULT_LOGCTL v.toNat fun m => m.logctlWrite v.toNat

/-- The bits of x that y does not have, of 64. -/
def bitsLess (x y : Nat) : Nat := (BitVec.ofNat 64 x &&& ~~~(BitVec.ofNat 64 y)).toNat

/-- A write of FAULT.DIESTAT[p] (R517): each 1 clears the bit here and on the die; an isolated die is out of reach (R505). -/
def Main.diestatWrite (m : Main) (d v : Nat) : Main :=
  let m := m.set (F.FAULT_DIESTAT_SRC d) (bitsLess (m.get (F.FAULT_DIESTAT_SRC d)) v)
  if d ≠ 0 ∧ m.outcast d = true then m
  else { m with coll := { m.coll with agents := nmPut m.coll.agents d (bitsLess (nmGet m.coll.agents d 0) v) 0 } }

/-- DIESTAT_CLEAR (R517). -/
def execDiestatClear (p : Path) (d : Fin 8) (v : Word) (s : State) : Host.Outcome State Fault Refusal :=
  s.onMain fun m => m.regCmd p .FAULT_DIESTAT v.toNat fun m => m.diestatWrite d.val v.toNat

end Sys2Proof.Machine
end

