-- ==== Sys2Proof/Machine/Sec.lean ====
section
/-! DEFINITION. One-time-programmable memory (R544, R557), security levels and access-control commands (R550, R551), the verification of
graph images (R555). -/

namespace Sys2Proof.Machine

/-! ### OTP (R544, R557) -/

/-- R544: the hidden words. -/
def otpHidden (k : Nat) : Bool := decide (29 ≤ k ∧ k ≤ 36)

/-- R544: ones are programmed into a word. -/
def Main.otpFuse (m : Main) (k ones : Nat) : Main :=
  { m with hw := { m.hw with otp := nmPut m.hw.otp k (m.otpWord k ||| ones % 2 ^ 64) 0 } }

/-- The bytes of n OTP words from word k, in the order of the bytes of each word (log 155). -/
def Main.otpBytes (m : Main) (k n : Nat) : List Nat := (List.range n).flatMap (fun i => leBytes 8 (m.otpWord (k + i)))

/-- How many of the low n bits of x are ones. -/
def ones (n x : Nat) : Nat := ((List.range n).filter (fun i => bitsOf x i 1 == 1)).length

/-- R550: the failed unlocks that LIFEFAIL records. -/
def Main.lifeFail (m : Main) : Nat := ones 64 (m.otpWord 70) + ones 64 (m.otpWord 71)

/-- R550: DBGOFF. -/
def Main.dbgOff (m : Main) : Bool := bitsOf (m.otpWord 69) 1 1 == 1

/-- A write of OTP.PROG that the path may make (R557): ERR is cleared by a 1; GO starts a program or refuses it. -/
def Main.otpProg (m : Main) (v : Nat) : Main :=
  let k := bitsOf v 0 7
  let d := m.get F.OTP_PROGDATA_DATA
  let old := m.otpWord k
  let m := m.setIf (bitsOf v 9 1 == 1) F.OTP_PROG_ERR 0
  if bitsOf v 7 1 = 0 ∨ m.sec.otp.isSome = true then m
  else if (otpHidden k = true ∧ old ≠ 0) ∨ old ||| d ≠ d then m.set F.OTP_PROG_ERR 1
  else { m with sec := { m.sec with otp := some (k, d) } }.set F.OTP_PROG_BUSY 1

/-- OTP_PROGRAM (R557). -/
def execOtpProgram (p : Path) (v : Word) (s : State) : Host.Outcome State Fault Refusal :=
  s.onMain fun m => m.regCmd p .OTP_PROG v.toNat fun m => m.otpProg v.toNat

/-- OTP_PROGRAM_DONE (R557): the word is programmed and verified; of a program that does not verify, which ones have taken is a free
value. -/
def Main.otpDone (m : Main) (ok : Bool) : Main :=
  match m.sec.otp with
  | none => m
  | some (k, d) =>
    let m : Main := { m with sec := { m.sec with otp := none } }.set F.OTP_PROG_BUSY 0
    if ok then m.otpFuse k d else (m.takeFree.2.otpFuse k (m.takeFree.1 &&& d)).set F.OTP_PROG_ERR 1

/-- OTP_PROGRAM_DONE. -/
def execOtpProgramDone (ok : Bool) (s : State) : Host.Outcome State Fault Refusal := s.onMain fun m => m.otpDone ok

/-! ### Sessions and commands (R550, R551) -/

/-- R414, R430, R551: the result of a command goes to the path it came on: the mailbox of the host, or the result that a service path
reads next. Commands of the service target raise event 978 and are counted. -/
def Main.secAnswer (m : Main) (p : Path) (code status : Nat) (data : List Nat) : Main :=
  match p with
  | .host =>
    let put := fun (m : Main) (i : Nat) =>
      let old := leBytes 8 (m.get (F.SEC_MBOX_DATA i))
      m.set (F.SEC_MBOX_DATA i) (leNum ((List.range 8).map (fun j => data.getD (8 * i + j) (old.getD j 0))))
    (((List.range ((data.length + 7) / 8)).foldl put m).set F.SEC_MBCTL_STATUS status).set F.SEC_MBCTL_GO 0
  | .i2c =>
    let m := (m.bump F.SVC_STAT_CMDS).event 978 code
    let m := if status = 0 then m else m.bump F.SVC_STAT_NAKS
    { m with comm := { m.comm with svc := status :: data } }
  | .usb | .debug => { m with comm := { m.comm with svc := status :: data } }
  | .ctx0 | .ctx255 => m

/-- R550: another path holds a session. -/
def Main.sessionElse (m : Main) (n : Nat) : Bool := m.flag F.SEC_STAT_SESSION && m.get F.SEC_STAT_PATH != n

/-- R550: a success opens a session. -/
def Main.sessionOpen (m : Main) (n level : Nat) : Main :=
  let m := (((m.set F.SEC_STAT_SESSION 1).set F.SEC_STAT_PATH n).set F.SEC_STAT_LEVEL level).set F.SEC_STAT_FAILS 0
  { m with sec := { m.sec with last := m.now } }

/-- R550: a failed unlock: one more LIFEFAIL bit, FAILS, lockout at the fifth, DBGOFF at 100. -/
def Main.unlockFails (m : Main) (n : Nat) : Main :=
  let life := m.lifeFail
  let m := if life < 64 then m.otpFuse 70 (2 ^ life) else if life < 128 then m.otpFuse 71 (2 ^ (life - 64)) else m
  let fails := Nat.min 5 (m.get F.SEC_STAT_FAILS + 1)
  let m := m.set F.SEC_STAT_FAILS fails
  let m := if fails = 5 then
      ({ m with sec := { m.sec with lockEnd := some (m.now + 3600000000000) } }.set F.SEC_STAT_LOCKOUT 1).raiseSrc 39 0 0 (1 + n * 4)
    else m
  if 100 ≤ m.lifeFail ∧ m.dbgOff = false then (m.otpFuse 69 2).raiseSrc 39 0 0 (2 + n * 4) else m

/-- R551: the PWHASH slot in force: the highest that is not zero. -/
def Main.pwSlot (m : Main) : Option Nat :=
  ((List.range 8).reverse).find? (fun k => !((m.otpBytes (37 + 4 * k) 4).all (fun b => b == 0)))

/-- R550, R551: an unlock is judged: refused and not counted in lockout or while another path holds a session. -/
def Main.unlock (m : Main) (n level : Nat) (good : Bool) : Nat × Main :=
  if m.flag F.SEC_STAT_LOCKOUT || m.sessionElse n then (stDenied, m)
  else if good then (stOk, m.sessionOpen n level)
  else (stDenied, m.unlockFails n)

/-- UNLOCK_PW (R551). -/
def Main.unlockPw (m : Main) (n : Nat) (pw : List Nat) : Nat × Main :=
  m.unlock n 1 (decide (1 ≤ pw.length ∧ pw.length ≤ 32) && match m.pwSlot with
    | some k => m.otpBytes (37 + 4 * k) 4 == sha256 pw
    | none => false)

/-- CHALLENGE (R551): a nonce of 16 bytes from the random generator. -/
def Main.challenge (m : Main) (n level : Nat) : Nat × List Nat × Main :=
  if level < 2 ∨ 4 < level then (stDenied, [], m)
  else
    let bytes := leBytes 16 (m.takeFree.1 % 2 ^ 128)
    let m := m.takeFree.2
    (stOk, bytes, { m with sec := { m.sec with nonce := some { path := n, level := level, bytes := bytes, at_ := m.now } } })

/-- R551: the 34 bytes that a MAC covers. -/
def Main.macText (m : Main) (nonce : List Nat) (level path : Nat) : List Nat := nonce ++ m.otpBytes 0 2 ++ [level, path]

/-- R550, R551: a MAC opens the level. -/
def Main.macGood (m : Main) (x : Nonce) (mac : List Nat) : Bool :=
  let build := m.otpBytes 29 4
  let main := fun (key : List Nat) => mac.take 32 == hmac256 key (m.macText x.bytes x.level x.path)
  match x.level with
  | 2 => mac.length == 32 && main build
  | 3 => mac.length == 32 && main build && bitsOf (m.otpWord 69) 0 1 == 1 && !m.dbgOff
  | 4 => mac.length == 64 && main (m.otpBytes 33 4) && mac.drop 32 == hmac256 build (m.macText x.bytes 0x84 x.path) && !m.dbgOff
  | _ => false

/-- RESPONSE (R551): the nonce of the path serves this response alone, within 60 s. -/
def Main.response (m : Main) (n : Nat) (mac : List Nat) : Nat × Main :=
  if m.flag F.SEC_STAT_LOCKOUT || m.sessionElse n then (stDenied, m)
  else match m.sec.nonce with
    | some x =>
      if x.path = n then
        let m' : Main := { m with sec := { m.sec with nonce := none } }
        m'.unlock n x.level (decide (m.now ≤ x.at_ + 60000000000) && m.macGood x mac)
      else m.unlock n 0 false
    | none => m.unlock n 0 false

/-- LOCK (R551): the session of the path ends. -/
def Main.secLock (m : Main) (n : Nat) : Nat × Main := (stOk, m.sessionEnd n)

/-- SETPW (R551): the next PWHASH slot is programmed. -/
def Main.setPw (m : Main) (n : Nat) (pw : List Nat) : Nat × Main :=
  let mine := m.flag F.SEC_STAT_SESSION && m.get F.SEC_STAT_PATH == n && decide (2 ≤ m.get F.SEC_STAT_LEVEL)
  let k := (m.pwSlot.map (· + 1)).getD 0
  if !mine || decide (pw.length < 8 ∨ 32 < pw.length ∨ 8 ≤ k) then (stDenied, m)
  else
    let h := sha256 pw
    (stOk, (List.range 4).foldl (fun m i => m.otpFuse (37 + 4 * k + i) (leNum ((h.drop (8 * i)).take 8))) m)

/-- R550, R556: SEC.STAT. LOCKREM counts whole seconds up. -/
def Main.secStat (m : Main) : Nat :=
  let rem := match m.sec.lockEnd with
    | some t => (t - m.now + 999999999) / 1000000000
    | none => 0
  m.get F.SEC_STAT_LEVEL + m.get F.SEC_STAT_PATH * 2 ^ 3 + m.get F.SEC_STAT_SESSION * 2 ^ 5 + m.get F.SEC_STAT_FAILS * 2 ^ 6 +
    m.get F.SEC_STAT_LOCKOUT * 2 ^ 9 + Nat.min 4095 rem * 2 ^ 10 + Nat.min 127 m.lifeFail * 2 ^ 22 + b2n m.dbgOff * 2 ^ 29

/-- R551: an access-control command of path n. Its status, its data, and what it does. -/
def Main.secRun (m : Main) (n code : Nat) (payload : List Nat) : Nat × List Nat × Main :=
  match code with
  | 0x20 => let r := m.unlockPw n payload; (r.1, [], r.2)
  | 0x21 => m.challenge n (payload.headD 0)
  | 0x22 => let r := m.response n payload; (r.1, [], r.2)
  | 0x23 => let r := m.secLock n; (r.1, [], r.2)
  | 0x24 => let r := m.setPw n payload; (r.1, [], r.2)
  | 0x25 => (stOk, leBytes 8 m.secStat, m)
  | _ => (stDenied, [], m)

/-- R430, R414: a command of the service target with a wrong PEC, or without one while CFG.PECREQ is 1. -/
def Main.pecBad (m : Main) (p : Path) (pec : Pec) : Bool := p == .i2c && (pec == .bad || (pec == .none && m.flag F.SVC_CFG_PECREQ))

/-- R551: an access-control command on a path, answered there. -/
def Main.secCmd (m : Main) (p : Path) (pec : Pec) (code : Nat) (payload : List Nat) : Main :=
  match p.number with
  | none => m
  | some n =>
    if m.asleep then m
    else if m.pecBad p pec then m.secAnswer p code stPec []
    else
      let r := (m.touch p).secRun n code payload
      r.2.2.secAnswer p code r.1 r.2.1

/-- The bytes of a payload. -/
def bytesOf (l : List Byte) : List Nat := l.map (fun b => b.toNat)

/-- UNLOCK_PW (R550, R551). -/
def execUnlockPw (p : Path) (pw : List Byte) (pec : Pec) (s : State) : Host.Outcome State Fault Refusal :=
  s.onMain fun m => m.secCmd p pec 0x20 (bytesOf pw)

/-- CHALLENGE (R551). -/
def execChallenge (p : Path) (level : Byte) (pec : Pec) (s : State) : Host.Outcome State Fault Refusal :=
  s.onMain fun m => m.secCmd p pec 0x21 [level.toNat]

/-- RESPONSE (R550, R551). -/
def execResponse (p : Path) (mac : List Byte) (pec : Pec) (s : State) : Host.Outcome State Fault Refusal :=
  s.onMain fun m => m.secCmd p pec 0x22 (bytesOf mac)

/-- LOCK (R551). -/
def execLock (p : Path) (pec : Pec) (s : State) : Host.Outcome State Fault Refusal := s.onMain fun m => m.secCmd p pec 0x23 []

/-- SETPW (R551). -/
def execSetpw (p : Path) (pw : List Byte) (pec : Pec) (s : State) : Host.Outcome State Fault Refusal :=
  s.onMain fun m => m.secCmd p pec 0x24 (bytesOf pw)

/-- SEC_STATUS (R551). -/
def execSecStatus (p : Path) (pec : Pec) (s : State) : Host.Outcome State Fault Refusal := s.onMain fun m => m.secCmd p pec 0x25 []

/-- A write of SEC.MBCTL (R551, R556): CODE and LEN, and with GO from the host the command itself. A RESPONSE of LEN 0 has 64 bytes (log 156). -/
def Main.mbctlWrite (m : Main) (p : Path) (v : Nat) : Main :=
  let m := (m.set F.SEC_MBCTL_CODE (bitsOf v 0 8)).set F.SEC_MBCTL_LEN (bitsOf v 8 6)
  if bitsOf v 14 1 = 1 ∧ p = .host then
    let len := if bitsOf v 0 8 = 0x22 ∧ bitsOf v 8 6 = 0 then 64 else bitsOf v 8 6
    m.secCmd .host .none (bitsOf v 0 8) (((List.range 8).flatMap (fun i => leBytes 8 (m.get (F.SEC_MBOX_DATA i)))).take len)
  else m

/-- LOCKOUT_END (R550). -/
def execLockoutEnd (s : State) : Host.Outcome State Fault Refusal :=
  s.onMain fun m => match m.sec.lockEnd with
    | some t =>
      if t ≤ m.now then ({ m with sec := { m.sec with lockEnd := none } }.set F.SEC_STAT_LOCKOUT 0).set F.SEC_STAT_FAILS 0 else m
    | none => m

/-- SESSION_TIMEOUT (R551). -/
def execSessionTimeout (s : State) : Host.Outcome State Fault Refusal :=
  s.onMain fun m =>
    if m.flag F.SEC_STAT_SESSION && decide (m.sec.last + 900000000000 ≤ m.now) then m.sessionEnd (m.get F.SEC_STAT_PATH) else m

/-! ### Images and graphs (R547, R548, R555) -/

/-- A byte that the boot and security block can read at a physical address: field SRAM, or memory of a die that can be reached. -/
def Main.secReads (m : Main) (pa : Nat) : Bool :=
  (match regionOf pa with
    | .fsram _ _ => true
    | .dram d _ => m.pop d && m.dieLive d && m.flag (F.MEMCTL_STAT_READY d)
    | .scratch d b _ _ => m.compute d && m.dieLive d && m.get (F.BANK_PWR_STATE d b) == 0
    | _ => false) && !m.wordUe (wordOf pa)

/-- The bytes at a range of physical addresses: none where one cannot be read. -/
def Main.secBytes (m : Main) (pa n : Nat) : Option (List Nat) :=
  if (List.range n).all (fun i => m.secReads ((pa + i) % 2 ^ 40)) then some ((List.range n).map (fun i => m.peek ((pa + i) % 2 ^ 40) 1))
  else none

/-- R547 step 2: the key of an index is in force, and is the one that was fused. -/
def Main.keyOk (m : Main) (idx : Nat) (xy : List Nat) : Bool :=
  let h := m.otpBytes (5 + 6 * idx) 6
  !h.all (fun b => b == 0) && bitsOf (m.otpWord 3) idx 1 == 0 && sha384 xy == h

/-- R547 step 3: the signature, r then s, over what comes before it. -/
def sigOk (xy hash sig : List Nat) : Bool :=
  ecdsaOk hash (beNum (xy.take 48)) (beNum (xy.drop 48)) (beNum (sig.take 48)) (beNum (sig.drop 48))

/-- A write of SEC.VFYKEY (R555): the fields, and GO. -/
def Main.vfyWrite (m : Main) (v : Nat) : Main :=
  let m := (m.set F.SEC_VFYKEY_KEYADDR (bitsOf v 0 40)).set F.SEC_VFYKEY_KEYIDX (bitsOf v 40 2)
  if bitsOf v 42 1 = 0 ∨ m.sec.vfy.isSome = true then m
  else
    let x : VfySt := { addr := m.get F.SEC_VFY_ADDR, len := m.get F.SEC_VFYLEN_LEN, key := bitsOf v 0 40, idx := bitsOf v 40 2 }
    ({ m with sec := { m.sec with vfy := some x } }.set F.SEC_VFYKEY_BUSY 1).set F.SEC_VFYKEY_GO 1

/-- GRAPH_VERIFY_START (R555). -/
def execGraphVerifyStart (p : Path) (v : Word) (s : State) : Host.Outcome State Fault Refusal :=
  s.onMain fun m => m.regCmd p .SEC_VFYKEY v.toNat fun m => m.vfyWrite v.toNat

/-- R556: RESULT of a verification, with the image hash where it is OK. -/
def Main.vfyResult (m : Main) (x : VfySt) : Nat × List Nat :=
  if x.len ≤ 96 then (2, [])
  else match m.secBytes x.addr (x.len - 96), m.secBytes (x.addr + x.len - 96) 96, m.secBytes x.key 96 with
    | some body, some sig, some xy =>
      let h := sha384 body
      if !m.keyOk x.idx xy then (3, []) else if !sigOk xy h sig then (4, []) else (0, h)
    | _, _, _ => (6, [])

/-- R548, R556: a hash is put into six registers. -/
def Main.putHash (m : Main) (f : Nat → Fld) (h : List Nat) : Main :=
  (List.range 6).foldl (fun m i => m.set (f i) (leNum ((h.drop (8 * i)).take 8))) m

/-- GRAPH_VERIFY_DONE (R555). -/
def Main.vfyDone (m : Main) : Main :=
  match m.sec.vfy with
  | none => m
  | some x =>
    let r := m.vfyResult x
    let m : Main := { m with sec := { m.sec with vfy := none } }
    let m := ((m.set F.SEC_VFYKEY_BUSY 0).set F.SEC_VFYKEY_GO 0).set F.SEC_VFYKEY_RESULT r.1
    if r.1 ≠ 0 then m
    else
      let g := (List.range 6).flatMap (fun i => leBytes 8 (m.get (F.SEC_GMEAS_HASH i)))
      m.putHash F.SEC_GMEAS_HASH (sha384 (g ++ r.2))

/-- GRAPH_VERIFY_DONE. -/
def execGraphVerifyDone (s : State) : Host.Outcome State Fault Refusal := s.onMain Main.vfyDone

end Sys2Proof.Machine
end

