-- ==== Sys2Proof/Machine/Views.lean ====
section
/-! DEFINITION. Register reads (R11 to R13): fields that show what a unit holds, and the registers whose read changes something. -/

namespace Sys2Proof.Machine

/-- R123: the words REC, ARG and HOLD of an activation record. -/
def LoopRec.word (x : LoopRec) (w : Nat) : Nat :=
  match w with
  | 0 => 1 + b2n x.call * 2 + b2n x.side * 4 + b2n x.ended * 8 + b2n x.held.isSome * 16 + x.ctx.toNat * 2 ^ 8 + x.block.toNat * 2 ^ 16 +
      x.k * 2 ^ 24 + x.credits * 2 ^ 37 + x.xcnt * 2 ^ 50 + x.xdone * 2 ^ 55
  | 1 => if x.call then x.link.toNat else x.remain
  | 2 => if x.call then 0 else x.outer.toNat + (match x.held with
      | some f => f.frame.toNat % 2 ^ 12 * 2 ^ 24 + f.prio.toNat * 2 ^ 36
      | none => 0)
  | _ => 0

/-- The tokens in a tuft's weir buffer (R206). -/
def Main.weirOcc (m : Main) (d t : Nat) : Nat := (m.tuft.weir.filter (fun x => x.die.val == d && x.tuft.val == t)).length

/-- The records of a tuft (R122). -/
def Main.lcRecs (m : Main) (d t : Nat) : List LoopRec := m.tuft.recs.filter (fun x => x.die.val == d && x.tuft.val == t)

/-- What a context block's fields show (R79, R190, R249, R370). -/
def Main.viewCtx (m : Main) (n : RegName) (c : Nat) : List (Nat × Nat) :=
  match n with
  | .CTXTAB_STATE => [((F.CTXTAB_STATE_THROTTLED c).lo, b2n (m.throttled c))]
  | .CTXTAB_FPSTICKY =>
    let u := fun (s : Bool) => m.req.units.find? (fun x => x.ctx.toNat == c && x.side == s)
    let cur := fun (s : Bool) => ((u s).map (fun x => x.cur)).getD 0
    let closing := fun (s : Bool) => ((u s).map (fun x => x.closing.length)).getD 0
    [((F.CTXTAB_FPSTICKY_EPOCH c).lo, cur false), ((F.CTXTAB_FPSTICKY_PEPOCH c).lo, cur true),
     ((F.CTXTAB_FPSTICKY_CLOSING c).lo, closing false), ((F.CTXTAB_FPSTICKY_PCLOSING c).lo, closing true),
     ((F.CTXTAB_FPSTICKY_TRAPS c).lo, Nat.min 0xFFFF (m.req.fpTraps.filter (fun x => x.ctx.toNat == c)).length)]
  | .CTXTAB_SCHED =>
    [((F.CTXTAB_SCHED_EFF c).lo, m.eff c), ((F.CTXTAB_SCHED_INH c).lo, m.inh c), ((F.CTXTAB_SCHED_HBOOST c).lo, b2n (m.hboost c))]
  | .CTXTAB_PARK => [((F.CTXTAB_PARK_RSEQ c).lo, nmGet m.req.park.seqs c 0 % 64), ((F.CTXTAB_PARK_FREE c).lo, m.get (F.CTXTAB_PARK_FREE c) - (m.parkedOf c).length)]
  | _ => []

/-- What the fields of a tuft, a scheduler and a compute die's router show (R82, R83, R122, R123, R191, R234, R252, R289). A record
that is not in use, and the HSLOT and HPRIO of one that holds no firing, read 0 (log 227). -/
def Main.viewTuft (m : Main) (a : RegAt) : List (Nat × Nat) :=
  let d := a.die
  let t := a.i
  match a.row.name with
  | .TUFT_MSOCC =>
    [((F.TUFT_MSOCC_OCC d t).lo, m.msOcc d t),
     ((F.TUFT_MSOCC_PROBEOUT d t).lo, (m.tuft.probes.filter (fun x => x.die.val == d && x.tuft.val == t)).length),
     ((F.TUFT_MSOCC_SPILLBUF d t).lo, (m.tuft.spill.filter (fun x => x.die.val == d && x.tuft.val == t)).length)]
  | .TUFT_LCOCC =>
    [((F.TUFT_LCOCC_INUSE d t).lo, (m.lcRecs d t).length), ((F.TUFT_LCOCC_HELD d t).lo, ((m.lcRecs d t).filter (fun x => x.held.isSome)).length)]
  | .TUFT_LCREC => [(0, (((m.lcRecs d t).find? (fun x => x.idx == a.j / 4)).map (fun x => x.word (a.j % 4))).getD 0)]
  | .TUFT_DIVSTAT => [((F.TUFT_DIVSTAT_BUSY d t).lo,
      ((m.tuft.divs.filter (fun x => x.die.val == d && x.tuft.val == t)).map (fun x => 2 ^ x.pair.val)).sum)]
  | .TUFT_WEIROCC => [((F.TUFT_WEIROCC_OCC d t).lo, m.weirOcc d t)]
  | .TUFT_TLBSTAT => [((F.TUFT_TLBSTAT_INUSE d t).lo, (m.tuft.tlb.filter (fun x => match x.owner with
      | .tuft e u => e.val == d && u.val == t
      | .flumes _ => false)).length)]
  | .FLUME_TLB => [((F.FLUME_TLB_INUSE d).lo, (m.tuft.tlb.filter (fun x => match x.owner with
      | .flumes e => e.val == d
      | .tuft _ _ => false)).length)]
  | .SCHED_CTX =>
    [((F.SCHED_CTX_EFF d t).lo, m.eff t), ((F.SCHED_CTX_SUSP d t).lo, b2n (m.run t != 1)), ((F.SCHED_CTX_SOLE d t).lo, b2n (m.sole t)),
     ((F.SCHED_CTX_LOSTSIDE d t).lo, m.get (F.CTXTAB_PAIR_LOSTSIDE t))]
  | .SCHED_STAT => [((F.SCHED_STAT_SUSPREADY d t).lo,
      (m.tok.ready.filter (fun f => f.die.val == d && f.tuft.val == t && m.run f.ctx.toNat == 2)).length)]
  | .ROUTER_THRMAP => [(0, ((List.range 64).map (fun j => b2n (m.throttled (64 * t + j)) * 2 ^ j)).sum)]
  | .ERR_STATUS => [(0, nmGet m.coll.agents d 0)]
  | _ => []

/-- What the fields of a runnel engine show (R312, R314, R318, R320, R333). -/
def Main.viewRunnel (m : Main) (a : RegAt) : List (Nat × Nat) :=
  let d := a.die
  let i := a.i
  let r := m.rn d i
  match a.row.name with
  | .RUNNEL_CFG =>
    if d = 0 ∧ (i = 4094 ∨ i = 4095) then [((F.RUNNEL_CFG_BASE d i).lo, m.rnBase d i), ((F.RUNNEL_CFG_CAP d i).lo, m.rnCap d i), ((F.RUNNEL_CFG_PUSH d i).lo, 0)] else []
  | .RUNNEL_PROD => if d = 0 ∧ (i = 4094 ∨ i = 4095) then [((F.RUNNEL_PROD_KIND d i).lo, (m.rnProd d i).1), ((F.RUNNEL_PROD_ID d i).lo, (m.rnProd d i).2)] else []
  | .RUNNEL_CONS => if d = 0 ∧ (i = 4094 ∨ i = 4095) then [((F.RUNNEL_CONS_KIND d i).lo, (m.rnCons d i).1), ((F.RUNNEL_CONS_ID d i).lo, (m.rnCons d i).2)] else []
  | .RUNNEL_OCC =>
    [((F.RUNNEL_OCC_WORDS d i).lo, r.occ), ((F.RUNNEL_OCC_OPEN d i).lo, (r.open_.map (fun p => p.words.length)).getD 0),
     ((F.RUNNEL_OCC_PKTS d i).lo, Nat.min 0xFFFF r.pkts.length), ((F.RUNNEL_OCC_HELD d i).lo, Nat.min 0xFF r.held.length)]
  | .RUNNEL_STAT =>
    [((F.RUNNEL_STAT_EN d i).lo, b2n (m.live (.runnel d i))), ((F.RUNNEL_STAT_OPENPKT d i).lo, b2n r.open_.isSome),
     ((F.RUNNEL_STAT_DOOMED d i).lo, b2n ((r.open_.map (fun p => p.doomed || p.aborted)).getD false))]
  | .RUNNEL_SEQ =>
    let ser := m.get (F.RUNNEL_SEQ_SER d i)
    let cser := match r.pkts with
      | p :: _ => p.serial
      | [] => match r.open_ with
        | some p => p.serial
        | none => ser
    [((F.RUNNEL_SEQ_CSER d i).lo, cser), ((F.RUNNEL_SEQ_CREDAV d i).lo, Nat.min 4096 (m.get (F.RUNNEL_PUSH_CRED d i)) - r.out)]
  | .RUNNEL_ENG => [((F.RUNNEL_ENG_HELD d).lo, m.rnHeld d)]
  | _ => []

/-- What the fields of references, scheduler, changeover, sluices and ports show (R205, R231, R232, R233, R346, R394, R407, R434). -/
def Main.viewField (m : Main) (n : RegName) (i : Nat) : List (Nat × Nat) :=
  match n with
  | .REF_SRC => if i = 1 then [((F.REF_SRC_KIND i).lo, 1), ((F.REF_SRC_EN i).lo, 1)] else []
  | .REF_POS => [(0, uns 64 (m.refPos i))]
  | .REF_GUARD => [((F.REF_GUARD_EXCUR i).lo, m.refExcur i)]
  | .REF_STAT =>
    [((F.REF_STAT_DIRN i).lo, b2n (m.refSt i).dir), ((F.REF_STAT_STAND i).lo, b2n (m.refStand i)),
     ((F.REF_STAT_PERIOD i).lo, m.refPeriod i % 2 ^ 32)]
  | .OUTSCHED_STAT =>
    [((F.OUTSCHED_STAT_PEND i).lo, (m.ref.outs.filter (fun o => o.ch == i && o.slot.isNone)).length),
     ((F.OUTSCHED_STAT_DESIG i).lo, (m.ref.outs.filter (fun o => o.ch == i && o.slot.isSome)).length)]
  | .OUTSCHED_POOL => [(F.OUTSCHED_POOL_FREE.lo, 16384 - m.ref.outs.length)]
  | .CHG_CTL => [((F.CHG_CTL_ARM i).lo, b2n (m.get (F.CHG_STAT_STATE i) == 1 || m.get (F.CHG_STAT_STATE i) == 2))]
  | .SLUICE_STAT =>
    let ws := m.waiters.filter (fun w => w.sluice == i)
    [((F.SLUICE_STAT_WAITERS i).lo, ws.length), ((F.SLUICE_STAT_WPRIO i).lo, (ws.map m.waitPrio).foldl Nat.max 0)]
  | .SLUICE_POOL => [(F.SLUICE_POOL_FREE.lo, 2048 - m.waiters.length)]
  | .ANA_IN_VAL => [((F.ANA_IN_VAL_PERIOD i).lo, m.mainsPeriod i)]
  | .TIMER_STAT =>
    [((F.TIMER_STAT_PAUSED i).lo, b2n (m.get (F.TIMER_CFG_MODE i) == 3 && !m.stepDriven i)),
     ((F.TIMER_STAT_PINCONF i).lo, b2n (m.pinConf i))]
  | .ETH_TXTS =>
    match (m.eth i).txts with
    | (tag, _) :: _ => [((F.ETH_TXTS_TAG i).lo, tag % 2 ^ 16), ((F.ETH_TXTS_VALID i).lo, 1)]
    | [] => []
  | .ETH_TXTSTIME =>
    match (m.eth i).txts with
    | (_, t) :: _ => [(0, t % 2 ^ 64)]
    | [] => []
  | _ => []

/-- What the fields of the field die's other blocks show (R5, R421, R443, R517, R519, R541, R544, R550, R556). -/
def Main.viewSys (m : Main) (n : RegName) (i : Nat) : List (Nat × Nat) :=
  match n with
  | .MODE_IDENT => [(F.MODE_IDENT_DIEMAP.lo, m.hw.part.diemap), (F.MODE_IDENT_PART.lo, m.hw.part.code)]
  | .MODE_CUR => [(F.MODE_CUR_ISOL.lo, b2n m.isolated)]
  | .MODE_DIE => [((F.MODE_DIE_STATE i).lo, if m.pop i then m.dieState i else 0)]
  | .TIME_NOW => [(0, m.now % 2 ^ 64)]
  | .SVC_CFG => [(F.SVC_CFG_ADDR.lo, (m.get F.SVC_CFG_ADDR + m.hw.svcStraps.toNat) % 128)]
  | .SURVEY_CTL => [(F.SURVEY_CTL_START.lo, b2n m.survRuns)]
  | .FAULT_SUMMARY => [(F.FAULT_SUMMARY_DIES.lo, ((List.range 8).map (fun d => b2n (m.get (F.FAULT_DIESTAT_SRC d) != 0) * 2 ^ d)).sum)]
  | .SEC_STAT =>
    [(F.SEC_STAT_LOCKREM.lo, bitsOf m.secStat 10 12), (F.SEC_STAT_LIFEFAIL.lo, bitsOf m.secStat 22 7), (F.SEC_STAT_DBGOFF.lo, b2n m.dbgOff)]
  | .OTP_WORD => [(0, if otpHidden i then 0 else m.otpWord i)]
  | _ => []

/-- The fields of a register that show what a unit holds, by low bit. -/
def Main.views (m : Main) (a : RegAt) : List (Nat × Nat) :=
  m.viewCtx a.row.name a.i ++ m.viewTuft a ++ m.viewRunnel a ++ m.viewField a.row.name a.i ++ m.viewSys a.row.name a.i

/-- R12, R13: what a register reads as. -/
def Main.regValue (m : Main) (a : RegAt) (pa : Nat) : Nat :=
  let vs := m.views a
  (a.row.fields.map (fun f =>
    (match vs.find? (fun v => v.1 == f.lo) with
      | some v => v.2 % 2 ^ f.w
      | none => match f.acc with
        | .wo => 0
        | _ => m.get (a.fld pa f)) * 2 ^ f.lo)).sum

/-- R13: the value from which a PEAK or MINFREE field goes on after a read. -/
def Main.restarts (m : Main) (a : RegAt) : List (Nat × Nat) :=
  let d := a.die
  let i := a.i
  match a.row.name with
  | .TUFT_MSOCC => [((F.TUFT_MSOCC_PEAK d i).lo, m.msOcc d i)]
  | .TUFT_LCOCC => [((F.TUFT_LCOCC_PEAK d i).lo, (m.lcRecs d i).length)]
  | .TUFT_WEIROCC => [((F.TUFT_WEIROCC_PEAK d i).lo, m.weirOcc d i)]
  | .CTXTAB_SOAKOCC => [((F.CTXTAB_SOAKOCC_PEAK i).lo, m.get (F.CTXTAB_SOAKOCC_OCC i))]
  | .RUNNEL_ENG => [((F.RUNNEL_ENG_PEAK d).lo, m.rnHeld d)]
  | .OUTSCHED_POOL => [(F.OUTSCHED_POOL_MINFREE.lo, 16384 - m.ref.outs.length)]
  | .SLUICE_POOL => [(F.SLUICE_POOL_MINFREE.lo, 2048 - m.waiters.length)]
  | _ => []

/-- R13, R434: what a read changes. The longest wait in SCHED.STAT is timing: what a read of it returns is a free value (log 163). -/
def Main.regAfterRead (m : Main) (a : RegAt) (pa : Nat) : Main :=
  let rs := m.restarts a
  let m := if a.row.name = .ETH_TXTSTIME then m.txtsRead a.i else m
  if a.i = 255 ∧ [RegName.CTXTAB_SOAKOCC, .CTXTAB_PAIR, .CTXTAB_DLSTAT].contains a.row.name then m
  else (a.row.fields.filter (fun f => f.acc == .rc)).foldl (fun m f =>
    m.set (a.fld pa f) (((rs.find? (fun r => r.1 == f.lo)).map (fun r => r.2)).getD 0)) m

/-- R13: a read of a register. -/
def Main.regRead (m : Main) (a : RegAt) (pa : Nat) : Nat × Main :=
  if a.row.name = .SCHED_STAT then
    let f := F.SCHED_STAT_OLDEST a.die a.i
    ((m.set f (m.takeFree.1 % 2 ^ f.w)).regValue a pa, m.takeFree.2.regAfterRead a pa)
  else (m.regValue a pa, m.regAfterRead a pa)

end Sys2Proof.Machine
end

