-- ==== Sys2Proof/Machine/RegAccess.lean ====
section
/-! DEFINITION. Register writes (R13) with what each register's write does, and accesses of the paths from outside (R4, R256, R266,
R336, R414, R426, R430, R552). Every way into a register ends here. -/

namespace Sys2Proof.Machine

/-! ### Writes -/

/-- R13: RW sets the field, each 1 written to a W1C field clears its bit, and the other codes ignore a plain write. -/
def Main.plainField (m : Main) (f : Fld) (acc : Access) (v : Nat) : Main :=
  match acc with
  | .rw => m.set f (bitsOf v f.lo f.w)
  | .w1c => m.set f (bitsLess (m.get f) (bitsOf v f.lo f.w))
  | _ => m

/-- R12, R13: a write of a register that does nothing else. -/
def Main.plainWrite (m : Main) (a : RegAt) (pa v : Nat) : Main :=
  a.row.fields.foldl (fun m f => m.plainField (a.fld pa f) f.acc v) m

/-- A plain write of the W1C fields alone. -/
def Main.clearWrite (m : Main) (a : RegAt) (pa v : Nat) : Main :=
  (a.row.fields.filter (fun f => f.acc == .w1c)).foldl (fun m f => m.plainField (a.fld pa f) f.acc v) m

/-- Write the fields in a list from a word. -/
def Main.fieldsWrite (m : Main) (v : Nat) (fs : List Fld) : Main := m.setWord v fs

/-- R46, R49, R64, R79, R189, R235, R351: context registers. boot tells the boot and security block, which alone writes those of
context 255. -/
def Main.writeCtx (m : Main) (boot : Bool) (n : RegName) (i v : Nat) : Option Main :=
  match n with
  | .CTXTAB_PLACE => some (if boot && decide (65280 ≤ i) then m.placeAccept i v else m.placeWrite i v)
  | .CTXTAB_STATE =>
    let own := boot && i == 255
    let m := if own then m.runChange i (v % 4) else m.runWrite i (v % 4)
    some (if bitsOf v 2 1 = 1 then if own then m.soakFullPut i else m.soakFullClear i else m)
  | .CTXTAB_HANDLER | .CTXTAB_FPSTICKY | .CTXTAB_SCHED | .CTXTAB_PAIR | .CTXTAB_DLSTAT | .CTXTAB_PTROOT =>
    if i = 255 ∧ boot = false then some m else none
  | .CTXTAB_SOAK => some (if boot then m.soakPut i v else m.soakWrite i v)
  | .CTXTAB_PARK => some (if boot then m.parkPut i v else m.parkWrite i v)
  | .CTXTAB_FPCTL => some (if boot then m.fpctlPut i v else m.fpctlWrite i v)
  | _ => none

/-- R482: a write to a register of the island's runnels. CFG and the island's endpoints stand; a write of the other endpoint with
KIND 1 is ignored (DEDUCED, log 243). -/
def Main.islandRnWrite (m : Main) (a : RegAt) (pa v : Nat) : Main :=
  match a.row.name with
  | .RUNNEL_CFG => m
  | .RUNNEL_PROD => if a.i = 4095 ∧ bitsOf v 8 1 = 0 then m.plainWrite a pa v else m
  | .RUNNEL_CONS => if a.i = 4094 ∧ bitsOf v 8 1 = 0 then m.plainWrite a pa v else m
  | _ => m.plainWrite a pa v

/-- Tufts, banks, memory controllers, flumes, dredges, culverts (R82, R261, R264, R287, R292, R306, R327, R533). -/
def Main.writeDie (m : Main) (a : RegAt) (pa v : Nat) : Option Main :=
  let d := a.die
  match a.row.name with
  | .TUFT_MSCTL => some (m.msInject d a.i v)
  | .BANK_OWN => some (m.bankOwn d a.i v)
  | .BANK_PWR => some (m.bankPwr d a.i v)
  | .MEMCTL_INJ => some (m.memInject d v)
  | .FLUME_CTL => some (if bitsOf v 0 1 = 1 then m.flKill d a.i else m)
  | .DREDGE_CTL =>
    let m := m.plainWrite a pa v
    let m := if bitsOf v 1 1 = 1 then m.drStop d none true else m
    some (if bitsOf v 0 1 = 1 then m.onDredge d fun m => m.drStart d else m)
  | .CULV_CTL => some (m.culvCtlWrite d a.i v)
  | .PWR_REQ => some (m.pwrReq d v)
  | .RUNNEL_CFG | .RUNNEL_PROD | .RUNNEL_CONS | .RUNNEL_PUSH | .RUNNEL_WMARK =>
    if m.live (.runnel d a.i) || m.ustOn (.runnel d a.i) then some (m.set (F.RUNNEL_STAT_CFGERR d a.i) 1)
    else if d = 0 ∧ (a.i = 4094 ∨ a.i = 4095) then some (m.islandRnWrite a pa v) else none
  | _ => none

/-- Event routes, references, the output scheduler, changeover slots, sluices and the unit state table (R84, R197, R201, R216, R223, R224,
R337, R342, R365). A write with ARM and ABORT arms the slot and then aborts it (log 235). -/
def Main.writeSched (m : Main) (p : Path) (a : RegAt) (pa v : Nat) : Option Main :=
  let i := a.i
  match a.row.name with
  | .EVT_ROUTE => some (m.unlessNamed 1 i fun m => m.plainWrite a pa v)
  | .REF_SRC => some (m.refSrcWrite i v)
  | .REF_SCALE => some (m.refScaleWrite i v)
  | .REF_WIN => some (m.refWinWrite i v)
  | .REF_PRESET => some (m.refPresetWrite i v)
  | .REF_VEL => some (m.refVelWrite i v)
  | .REF_SAMPLE => some (m.set (F.REF_SAMPLE_VALUE i) v)
  | .REF_SAMPLET => some (m.refSampletWrite i v)
  | .OUTSCHED_OWN => some (if chanOk i then m.ownWrite i v else m)
  | .OUTSCHED_CTL => some (if chanOk i && bitsOf v 0 1 == 1 then m.cancelWrite i else m)
  | .CHG_CTL =>
    let m := m.fieldsWrite v [F.CHG_CTL_LATEACT i, F.CHG_CTL_TMO i]
    let m := if bitsOf v 0 1 = 1 then m.chgArm i else m
    some (if bitsOf v 1 1 = 1 then m.chgAbortWrite i else m)
  | .SLUICE_CLAIM => some (m.slClaimWrite p i v)
  | .SLUICE_RELEASE => some (m.slReleaseWrite p i v)
  | .UST_RUN => some (m.ustWrite (.run (fin8 i) (Fin.ofNat 256 a.j)) v)
  | .UST_FLUME => some (m.ustWrite (.flume (fin8 i)) v)
  | .UST_OUT => some (m.ustWrite (.out (Fin.ofNat 17 i)) v)
  | .UST_SLUICE => some (m.ustWrite (.sluice (Fin.ofNat 16 i)) v)
  | .UST_UNIT => some (m.ustWrite (.unit (Fin.ofNat 4 i)) v)
  | .UST_BIND => some (m.bindWrite i v)
  | _ => none

/-- Axis, analog, motor, GPIO, timer and tape registers (R372, R374, R381, R387, R392, R393, R397, R400, R403 to R408). An enable bit is written
last. -/
def Main.writePort (m : Main) (a : RegAt) (pa v : Nat) : Option Main :=
  let i := a.i
  match a.row.name with
  | .AXIS_CFG => some (m.axisCfgWrite i v)
  | .AXIS_PRESET => some (m.putCnt i v)
  | .AXIS_SSI => some ((m.plainWrite a pa v).putAxis { m.axis i with ssiLast := none })
  | .AXIS_DAC => some ((m.clearWrite a pa v).enableWrite (.dac (Fin.ofNat 64 i)) (bitsOf v 32 1 == 1))
  | .ANA_RES_CFG =>
    some ((m.fieldsWrite v [F.ANA_RES_CFG_EXCF i, F.ANA_RES_CFG_AMP i, F.ANA_RES_CFG_PHASE i, F.ANA_RES_CFG_LOSLIM i]).enableWrite
      (.res (Fin.ofNat 16 i)) (bitsOf v 0 1 == 1))
  | .MOTOR_CFG | .MOTOR_PER => if m.flag (F.MOTOR_CTL_OE i) then some (m.set (F.MOTOR_CTL_CFGERR i) 1) else none
  | .MOTOR_CTL => some ((m.clearWrite a pa v).enableWrite (.motor (Fin.ofNat 16 i)) (bitsOf v 8 1 == 1))
  | .GPIO_CFG =>
    let m := m.fieldsWrite v ([F.GPIO_CFG_OD i, F.GPIO_CFG_DRIVE i, F.GPIO_CFG_FILT i, F.GPIO_CFG_SRC i] ++
      (if i < 256 then [F.GPIO_CFG_EDGE i] else []))
    let m := m.gpioInvert i (bitsOf v 14 1)
    some ((m.clearWrite a pa v).enableWrite (.gpio (Fin.ofNat 448 i)) (bitsOf v 0 1 == 1))
  | .GPIO_OUT => some (m.gpioOutWrite i v)
  | .TIMER_CFG =>
    let m := m.fieldsWrite v ([F.TIMER_CFG_PIN i, F.TIMER_CFG_DIRPIN i, F.TIMER_CFG_POL i] ++ (if v % 8 < 5 then [F.TIMER_CFG_MODE i] else []))
    some (m.timerRestart i)
  | .TIMER_PER => some ((m.plainWrite a pa v).timerRestart i)
  | .TAPE_CFG => some (if v % 4 = 3 then (m.plainWrite a pa v).set (F.TAPE_CFG_MODE i) (m.get (F.TAPE_CFG_MODE i)) else m.plainWrite a pa v)
  | .TAPE_CTL =>
    let m := m.clearWrite a pa v
    let m := if bitsOf v 1 1 = 1 then m.tapeLoadTab i else m
    some (m.enableWrite (.tape (Fin.ofNat 2 i)) (bitsOf v 0 1 == 1))
  | _ => none

/-- Communication and survey registers (R419, R421, R423, R426, R427, R430, R432, R434, R438, R443 to R445, R460). -/
def Main.writeComm (m : Main) (p : Path) (a : RegAt) (v : Nat) : Option Main :=
  let i := a.i
  match a.row.name with
  | .ETH_CFG => some (m.ethCfgWrite i v)
  | .ETH_GCLCTL => some (m.gclCtlWrite i v)
  | .ETH_MDIO => some (m.mdioWrite v)
  | .TIME_RATE => if p.servo then none else some m
  | .TIME_STEP => some (m.timeStep p v)
  | .TIME_STAT => some (m.timeStatWrite p v)
  | .CAN_CFG => some (m.canCfgWrite i v)
  | .PCIE_DOORBELL => some (if p = .host then m.doorbell v else m)
  | .PCIE_MSIX => some (m.msixWrite p v)
  | .USB_CFG => some (m.usbCfgWrite v)
  | .SVC_CFG =>
    some ((m.fieldsWrite v [F.SVC_CFG_WAKENAK, F.SVC_CFG_PECREQ]).set F.SVC_CFG_ADDR (v % 128 + 128 - m.hw.svcStraps.toNat))
  | .PMB_CMD => some (m.pmbWrite v)
  | .SURVEY_CTL => some (m.survCtlWrite v)
  | .SURVEY_PLAN => some (m.survPlanWrite i v)
  | .SURVEY_WVDC => some (m.survWvdcWrite v)
  | _ => none

/-- Mode, fault, security and OTP registers (R504 to R516, R520, R525 to R527, R535, R536, R551, R555, R557). -/
def Main.writeSys (m : Main) (p : Path) (a : RegAt) (v : Nat) : Option Main :=
  let i := a.i
  match a.row.name with
  | .MODE_REQ => some (m.modeReq p (v % 16))
  | .MODE_CTL => some (if v % 2 = 1 then m.warmReq p else m)
  | .MODE_DIERST => some (if bitsOf v 4 1 = 1 then m.dieReset (v % 8) (bitsOf v 3 1 == 1) else m)
  | .MODE_TUFTRST => some (if bitsOf v 6 1 = 1 then m.tuftReset (v % 8) (bitsOf v 3 3) else m)
  | .MODE_CTXRST => some (if bitsOf v 8 1 = 1 then m.contextReset (v % 256) else m)
  | .MODE_DIE =>
    some (match bitsOf v 3 2 with
      | 1 => m.dormantReq i
      | 2 => m.wakeReq i
      | _ => m)
  | .FAULT_ALIVE => some (m.aliveWrite p v)
  | .FAULT_RAISE => some (m.raiseWrite v)
  | .FAULT_INJECT => some (m.injectWrite v)
  | .FAULT_LOGCTL => some (m.logctlWrite v)
  | .FAULT_DIESTAT => some (m.diestatWrite i v)
  | .FAULT_CLASS_ACK => some (m.ackWrite i v)
  | .SEC_MBCTL => some (m.mbctlWrite p v)
  | .SEC_VFYKEY => some (m.vfyWrite v)
  | .OTP_PROG => some (m.otpProg v)
  | _ => none

/-- R13: a write of a register by a path that may make it. boot tells the boot and security block (R548). -/
def Main.regWrite (m : Main) (boot : Bool) (p : Path) (a : RegAt) (pa v : Nat) : Main :=
  match m.writeCtx boot a.row.name a.i v with
  | some m => m
  | none => match m.writeDie a pa v with
    | some m => m
    | none => match m.writeSched p a pa v with
      | some m => m
      | none => match m.writePort a pa v with
        | some m => m
        | none => match m.writeComm p a v with
          | some m => m
          | none => match m.writeSys p a v with
            | some m => m
            | none => m.plainWrite a pa v

/-! ### Which register space can be reached -/

/-- R255: an offset of a die's register space lies in one of its blocks. A TUFT block has 1 MiB, every other block 16 MiB. -/
def Main.inBlock (m : Main) (d off : Nat) : Bool :=
  regTable.any (fun r => m.dieHas r.dies d && r.base / 2 ^ 24 == off / 2 ^ 24 &&
    (!(m.compute d && off / 2 ^ 24 == 0) || decide (off < 0x800000)))

/-- R4, R255: an access to register space reaches a block of a die that works. -/
def Main.regsReach (m : Main) (pa : Nat) : Bool :=
  match regionOf pa with
  | .regs d off => m.pop d && m.dieLive d && m.inBlock d off
  | _ => false

/-- R255: a read of register space that is reached: an offset that no register holds reads as 0. -/
def Main.spaceRead (m : Main) (pa : Nat) : Nat × Main :=
  match m.regAt pa with
  | some a => m.regRead a pa
  | none => (0, m)

/-- R255: a write of register space that is reached. -/
def Main.spaceWrite (m : Main) (boot : Bool) (p : Path) (pa v : Nat) : Main :=
  match m.regAt pa with
  | some a => m.regWrite boot p a pa v
  | none => m

/-- R557: a write that its path may not make is discarded. -/
def Main.spaceMay (m : Main) (p : Path) (pa v : Nat) : Bool :=
  match m.regAt pa with
  | some a => m.mayWrite p a.row.name v
  | none => true

/-! ### Accesses from outside (R414) -/

/-- How an access from outside ends: its status and the bytes read; or not yet, while its target trains, wakes or drains. -/
inductive ExtOut
  | done (status : Nat) (data : List Nat) (m : Main)
  | wait

/-- R552: the level at which a memory address may be accessed: DEBUG for the reserved MiB of field SRAM, MAINTENANCE for the rest. In
BOOT from the PCIe host, the host writes the image before anyone can unlock (R545). -/
def Main.memOpen (m : Main) (p : Path) (pa : Nat) (write : Bool) : Bool :=
  let lv := m.pathLevel p
  if reservedFsram pa then decide (3 ≤ lv)
  else decide (2 ≤ lv) ||
    (write && p == .host && m.mode == 1 && (match m.sec.boot with
      | some b => b.src == 2
      | none => false) && (match regionOf pa with
        | .fsram _ 0 => true
        | _ => false))

/-- R552: the level at which register space may be accessed. -/
def Main.regsOpen (m : Main) (p : Path) (pa : Nat) (write : Option Nat) : Bool :=
  match m.regAt pa, write with
  | some a, none => m.mayRead p a.row.name
  | some a, some v =>
    m.mayWrite p a.row.name v && !([RegName.TIME_RATE, .TIME_STEP].contains a.row.name && !p.servo) &&
    !(a.row.name == .TIME_STAT && !p.servo && m.get F.TIME_STAT_LOCKED != v % 2)
  | none, none => decide (1 ≤ m.pathLevel p)
  | none, some _ => decide (2 ≤ m.pathLevel p)

/-- R4: an access from outside to what is powered off, absent or unassigned: NAK_OFF, and OFF_ACCESS. -/
def Main.extOff (m : Main) (pa : Nat) : ExtOut :=
  .done stOff [] (m.raiseSrc 6 0 (regionOf pa).die ((regionOf pa).die + 8))

/-- R256, R414: register space from outside. -/
def Main.extRegs (m : Main) (p : Path) (pa n : Nat) (write : Option Nat) : ExtOut :=
  if !m.regsOpen p (pa / 8 * 8) write then .done stDenied [] m
  else if n ≠ 8 ∨ pa % 8 ≠ 0 then .done stAlign [] m
  else if !m.regsReach pa then m.extOff pa
  else match write with
    | none => .done stOk (leBytes 8 (m.spaceRead pa).1) (m.spaceRead pa).2
    | some v => .done stOk [] (m.spaceWrite false p pa v)

/-- R414: a scratch bank admits a read from outside when nobody owns it or it is shared, and a write only when nobody owns it. -/
def Main.extOwned (m : Main) (pa : Nat) (write : Bool) : Bool :=
  match regionOf pa with
  | .scratch d b _ _ =>
    m.drHas d b || !(m.get (F.BANK_OWN_KIND d b) == 0 || (!write && m.flag (F.BANK_OWN_SHRD d b)))
  | _ => false

/-- R4, R135, R256, R258, R266, R414: memory from outside. Such a write never loses a port conflict (R263). -/
def Main.extMem (m : Main) (p : Path) (pa n : Nat) (write : Option Nat) (waits : Bool) : ExtOut :=
  let id : AccId := { ctx := 256, die := 0, flume := none, external := true, debug := decide (3 ≤ m.pathLevel p) }
  if !m.memOpen p pa write.isSome then .done stDenied [] m
  else if !aligned pa n (aliasOf pa) then .done stAlign [] m
  else match m.gate id pa write.isSome with
    | .wait => .wait
    | .fail c _ => if c = 0x41 then .done stDenied [] m else m.extOff pa
    | .go =>
      if m.heldAhead pa (.outside p) then .wait
      else if m.extOwned pa write.isSome then .done stOwner [] (m.countGate id pa 0x44)
      else
        let m := m.portWait pa waits
        match write with
        | none => match m.loadPhys id pa n with
          | (.ok x, m) => .done stOk (leBytes n x) m
          | (_, m) => .done stUe [] m
        | some v => match m.storePhys id pa v n with
          | (.ok _, m) => .done stOk [] m
          | (_, m) => .done stUe [] m

/-- R414: an access from outside. -/
def Main.extAccess (m : Main) (p : Path) (pa n : Nat) (write : Option Nat) (waits : Bool) : ExtOut :=
  let m := m.touch p
  match regionOf pa with
  | .regs _ _ => m.extRegs p pa n write
  | _ => m.extMem p pa n write waits

/-- An access whose answer goes back to its path. One that must wait is not performed yet. -/
def Main.extDo (m : Main) (p : Path) (pa n : Nat) (write : Option Nat) (waits : Bool) : Main :=
  if m.asleep then m
  else match m.extAccess p pa n write waits with
  | .wait => m.waitAt pa (.outside p)
  | .done st data m' => (m'.unhold (.outside p)).extAnswer p st data

/-! ### Commands -/

/-- A register access on a path. An access of a context that reaches nothing is none of these commands': it faults its PLOAD or PSTORE. -/
def Main.onRegs (m : Main) (p : Path) (pa : Nat) (write : Option Nat) : Main :=
  if !isRegs pa || (p.isCtx && !m.regsReach pa) then m else m.extDo p pa 8 write false

/-- READ_CLEAR_ACCESS (R13): a read of a register on a path. -/
def execReadClearAccess (p : Path) (pa : BitVec 40) (s : State) : Host.Outcome State Fault Refusal :=
  s.onMain fun m => m.onRegs p pa.toNat none

/-- REGISTER_WRITE (R13): a write of a register on a path. -/
def execRegisterWrite (p : Path) (pa : BitVec 40) (v : Word) (s : State) : Host.Outcome State Fault Refusal :=
  s.onMain fun m => m.onRegs p pa.toNat (some v.toNat)

/-- R88: the widths of an access in bytes. -/
def accBytes (w : Fin 4) : Nat := 2 ^ w.val

/-- R426: the physical address of an offset in BAR2: none in a disabled window. -/
def Main.winPa (m : Main) (off : Nat) : Option Nat :=
  let k := off / 2 ^ 27
  if m.flag (F.PCIE_WIN_EN k) then some (m.get (F.PCIE_WIN_BASE k) * 2 ^ 27 + off % 2 ^ 27) else none

/-- R426, R551: the physical address of an offset in BAR0, which maps the PCIE block, and SEC.MBOX from 0x80_0000. -/
def bar0Pa (off : Nat) : Nat :=
  if 0x800000 ≤ off then (F.SEC_MBOX_DATA 0).pa + (off - 0x800000) else (F.PCIE_DOORBELL_D).pa / 2 ^ 24 * 2 ^ 24 + off

/-- R552: an access to a slot of an instruction memory on the debug port, at DEBUG level: a read answers the content and the kind (log 241). -/
def Main.debugImem (m : Main) (slot kind : Nat) (write : Option Nat) : Main :=
  let m := m.touch .debug
  if m.asleep then m
  else if m.pathLevel .debug < 3 then m.extAnswer .debug stDenied []
  else match locator slot with
    | none => m.extAnswer .debug stOff []
    | some (d, t, i) =>
      if !m.compute d || !m.dieLive d then (m.raiseSrc 6 0 d (d + 8)).extAnswer .debug stOff []
      else match write with
        | none => let x := m.slot (fin8 d) (fin8 t) i; m.extAnswer .debug stOk (leBytes 8 x.2.toNat ++ [x.1.code])
        | some v => (m.setSlot (fin8 d) (fin8 t) i (slotKindOf kind) (w64 v)).extAnswer .debug stOk []

/-- HOST_WINDOW_ACCESS (R414, R426): an access through a BAR of the PCIe function, or by a service path. A disabled window answers UR,
which is recorded as NAK_OFF. -/
def Main.hostAccess (m : Main) (x : ExtAddr) (w : Fin 4) (write : Option Nat) (waits : Bool) : Main :=
  match x with
  | .bar0 off => m.extDo .host (bar0Pa off.toNat) (accBytes w) write waits
  | .bar2 off => match m.winPa off.toNat with
    | some pa => m.extDo .host pa (accBytes w) write waits
    | none => m.extAnswer .host stOff []
  | .path p pa => if p.isCtx then m else m.extDo p pa.toNat (accBytes w) write waits
  | .imem slot kind => m.debugImem slot.toNat kind.val write

/-- HOST_WINDOW_ACCESS. -/
def execHostWindowAccess (x : ExtAddr) (w : Fin 4) (io : ExtIo) (s : State) : Host.Outcome State Fault Refusal :=
  s.onMain fun m => m.hostAccess x w (io.write.map BitVec.toNat) io.waits

/-- R430: a service command that accesses a physical address. -/
def Main.svcAccess (m : Main) (p : Path) (code pa : Nat) (write : Option Nat) (pec : Pec) (waits : Bool) : Main :=
  if p.isCtx || p == .host || m.asleep then m
  else if m.pecBad p pec then m.secAnswer p code stPec []
  else match m.extAccess p pa 8 write waits with
    | .wait => m.waitAt pa (.outside p)
    | .done st data m' => (m'.unhold (.outside p)).secAnswer p code st data

/-- SVC_READ (R430). -/
def execSvcRead (p : Path) (pa : BitVec 40) (io : SvcIo) (s : State) : Host.Outcome State Fault Refusal :=
  s.onMain fun m => m.svcAccess p 0x10 pa.toNat none io.pec io.waits

/-- SVC_WRITE (R430). -/
def execSvcWrite (p : Path) (pa : BitVec 40) (v : Word) (io : SvcIo) (s : State) : Host.Outcome State Fault Refusal :=
  s.onMain fun m => m.svcAccess p 0x11 pa.toNat (some v.toNat) io.pec io.waits

/-- R430: MODE.IDENT and the current mode, 9 bytes. -/
def Main.modeBytes (m : Main) : List Nat := leBytes 8 (m.spaceRead F.MODE_IDENT_VENDOR.pa).1 ++ [m.mode]

/-- SVC_MODE (R430). -/
def Main.svcMode (m : Main) (p : Path) (pec : Pec) : Main :=
  if p.isCtx || p == .host || m.asleep then m
  else if m.pecBad p pec then m.secAnswer p 0x12 stPec []
  else (m.touch p).secAnswer p 0x12 stOk m.modeBytes

/-- SVC_MODE. -/
def execSvcMode (p : Path) (pec : Pec) (s : State) : Host.Outcome State Fault Refusal := s.onMain fun m => m.svcMode p pec

/-- HALT_AND_RESUME_OF_DISPATCH (R552): a path at DEBUG level halts or resumes the dispatch of one tuft in mode DEBUG. -/
def Main.haltWrite (m : Main) (d t : Nat) (halt : Bool) : Main :=
  let m := m.touch .debug
  if m.pathLevel .debug < 3 then m.extAnswer .debug stDenied []
  else if m.mode ≠ 9 ∨ m.compute d = false then m
  else
    let rest := m.tuft.halted.filter (fun k => k != 8 * d + t)
    { m with tuft := { m.tuft with halted := if halt then rest ++ [8 * d + t] else rest } }

/-- HALT_AND_RESUME_OF_DISPATCH. -/
def execHaltAndResumeOfDispatch (d t : Fin 8) (halt : Bool) (s : State) : Host.Outcome State Fault Refusal :=
  s.onMain fun m => m.unlessStandby fun m => m.haltWrite d.val t.val halt

end Sys2Proof.Machine
end

