-- ==== Sys2Proof/Machine/MemResponse.lean ====
section
/-! DEFINITION. What a memory unit does with an issued request (R124, R131 to R139, R161, R258 to R268, R362), and what follows a
page walk (R271 to R277). -/

namespace Sys2Proof.Machine

/-! ### Port conflicts (R135, R262, R263) -/

/-- The detail of WLOST (R348): die and bank; field SRAM has no banks and names 127 (log 31). -/
def wlostDetail (pa : Nat) : Nat :=
  match regionOf pa with
  | .scratch d b _ _ => d + 8 * b
  | _ => 8 * 127

/-- R135, R263, R364: the writes that can lose to port A: STORE and PSTORE outside the bit-set and bit-clear windows, and ISTORE. -/
def MemOp.canLose (o : MemOp) (pa : Nat) : Bool :=
  match o with
  | .store | .pstore => aliasOf pa == 0 || aliasOf pa == 3
  | .istore => true
  | _ => false

/-- What the access meets at its port. Only an access through port B waits or loses. -/
def MemReq.port (r : MemReq) (p : PortB) : PortB :=
  if !viaPortB r.f.die.val r.pa then .clear
  else match p with
    | .loses => if r.op.canLose r.pa then .loses else .clear
    | x => x

/-! ### Reads, writes and atomics -/

/-- A request that fails at its target (R125, R362). -/
def Main.reqFault (m : Main) (r : MemReq) (code detail : Nat) : Main := m.parkOp r.f code detail r.pa

/-- The identity of a request's access (R259). -/
def MemReq.id (r : MemReq) : AccId :=
  { ctxId r.f.ctx.toNat r.f.die.val with load := r.op == .load || r.op == .iload || r.op == .pload }

/-- R131: LOAD, and PLOAD of memory. -/
def Main.reqLoad (m : Main) (r : MemReq) : Main :=
  match m.loadPhys r.id r.pa r.bytes with
  | (.ok v, m) => m.answerBoth r.f (r.f.loaded v)
  | (.fail c d, m) => m.reqFault r c d
  | (.wait, m) => m

/-- R131, R132: STORE, and PSTORE of memory: BOOL true once it has been performed. -/
def Main.reqStore (m : Main) (r : MemReq) : Main :=
  match m.storePhys r.id r.pa r.data.toNat r.bytes with
  | (.ok _, m) => m.answerBoth r.f (opBool true)
  | (.fail c d, m) => m.reqFault r c d
  | (.wait, m) => m

/-- R134: one read-modify-write; the old value is returned, read in W bits and extended by SX. -/
def Main.reqAtomic (m : Main) (r : MemReq) : Main :=
  match m.readMem r.pa r.bytes with
  | (none, m) => m.reqFault r fcMemUe (regionOf r.pa).die
  | (some old, m) =>
    let m := match r.op.newValue r.bytes old r.data r.data2 with
      | some v => (m.writeMem r.pa v r.bytes).2
      | none => m
    m.answerBoth r.f { value := extInt r.f.w r.f.sx old, typ := tyInt }

/-! ### I-structures (R137 to R139) -/

/-- The deferral entries in use on a die (R139). -/
def Main.deferred (m : Main) (d : Nat) : Nat := (m.req.defer.filter (fun e => e.die.val == d)).length

/-- ILOAD at the bank. -/
def Main.reqIload (m : Main) (r : MemReq) : Main :=
  let wa := wordOf r.pa
  if m.presence wa = 1 then m.reqLoad r
  else if m.wordUe wa then (m.countUe wa 0).reqFault r fcMemUe (regionOf r.pa).die
  else if 8192 ≤ m.deferred (regionOf r.pa).die then m.reqFault r fcIstructNodefer 0
  else (m.deferRead r.f (fin8 (regionOf r.pa).die) wa).observe r.f.ctx

/-- ISTORE at the bank: the acknowledgement, and then the deferred reads. -/
def Main.reqIstore (m : Main) (r : MemReq) : Main :=
  let wa := wordOf r.pa
  if m.presence wa = 1 then m.reqFault r fcIstructRewrite 0
  else match m.storePhys r.id r.pa r.data.toNat 8 with
    | (.ok _, m) => ((m.setPresence wa 1).answerBoth r.f (opBool true)).deliverDeferred wa r.data.toNat
    | (.fail c d, m) => m.reqFault r c d
    | (.wait, m) => m

/-- ICLEAR at the bank. -/
def Main.reqIclear (m : Main) (r : MemReq) : Main :=
  let wa := wordOf r.pa
  if m.presence wa = 2 then m.reqFault r fcIstructBusy 0 else (m.setPresence wa 0).answerBoth r.f (opBool true)

/-! ### Register space (R161, R255, R256, R552, R557) -/

/-- The path of a privileged context (R552). -/
def MemReq.path (r : MemReq) : Path := if r.f.ctx = 255 then .ctx255 else .ctx0

/-- PLOAD and PSTORE of register space. A PSTORE is acknowledged before the effect of the write, which may be a reset. -/
def Main.reqRegs (m : Main) (r : MemReq) : Main :=
  if !m.regsReach r.pa then (m.countGate r.id r.pa fcPoweredOff).reqFault r fcPoweredOff (regionOf r.pa).die
  else if r.op = .pstore then
    let m := m.answerBoth r.f (opBool true)
    if m.spaceMay r.path r.pa r.data.toNat then m.spaceWrite false r.path r.pa r.data.toNat else m
  else (m.spaceRead r.pa).2.answerBoth r.f (r.f.loaded (m.spaceRead r.pa).1)

/-! ### MEMORY_RESPONSE -/

/-- A request of memory that its target admits. -/
def Main.reqDo (m : Main) (r : MemReq) : Main :=
  match r.op with
  | .load | .pload => m.reqLoad r
  | .store | .pstore => m.reqStore r
  | .iload => m.reqIload r
  | .istore => m.reqIstore r
  | .iclear => m.reqIclear r
  | _ => m.reqAtomic r

/-- A request of memory at its target: it is admitted, refused, or waits there (R260, R261, R264). Requests that a handover has held go on
in the order of their arrival. -/
def Main.reqMem (m : Main) (r : MemReq) (p : PortB) : Main :=
  let m' : Main := Main.unhold { m with req := { m.req with reqs := m.req.reqs.erase r } } (.request r)
  let out := m.gate r.id r.pa r.op.needs.2
  if out = .wait ∨ (out = .go ∧ m.heldAhead r.pa (.request r) = true) then m.waitAt r.pa (.request r)
  else match out with
  | .wait => m
  | .fail c d => (m'.countGate r.id r.pa c).reqFault r c d
  | .go =>
    match r.port p with
    | .loses => if r.op = .istore ∧ m.presence (wordOf r.pa) = 1 then m'.reqDo r else (m'.countPort r.pa true).reqFault r fcWlost (wlostDetail r.pa)
    | .waits => (m'.countPort r.pa false).reqDo r
    | .clear => m'.reqDo r

/-- MEMORY_RESPONSE (R124): the unit performs an outstanding request and answers it. A TLBINV may have waited for it (R163). -/
def Main.memResponse (m : Main) (r : MemReq) (p : PortB) : Main :=
  if !m.req.reqs.contains r then m
  else if isRegs r.pa then (({ m with req := { m.req with reqs := m.req.reqs.erase r } } : Main).reqRegs r).settleInv
  else (m.reqMem r p).settleInv

/-- MEMORY_RESPONSE. -/
def execMemoryResponse (r : MemReq) (p : PortB) (s : State) : Host.Outcome State Fault Refusal :=
  s.onMain fun m => m.memResponse r p

/-! ### TABLE_WALK -/

/-- The memory operation that an opcode asks for. -/
def Op.mem : Op → Option MemOp
  | .load => some .load
  | .store => some .store
  | .aadd => some .aadd
  | .aand => some .aand
  | .aor => some .aor
  | .axor => some .axor
  | .axchg => some .axchg
  | .acas => some .acas
  | .iload => some .iload
  | .istore => some .istore
  | .iclear => some .iclear
  | _ => none

/-- What an operation does once its address is translated. -/
def Main.walked (m : Main) (f : Firing) (e : TlbEntry) : Main :=
  match f.op with
  | some .flissue => match flumeId f.right.value.toNat with
    | some (d, i) => m.flChecked f d i f.walkVa e
    | none => m
  | some o => match o.mem with
    | some k => m.memChecked f k f.walkVa e
    | none => m
  | none => m

/-- The operation no longer waits for a walk. -/
def Main.unwalk (m : Main) (f : Firing) : Main := { m with req := { m.req with walks := m.req.walks.erase f } }

/-- R276: the operations that a walk serves: f, and those of its tuft and table root whose misses to the same page have joined its walk. -/
def Main.joined (m : Main) (f : Firing) (page : Nat → Bool) : List Firing :=
  f :: m.req.walks.filter (fun g => g != f && m.xlateOf g == m.xlateOf f && page g.walkVa)

/-- A walk ends for the operations fs: mid happens once, and each for every one of them. -/
def Main.walkEnd (m : Main) (fs : List Firing) (mid : Main → Main) (each : Main → Firing → Main) : Main :=
  (fs.foldl each (mid (fs.foldl Main.unwalk m))).settleInv

/-- TABLE_WALK (R272 to R276): the walk of an operation that waits for one, and of those that have joined it: where it fails, those of the same
64 KiB page. A page that has come into the TLB meanwhile is used. -/
def Main.tableWalk (m : Main) (f : Firing) : Main :=
  if !m.req.walks.contains f then m
  else if !m.xlateOn f.ctx.toNat then ((m.unwalk f).parkOp f fcTranslation 1 f.walkVa).settleInv
  else match m.tlbFind (m.xlateOf f) f.walkVa with
    | some e => ((m.unwalk f).walked f e).settleInv
    | none => match m.walk (m.xlateOf f) f.walkVa with
      | .wait pa => m.wakeFor pa
      | .ok e m => m.walkEnd (m.joined f (fun va => vpnOf e.big va == e.vpn)) (fun m => m.tlbInsert e) (fun m g => m.walked g e)
      | .fault level reason m =>
        m.walkEnd (m.joined f (fun va => vpnOf false va == vpnOf false f.walkVa))
          (fun m => if reason = 2 then m.bump (F.TUFT_TLBSTAT_WALKERR f.die.val f.tuft.val) else m)
          (fun m g => m.parkOp g fcTranslation (level + 4 * reason) g.walkVa)

/-- TABLE_WALK. -/
def execTableWalk (f : Firing) (s : State) : Host.Outcome State Fault Refusal := s.onMain fun m => m.tableWalk f

end Sys2Proof.Machine
end

