-- ==== Sys2Proof/Machine/Boot.lean ====
section
/-! DEFINITION. Boot: sources, staging, the checks of an image and what an image brings (R544 to R549). -/

namespace Sys2Proof.Machine

/-! ### Sources (R545, R549) -/

/-- R546: where an image is staged. -/
def stageAt : Nat := 0x8000100000

/-- R546: the longest image. -/
def imageMax : Nat := 7 * 2 ^ 20

/-- R548: a failed boot: SEC.BOOT.FAIL, SEC_LOCKOUT with detail [7:4] = FAIL, FAULT-STOP. -/
def Main.bootFail (m : Main) (code : Nat) : Main :=
  let m : Main := { m with sec := { m.sec with boot := none } }
  ((m.set F.SEC_BOOT_FAIL code).raiseSrc 39 0 0 (code * 16)).modeChange 11 8

/-- The boot in progress: only mode BOOT has one (R521). -/
def Main.booting (m : Main) : Option BootSt := if m.mode = 1 then m.sec.boot else none

/-- R307, R549: the boot tests that BOOTCFG asks for. -/
def Main.bootTests (m : Main) : Main :=
  if bitsOf (m.otpWord 2) 4 1 = 1 then (0 :: m.computeDies).foldl (fun m d => m.drBoot d none) m
  else [1, 3].foldl (fun m d => if m.compute d && (m.bootDram d).isSome then m.drBoot d (m.bootDram d) else m) m

/-- BOOT_START (R545): the straps, the boot tests, and the order of the slots by the versions in their headers. -/
def Main.bootStart (m : Main) (verA verB : Nat) : Main :=
  if m.mode ≠ 1 ∨ m.sec.boot.isSome = true then m
  else
    let s := m.hw.bootStraps.toNat
    let m := (m.set F.SEC_BOOT_SRC s).bump F.SEC_BOOT_COUNT
    if bitsOf (m.otpWord 2) s 1 = 0 then m.bootFail 1
    else
      let slots := if s < 2 then (if verA < verB then [1, 0] else [0, 1]) else [0]
      let m := if s = 2 then (m.set (F.PCIE_WIN_EN 0) 1).set (F.PCIE_WIN_BASE 0) (0x8000000000 / 2 ^ 27) else m
      let m := m.bootTests.set F.SEC_BOOT_SLOT (slots.headD 0)
      { m with sec := { m.sec with boot := some { src := s, slots := slots, at_ := m.now, staged := none } } }

/-- BOOT_START: verA and verB are the versions in the headers of the two slots (sources 0 and 1). -/
def execBootStart (verA verB : BitVec 32) (s : State) : Host.Outcome State Fault Refusal :=
  s.onMain fun m => m.bootStart verA.toNat verB.toNat

/-! ### Writing memory -/

/-- How a part of an image goes: applied, failed, or held up by what it writes to (R548, R549). -/
inductive Applied
  | done | failed | waits
  deriving DecidableEq, Repr

/-- The boot and security block writes bytes to memory: whole words where it can. n bounds the number of writes. One that must wait at its
target (R261, R264) is begun again later. -/
def Main.bootStore (m : Main) (pa : Nat) (bs : List Nat) : Nat → Applied × Main
  | 0 => (if bs.isEmpty then .done else .failed, m)
  | n + 1 =>
    if bs = [] then (.done, m)
    else
      let k := if pa % 8 = 0 ∧ 8 ≤ bs.length then 8 else 1
      let id : AccId := { ctx := 256, die := 0, flume := none, external := true, debug := false }
      match m.storePhys id pa (leNum (bs.take k)) k with
      | (.ok _, m) => m.bootStore (pa + k) (bs.drop k) n
      | (.wait, m) => (.waits, m.wakeFor pa)
      | (.fail _ _, m) => (.failed, m)

/-- R549: staging starts once field SRAM has passed its boot test, where BOOTCFG asks for one (log 173). -/
def Main.fsramTested (m : Main) : Bool :=
  bitsOf (m.otpWord 2) 4 1 == 0 || (!m.dredges.any (fun x => x.die == 0 && x.boot) && !m.flag (F.DREDGE_STAT_FAILED 0))

/-- An image of len bytes has been staged. -/
def Main.staged (m : Main) (b : BootSt) (len : Nat) : Main := { m with sec := { m.sec with boot := some { b with staged := some len } } }

/-- Stage an image (R546). One that is too long is not an image (R547). -/
def Main.stage (m : Main) (b : BootSt) (img : List Nat) : Main :=
  if imageMax < img.length then m.staged b img.length else (m.bootStore stageAt img img.length).2.staged b img.length

/-- BOOT_IMAGE_READ_DONE (R547): the image in the current slot of the medium has been read and staged. -/
def Main.bootRead (m : Main) (img : List Nat) : Main :=
  match m.booting with
  | some b => if b.src < 2 ∧ b.staged = none ∧ m.fsramTested = true then m.stage b img else m
  | none => m

/-- BOOT_IMAGE_READ_DONE. -/
def execBootImageReadDone (img : List Byte) (s : State) : Host.Outcome State Fault Refusal := s.onMain fun m => m.bootRead (bytesOf img)

/-- BOOT_IMAGE_RECEIVED (R545): the USB transfer has brought an image; or the host, which has written it where it is staged, has rung
DOORBELL 0, and TOTAL in its header gives its length. -/
def Main.bootReceived (m : Main) (img : Option (List Nat)) : Main :=
  match m.booting with
  | some b =>
    if b.staged ≠ none ∨ m.fsramTested = false then m
    else match b.src, img with
      | 2, none => m.staged b (m.peek (stageAt + 24) 8)
      | 3, some bs => m.stage b bs
      | _, _ => m
  | none => m

/-- BOOT_IMAGE_RECEIVED. -/
def execBootImageReceived (img : Option (List Byte)) (s : State) : Host.Outcome State Fault Refusal :=
  s.onMain fun m => m.bootReceived (img.map bytesOf)

/-- BOOT_TIMEOUT (R545): no image from the host or USB 60 s after BOOT began. -/
def Main.bootTimeout (m : Main) : Main :=
  match m.booting with
  | some b => if 2 ≤ b.src ∧ b.staged = none ∧ b.at_ + 60000000000 ≤ m.now then m.bootFail 7 else m
  | none => m

/-- BOOT_TIMEOUT. -/
def execBootTimeout (s : State) : Host.Outcome State Fault Refusal := s.onMain Main.bootTimeout

/-! ### The checks of an image (R546, R547) -/

/-- n bytes of an image from an offset. -/
def imgBytes (img : List Nat) (off n : Nat) : List Nat := (img.drop off).take n

/-- A little-endian field of an image. -/
def imgNum (img : List Nat) (off n : Nat) : Nat := leNum (imgBytes img off n)

/-- Every byte is zero. -/
def allZero (bs : List Nat) : Bool := bs.all (fun b => b == 0)

/-- A section of an image (R546). -/
structure Section where
  kind : Nat
  dest : Nat
  len : Nat
  off : Nat
  zero : Bool

/-- Section i. -/
def imgSection (img : List Nat) (i : Nat) : Section :=
  let o := 256 + 32 * i
  { kind := imgNum img o 1, dest := imgNum img (o + 8) 8, len := imgNum img (o + 16) 8, off := imgNum img (o + 24) 8,
    zero := allZero (imgBytes img (o + 1) 7) }

/-- The sections in order. -/
def imgSections (img : List Nat) : List Section := (List.range (imgNum img 6 2)).map (imgSection img)

/-- R547 step 1. -/
def imgForm (img : List Nat) : Bool :=
  let n := imgNum img 6 2
  imgNum img 0 4 == 0x4E4C4946 && imgNum img 4 2 == 1 && decide (1 ≤ n ∧ n ≤ 32) && imgNum img 24 8 == img.length &&
  decide (256 + 32 * n + 96 ≤ img.length) && decide (imgNum img 17 1 < 2) && allZero (imgBytes img 19 5) && allZero (imgBytes img 128 128) &&
  (imgSections img).all (fun x => x.zero && (x.kind != 4 || x.dest == 0) && decide (x.off + x.len ≤ img.length - 96))

/-- The hash of the signed bytes. -/
def imgHash (img : List Nat) : List Nat := sha384 (img.take (img.length - 96))

/-- R547: the first check that an image fails, as the code of SEC.BOOT.FAIL; 0 for none. -/
def Main.imgFails (m : Main) (img : List Nat) : Nat :=
  let xy := imgBytes img 32 96
  if !imgForm img then 2
  else if 4 ≤ imgNum img 18 1 ∨ m.keyOk (imgNum img 18 1) xy = false then 3
  else if !sigOk xy (imgHash img) (img.drop (img.length - 96)) then 4
  else if imgNum img 8 4 < ones 64 (m.otpWord 4) then 5
  else 0

/-! ### What an image brings (R548, R549) -/

/-- R549: a die that a section reaches is under its boot test, or has not yet joined. -/
def Main.dieWaits (m : Main) (d : Nat) : Bool :=
  m.pop d && (m.dredges.any (fun x => x.die == d && x.boot) || [5, 6].contains (m.dieState d))

/-- A physical address that a section reaches must wait: a die's test, its rejoining, or the test or training of DRAM. -/
def Main.paWaits (m : Main) (pa : Nat) : Bool :=
  match regionOf pa with
  | .scratch d _ _ _ | .regs d _ => m.dieWaits d
  | .dram d _ =>
    m.pop d && ((m.dieLive d && !m.flag (F.MEMCTL_STAT_READY d)) || [5, 6].contains (m.dieState d) ||
      m.dredges.any (fun x => x.dram && 6 + x.first / 2 ^ 20 == d) ||
      (m.dredges.any (fun x => x.boot && x.die == (if d = 6 then 1 else 3)) && bitsOf (m.otpWord 2) 5 1 == 1))
  | _ => false

/-- The 16-byte pairs of a payload. -/
def pairs16 (bs : List Nat) : List (Nat × Nat) :=
  (List.range (bs.length / 16)).map (fun i => (imgNum bs (16 * i) 8, imgNum bs (16 * i + 8) 8))

/-- R549: a section must wait. -/
def Main.sectionWaits (m : Main) (img : List Nat) (x : Section) : Bool :=
  match x.kind with
  | 1 => m.paWaits x.dest || m.paWaits (x.dest + (x.len - 1))
  | 2 => match locator x.dest with
    | some (d, _, _) => m.dieWaits d
    | none => false
  | 4 => (pairs16 (imgBytes img x.off x.len)).any (fun p => m.paWaits p.1)
  | _ => false

/-- KIND 1: bytes to field SRAM outside its first MiB, to scratch or to present DRAM. -/
def Main.secMem (m : Main) (x : Section) (bs : List Nat) : Applied × Main :=
  let n := Nat.max 1 x.len
  if (inFsram x.dest n && !reservedFsram x.dest) || m.inScratch x.dest n || m.inDram x.dest n then m.bootStore x.dest bs bs.length
  else (.failed, m)

/-- KIND 2: instruction memory slots. -/
def Main.secSlots (m : Main) (x : Section) (bs : List Nat) : Applied × Main :=
  match locator x.dest with
  | none => (.failed, m)
  | some (d, t, i) =>
    let recs := pairs16 bs
    if x.len % 16 ≠ 0 ∨ 32768 < i + recs.length ∨ m.compute d = false ∨ m.dieLive d = false ∨ recs.any (fun p => decide (3 < p.2)) = true then (.failed, m)
    else (.done, ((List.range recs.length).zip recs).foldl (fun m p =>
      m.setSlot (fin8 d) (fin8 t) (i + p.1) (slotKindOf p.2.2) (w64 p.2.1)) m)

/-- KIND 4: register writes, outside the SEC and OTP blocks. -/
def Main.secRegs (m : Main) : List (Nat × Nat) → Applied × Main
  | [] => (.done, m)
  | p :: rest =>
    let blk := p.1 / 2 ^ 24
    if isRegs p.1 = false ∨ p.1 % 8 ≠ 0 ∨ 2 ^ 40 ≤ p.1 ∨ blk = F.SEC_BOOT_SRC.pa / 2 ^ 24 ∨ blk = F.OTP_PROG_WORD.pa / 2 ^ 24 ∨
        m.regsReach p.1 = false then (.failed, m)
    else (m.spaceWrite true .ctx255 p.1 p.2).secRegs rest

/-- One section. A CTX section is written later (R548 step 3). -/
def Main.secApply (m : Main) (img : List Nat) (x : Section) : Applied × Main :=
  let bs := imgBytes img x.off x.len
  match x.kind with
  | 1 => m.secMem x bs
  | 2 => m.secSlots x bs
  | 3 => (if (x.dest = 0 ∨ x.dest = 255) ∧ 256 ≤ x.len ∧ x.len ≤ 2304 ∧ x.len % 8 = 0 then .done else .failed, m)
  | 4 => if x.len % 16 = 0 then m.secRegs (pairs16 bs) else (.failed, m)
  | _ => (.failed, m)

/-- R548 step 2, R549: the sections from number k in order, up to the first that fails or must wait, with the number of that one. -/
def Main.secAll (m : Main) (img : List Nat) (k : Nat) : List Section → Applied × Nat × Main
  | [] => (.done, k, m)
  | x :: rest =>
    if m.sectionWaits img x then (.waits, k, m)
    else match m.secApply img x with
      | (.done, m) => m.secAll img (k + 1) rest
      | (r, m) => (r, k, m)

/-- R548 step 3: the descriptor of a context, without STATE, and its placement entries, as the boot block writes registers (R46). -/
def Main.secCtx (m : Main) (img : List Nat) (x : Section) : Main :=
  let c := x.dest
  let bs := imgBytes img x.off x.len
  let m := (List.range 31).foldl (fun m k =>
    let pa := (F.CTXTAB_STATE_RUN c).pa + 8 * (k + 1)
    match m.regAt pa with
    | some a => m.regWrite true .ctx255 a pa (imgNum bs (8 * (k + 1)) 8)
    | none => m) m
  ((List.range ((x.len - 256) / 8)).foldl (fun m k => m.placeAccept (256 * c + k) (imgNum bs (256 + 8 * k) 8)) m).placeDone

/-- R521: the initial mode that an image names. -/
def initMode (n : Nat) : Nat := if n = 2 ∨ n = 4 ∨ n = 8 then n else 3

/-- R548, R549: an image that has passed every check is applied, from section k. It goes on later where a section has to wait (log 258). -/
def Main.bootApply (m : Main) (b : BootSt) (img : List Nat) (k : Nat) : Main :=
  match m.secAll img k ((imgSections img).drop k) with
  | (.failed, _, m) => m.bootFail 6
  | (.waits, k, m) => { m with sec := { m.sec with boot := some { b with apply := some (img, k) } } }
  | (.done, _, m) =>
    let m := ((imgSections img).filter (fun x => x.kind == 3)).foldl (fun m x => m.secCtx img x) m
    let m := (m.set (F.CTXTAB_STATE_RUN 0) 1).set (F.CTXTAB_STATE_RUN 255) 1
    let svn := imgNum img 8 4
    let m := if imgNum img 17 1 = 1 then m.otpFuse 4 (2 ^ svn - 1) else m
    let m := (m.set F.SEC_BOOT_SVN svn).set F.SEC_BOOT_VERSION (imgNum img 12 4)
    ({ m with sec := { m.sec with boot := none } } : Main).modeChange (m.modeBack (initMode (imgNum img 16 1))) 1

/-- R545: a candidate has failed: the other slot is tried, or the boot fails. -/
def Main.bootNext (m : Main) (b : BootSt) (code : Nat) : Main :=
  let m := m.set F.SEC_BOOT_BFAILED 1
  match b.slots with
  | _ :: s :: rest => { m.set F.SEC_BOOT_SLOT s with sec := { m.sec with boot := some { b with slots := s :: rest, staged := none, apply := none } } }
  | _ => m.bootFail code

/-- The staged image: none where it has no header or is too long, or cannot be read. -/
def Main.stagedImage (m : Main) (len : Nat) : Option (List Nat) := if 256 ≤ len ∧ len ≤ imageMax then m.secBytes stageAt len else none

/-- BOOT_VERIFY_DONE (R547, R548): the staged image is judged, measured and applied. Where a section has had to wait (R549), it goes on there. -/
def Main.bootVerify (m : Main) : Main :=
  match m.booting with
  | none => m
  | some b => match b.apply, b.staged with
    | some (img, k), _ => m.bootApply b img k
    | none, none => m
    | none, some len => match m.stagedImage len with
      | none => m.bootNext b 2
      | some img =>
        let code := m.imgFails img
        if code ≠ 0 then m.bootNext b code
        else ((m.putHash F.SEC_MEAS_HASH (imgHash img)).putHash F.SEC_GMEAS_HASH []).bootApply b img 0

/-- BOOT_VERIFY_DONE. -/
def execBootVerifyDone (s : State) : Host.Outcome State Fault Refusal := s.onMain Main.bootVerify

end Sys2Proof.Machine
end

