-- ==== Sys2Proof/Machine/Deadlock.lean ====
section
/-! DEFINITION. The deadlock detector (R243 to R245). -/

namespace Sys2Proof.Machine

/-- R243: a firing of the context is ready, or waits for a divider queue. -/
def Main.readyNow (m : Main) (c : BitVec 8) : Bool :=
  m.tok.ready.any (fun f => f.ctx == c) || m.tuft.divs.any (fun d => d.queue.any (fun f => f.ctx == c))

/-- R244: DLTMO in effect; 0 disables the detector. -/
def Main.dltmo (m : Main) (c : Nat) : Nat :=
  let t := m.get (F.CTXTAB_SCHED_DLTMO c)
  if t = 0 then 0 else Nat.max 10 (Nat.min 1000000 t)

/-- R245: a declaration. -/
def Main.declare (m : Main) (c : Nat) : Main :=
  let n := Nat.min (2 ^ 24 - 1) (m.waitCount c)
  let m := ((m.set (F.CTXTAB_DLSTAT_DECLARED c) 1).bump (F.CTXTAB_DLSTAT_COUNT c)).set (F.CTXTAB_DLSTAT_WAITSNAP c) n
  let m := (m.set (F.CTXTAB_DLSTAT_QUIET c) 0).raiseSrc 26 0 0 c
  match m.get (F.CTXTAB_SCHED_DLACT c) with
  | 1 => m.runChange c 2
  | 2 => m.breakCtx c causeDeadlock 0
  | _ =>
    if m.flag (F.CTXTAB_SCHED_DLHND c) && m.flag (F.CTXTAB_HANDLER_EN c) then
      m.faultOnly { ctx := c, code := fcDeadlock, detail := n % 2 ^ 16, object := 0, frame := 0, side := false, ia := 0, die := 0,
                    tuft := 0 }
    else m

/-- R243, R244: the tick of one context. The observations start again with the moment at which the tick ends. -/
def Main.tickCtx (m : Main) (c : BitVec 8) : Main :=
  let n := c.toNat
  let t := (m.observe c).tickOf c
  let busy := t.fired || m.readyNow c
  let held := !t.noWait && !busy && !t.weir && !t.sluice && !t.flume
  let quiet := if m.run n = 1 ∧ held = true then satAdd 20 (m.get (F.CTXTAB_DLSTAT_QUIET n)) 1 else 0
  let m := ((m.set (F.CTXTAB_DLSTAT_QUIET n) quiet).set (F.CTXTAB_DLSTAT_WAIT n) (b2n t.waits)).set (F.CTXTAB_DLSTAT_BUSY n) (b2n busy)
  let m := ((m.set (F.CTXTAB_DLSTAT_WEIR n) (b2n t.weir)).set (F.CTXTAB_DLSTAT_SLWAIT n) (b2n t.sluice)).set (F.CTXTAB_DLSTAT_FLPEND n)
    (b2n t.flume)
  let m := (m.note { TickFlags.zero c with start := some (m.waitNow n) }).observe c
  if m.dltmo n ≠ 0 ∧ m.dltmo n ≤ quiet then m.declare n else m

/-- DEADLOCK_TICK (R243): the 1 µs tick, for every context that is not FREE. -/
def Main.deadlockTick (m : Main) : Main :=
  (List.range 256).foldl (fun m c => if m.run c = 0 then m else m.tickCtx (BitVec.ofNat 8 c)) m

/-- DEADLOCK_TICK. -/
def execDeadlockTick (s : State) : Host.Outcome State Fault Refusal := s.onMain Main.deadlockTick

end Sys2Proof.Machine
end

