-- ==== Sys2Proof/Machine/Epoch.lean ====
section
/-! DEFINITION. FP epochs: FBAR, EPOCH_REPORT and FBAR_RESULT (R183 to R186). -/

namespace Sys2Proof.Machine

/-- The tufts that report an epoch of a side: those that hold a valid placement of it (R184), and those that have counted
something in it (log 28), as far as they can be reached (R35). -/
def Main.reporters (m : Main) (c : BitVec 8) (side : Bool) (e : Nat) : List Nat :=
  let placed := (List.range 256).filterMap fun b =>
    let p := m.place 0 c.toNat b
    if plValid p && (!side || plPaired p) then some (8 * plDie p side + plTuft p side) else none
  let counted := (m.tuft.epochs.filter (fun t => t.ctx == c && t.side == side && t.epoch == e)).map
    (fun t => 8 * t.die.val + t.tuft.val)
  ((placed ++ counted).eraseDups).filter (fun k => m.dieState (k / 8) != 2)

/-- R184, step 2: close the current epoch of a side for an FBAR, or hold the FBAR when three are closing. -/
def Main.closeEpoch (m : Main) (u : EpochUnit) (r : Ret) : Main :=
  if 3 ≤ u.closing.length then m.putUnit { u with waiting := u.waiting ++ [r] }
  else
    let k : Closing := { epoch := u.cur, fbar := r, flags := u.masks, traps := 0, ops := 0,
                         waitFor := m.reporters u.ctx u.side u.cur }
    m.putUnit { u with cur := (u.cur + 1) % 256, masks := 0, closing := u.closing ++ [k] }

/-- FBAR (R160, R184). -/
def execFbar (f : Firing) (s : State) : Host.Outcome State Fault Refusal :=
  s.onMain fun m => m.fire f .fbar fun m => (m.closeEpoch (m.unitOf f.ctx f.side) f.ret).rpDone f.replay 0

/-- An operation of an epoch is still in a divider or its queue in a tuft (R184, step 3). -/
def Main.undrained (m : Main) (die tuft : Fin 8) (c : BitVec 8) (side : Bool) (e : Nat) : Bool :=
  m.tuft.divs.any fun d => d.die == die && d.tuft == tuft &&
    (d.cur :: d.queue).any (fun f => f.ctx == c && f.epoch == some (side, e))

/-- EPOCH_REPORT (R184, step 3): a tuft reports the oldest closing epoch that still waits for it, once it has drained it. -/
def Main.epochReport (m : Main) (die tuft : Fin 8) (c : BitVec 8) (side : Bool) : Main :=
  let u := m.unitOf c side
  let key := 8 * die.val + tuft.val
  match u.closing.find? (fun k => k.waitFor.contains key) with
  | none => m
  | some k =>
    if m.undrained die tuft c side k.epoch then m
    else
      let isIt := fun (t : TuftEpoch) => t.die == die && t.tuft == tuft && t.ctx == c && t.side == side && t.epoch == k.epoch
      let mine := m.tuft.epochs.filter isIt
      let k' := { k with waitFor := k.waitFor.erase key,
                         flags := mine.foldl (fun a t => a ||| t.flags) k.flags,
                         ops := mine.foldl (fun a t => a + t.ops) k.ops,
                         traps := mine.foldl (fun a t => a + t.traps) k.traps }
      Main.putUnit { m with tuft := { m.tuft with epochs := m.tuft.epochs.filter (fun t => !isIt t) } }
        { u with closing := u.closing.map (fun x => if x = k then k' else x) }

/-- EPOCH_REPORT: the report of a tuft for a side of a context. -/
def execEpochReport (die tuft : Fin 8) (ctx : BitVec 8) (side : Bool) (s : State) : Host.Outcome State Fault Refusal :=
  s.onMain fun m => m.epochReport die tuft ctx side

/-- R185: the result of an FBAR. -/
def Closing.word (k : Closing) : Nat :=
  k.flags.toNat + k.epoch * 2 ^ 8 + Nat.min k.traps 0xFFFF * 2 ^ 16 + Nat.min k.ops 0xFFFFFFFF * 2 ^ 32

/-- FBAR_RESULT (R184, step 4): the oldest closing epoch of a side has every report and no open trap. A BROKEN context emits no
result (R186). The first waiting FBAR then closes the next epoch. -/
def Main.fbarResult (m : Main) (c : BitVec 8) (side : Bool) : Main :=
  let u := m.unitOf c side
  match u.closing with
  | [] => m
  | k :: ks =>
    if !k.waitFor.isEmpty || m.req.fpTraps.any (fun t => t.ctx == c && t.side == side && t.epoch == k.epoch) then m
    else
      let o := opnd tyInt k.word
      let m := if m.dead c.toNat then m else m.sendRet k.fbar (some o) (some o)
      match u.waiting with
      | [] => (m.putUnit { u with closing := ks }).observe c
      | r :: rs => m.closeEpoch { u with closing := ks, waiting := rs } r

/-- FBAR_RESULT: the epoch unit emits the result of a side's oldest closing epoch. -/
def execFbarResult (ctx : BitVec 8) (side : Bool) (s : State) : Host.Outcome State Fault Refusal :=
  s.onMain fun m => m.fbarResult ctx side

end Sys2Proof.Machine
end

