-- ==== Sys2Proof/Machine/FpArith.lean ====
section
/-! DEFINITION. Binary floating point (R169 to R182): values as exact sign, magnitude and exponent, one rounding step, and the
lane results of every operation of the class. A lane result carries its encoding, its flags and whether it is tiny (R175). -/

namespace Sys2Proof.Machine

/-! ### Formats and values -/

/-- A binary interchange format: exponent bits and fraction bits. -/
structure Fmt where
  ew : Nat
  fw : Nat
  deriving DecidableEq, Repr

/-- binary64. -/
def b64 : Fmt := { ew := 11, fw := 52 }
/-- binary32. -/
def b32 : Fmt := { ew := 8, fw := 23 }

/-- Exponent bias, which is also the largest exponent. -/
def Fmt.bias (k : Fmt) : Nat := 2 ^ (k.ew - 1) - 1
/-- Width of an encoding. -/
def Fmt.width (k : Fmt) : Nat := 1 + k.ew + k.fw
/-- The encoding of a sign. -/
def Fmt.signBit (k : Fmt) (s : Bool) : Nat := if s then 2 ^ (k.ew + k.fw) else 0
/-- The encoding of an infinity. -/
def Fmt.infBits (k : Fmt) (s : Bool) : Nat := k.signBit s + (2 ^ k.ew - 1) * 2 ^ k.fw
/-- The default NaN (R173). -/
def Fmt.defaultNan (k : Fmt) : Nat := (2 ^ k.ew - 1) * 2 ^ k.fw + 2 ^ (k.fw - 1)
/-- The largest finite value of a sign. -/
def Fmt.maxBits (k : Fmt) (s : Bool) : Nat := k.signBit s + (2 ^ k.ew - 2) * 2 ^ k.fw + (2 ^ k.fw - 1)
/-- The sign of an encoding. -/
def Fmt.signOf (k : Fmt) (x : Nat) : Bool := bitsOf x (k.ew + k.fw) 1 == 1
/-- The exponent field. -/
def Fmt.expOf (k : Fmt) (x : Nat) : Nat := bitsOf x k.fw k.ew
/-- The fraction field. -/
def Fmt.fracOf (k : Fmt) (x : Nat) : Nat := bitsOf x 0 k.fw
/-- A subnormal encoding. -/
def Fmt.isSub (k : Fmt) (x : Nat) : Bool := k.expOf x == 0 && k.fracOf x != 0
/-- A NaN. -/
def Fmt.isNan (k : Fmt) (x : Nat) : Bool := k.expOf x == 2 ^ k.ew - 1 && k.fracOf x != 0
/-- A signalling NaN. -/
def Fmt.isSnan (k : Fmt) (x : Nat) : Bool := k.isNan x && bitsOf x (k.fw - 1) 1 == 0
/-- An infinity. -/
def Fmt.isInf (k : Fmt) (x : Nat) : Bool := k.expOf x == 2 ^ k.ew - 1 && k.fracOf x == 0
/-- A zero. -/
def Fmt.isZero (k : Fmt) (x : Nat) : Bool := k.expOf x == 0 && k.fracOf x == 0
/-- A NaN made quiet. -/
def Fmt.quiet (k : Fmt) (x : Nat) : Nat := if bitsOf x (k.fw - 1) 1 = 0 then x + 2 ^ (k.fw - 1) else x
/-- A finite encoding as magnitude × 2^exponent. -/
def Fmt.mag (k : Fmt) (x : Nat) : Nat := if k.expOf x = 0 then k.fracOf x else 2 ^ k.fw + k.fracOf x
/-- The exponent that goes with mag. -/
def Fmt.exp (k : Fmt) (x : Nat) : Int := (Nat.max 1 (k.expOf x) : Nat) - (k.bias + k.fw : Nat)

/-- R177: a subnormal operand becomes a zero of its sign. -/
def Fmt.flush (k : Fmt) (x : Nat) : Nat := if k.isSub x then k.signBit (k.signOf x) else x

/-! ### Results of a lane -/

/-- A lane's encoding, its flags (R175), and whether the result is tiny (R175, R178). -/
structure FpOut where
  bits : Nat
  flags : Nat
  tiny : Bool
  deriving DecidableEq, Repr

/-- An exact or propagated result. -/
def FpOut.exact (x : Nat) : FpOut := { bits := x, flags := 0, tiny := false }

/-- An invalid operation without a NaN operand (R173). -/
def Fmt.invalid (k : Fmt) : FpOut := { bits := k.defaultNan, flags := flagNV, tiny := false }

/-- R170: whether a magnitude with remainder r of 2^n (n > 0) is rounded up. rm: 0 RNE, 1 RTZ, 2 RDN, 3 RUP, 4 RNA. -/
def roundUp (rm : Nat) (s odd : Bool) (r n : Nat) : Bool :=
  let half := 2 ^ (n - 1)
  match rm with
  | 0 => decide (half < r) || (r == half && odd)
  | 1 => false
  | 2 => s && r != 0
  | 3 => !s && r != 0
  | _ => decide (half ≤ r)

/-- The number of bits of a magnitude. -/
def bitLen (x : Nat) : Nat := if x = 0 then 0 else Nat.log2 x + 1

/-- A magnitude rounded to p bits: significand, exponent, inexact. -/
def roundSig (rm : Nat) (s : Bool) (p m : Nat) (e : Int) : Nat × Int × Bool :=
  let n := bitLen m
  if n ≤ p then (m * 2 ^ (p - n), e - (p - n : Nat), false)
  else
    let k := n - p
    let q := m / 2 ^ k
    let r := m % 2 ^ k
    let q' := if roundUp rm s (q % 2 == 1) r k then q + 1 else q
    if q' = 2 ^ p then (2 ^ (p - 1), e + k + 1, r != 0) else (q', e + k, r != 0)

/-- R175, R177: round a non-zero exact value (sign, m × 2^e) into a format. A tiny result is a zero with UF and NX. -/
def Fmt.round (k : Fmt) (rm : Nat) (s : Bool) (m : Nat) (e : Int) : FpOut :=
  let r := roundSig rm s (k.fw + 1) m e
  let ex := r.2.1 + (k.fw : Nat)
  if ex < 1 - (k.bias : Int) then { bits := k.signBit s, flags := flagUF + flagNX, tiny := true }
  else if (k.bias : Int) < ex then
    let toInf := match rm with
      | 0 => true
      | 1 => false
      | 2 => s
      | 3 => !s
      | _ => true
    { bits := if toInf then k.infBits s else k.maxBits s, flags := flagOF + flagNX, tiny := false }
  else
    { bits := k.signBit s + (ex + (k.bias : Int)).toNat * 2 ^ k.fw + (r.1 - 2 ^ k.fw),
      flags := if r.2.2 then flagNX else 0, tiny := false }

/-- The sign of an exact zero sum of values of signs a and b (IEEE 754-2019 as R181 shows it). -/
def zeroSign (rm : Nat) (a b : Bool) : Bool := if a = b then a else rm == 2

/-- The exact sum of two signed magnitudes, rounded. -/
def Fmt.sum (k : Fmt) (rm : Nat) (sa : Bool) (ma : Nat) (ea : Int) (sb : Bool) (mb : Nat) (eb : Int) : FpOut :=
  let e := if ea ≤ eb then ea else eb
  let va : Int := (ma * 2 ^ (ea - e).toNat : Nat)
  let vb : Int := (mb * 2 ^ (eb - e).toNat : Nat)
  let v := (if sa then -va else va) + (if sb then -vb else vb)
  if v = 0 then FpOut.exact (k.signBit (if ma = 0 ∧ mb = 0 then zeroSign rm sa sb else rm == 2))
  else k.round rm (decide (v < 0)) v.natAbs e

/-- R173: the NaN result of a list of operands: the first signalling one quieted, else the first quiet one. -/
def Fmt.pickNan (k : Fmt) (xs : List Nat) : Option FpOut :=
  match xs.find? k.isSnan with
  | some x => some { bits := k.quiet x, flags := flagNV, tiny := false }
  | none => (xs.find? k.isNan).map FpOut.exact

/-- The negation of an encoding. -/
def Fmt.neg (k : Fmt) (x : Nat) : Nat := if k.signOf x then x - k.signBit true else x + k.signBit true

/-! ### Arithmetic of a lane: operands are already flushed -/

/-- a + b; FSUB negates b after the NaN rule. -/
def Fmt.add (k : Fmt) (rm : Nat) (sub : Bool) (a b : Nat) : FpOut :=
  match k.pickNan [a, b] with
  | some r => r
  | none =>
    let b := if sub then k.neg b else b
    if k.isInf a then (if k.isInf b ∧ k.signOf a ≠ k.signOf b then k.invalid else FpOut.exact a)
    else if k.isInf b then FpOut.exact b
    else k.sum rm (k.signOf a) (k.mag a) (k.exp a) (k.signOf b) (k.mag b) (k.exp b)

/-- a × b. -/
def Fmt.mul (k : Fmt) (rm : Nat) (a b : Nat) : FpOut :=
  match k.pickNan [a, b] with
  | some r => r
  | none =>
    let s := k.signOf a != k.signOf b
    if (k.isInf a && k.isZero b) || (k.isZero a && k.isInf b) then k.invalid
    else if k.isInf a || k.isInf b then FpOut.exact (k.infBits s)
    else if k.isZero a || k.isZero b then FpOut.exact (k.signBit s)
    else k.round rm s (k.mag a * k.mag b) (k.exp a + k.exp b)

/-- a ÷ b: the quotient to enough bits, with the remainder kept as one more bit. -/
def Fmt.div (k : Fmt) (rm : Nat) (a b : Nat) : FpOut :=
  match k.pickNan [a, b] with
  | some r => r
  | none =>
    let s := k.signOf a != k.signOf b
    if (k.isInf a && k.isInf b) || (k.isZero a && k.isZero b) then k.invalid
    else if k.isInf a then FpOut.exact (k.infBits s)
    else if k.isInf b then FpOut.exact (k.signBit s)
    else if k.isZero b then { bits := k.infBits s, flags := flagDZ, tiny := false }
    else if k.isZero a then FpOut.exact (k.signBit s)
    else
      let sh := 2 * k.fw + 8
      let n := k.mag a * 2 ^ sh
      let d := k.mag b
      k.round rm s (2 * (n / d) + (if n % d = 0 then 0 else 1)) (k.exp a - k.exp b - sh - 1)

/-- The integer square root, bit by bit from bit n. -/
def isqrtAux (x : Nat) : Nat → Nat → Nat
  | 0, r => r
  | n + 1, r =>
    let r' := r + 2 ^ n
    isqrtAux x n (if r' * r' ≤ x then r' else r)

/-- √a. -/
def Fmt.sqrt (k : Fmt) (rm : Nat) (a : Nat) : FpOut :=
  match k.pickNan [a] with
  | some r => r
  | none =>
    if k.isZero a then FpOut.exact a
    else if k.signOf a then k.invalid
    else if k.isInf a then FpOut.exact a
    else
      let sh := 2 * k.fw + 8 + (k.exp a % 2).toNat
      let x := k.mag a * 2 ^ sh
      let r := isqrtAux x (2 * k.fw + 8) 0
      k.round rm false (2 * r + (if r * r = x then 0 else 1)) ((k.exp a - sh) / 2 - 1)

/-- a × b + c with one rounding: negP negates the product (FNMA), negC negates c (FMS). -/
def Fmt.fma (k : Fmt) (rm : Nat) (negP negC : Bool) (a b c : Nat) : FpOut :=
  let zi := (k.isInf a && k.isZero b) || (k.isZero a && k.isInf b)
  match k.pickNan [a, b, c] with
  | some r => { r with flags := if zi then flagNV else r.flags }
  | none =>
    let c := if negC then k.neg c else c
    let s := (k.signOf a != k.signOf b) != negP
    if zi then k.invalid
    else if k.isInf a || k.isInf b then
      (if k.isInf c ∧ k.signOf c ≠ s then k.invalid else FpOut.exact (k.infBits s))
    else if k.isInf c then FpOut.exact c
    else k.sum rm s (k.mag a * k.mag b) (k.exp a + k.exp b) (k.signOf c) (k.mag c) (k.exp c)

/-- The order key of an encoding that is no NaN: −0 below +0 (R173). -/
def Fmt.key (k : Fmt) (x : Nat) : Int :=
  let y := x % 2 ^ (k.ew + k.fw)
  if k.signOf x then -(y : Int) - 1 else y

/-- The value order of an encoding that is no NaN, with −0 equal to +0. -/
def Fmt.val (k : Fmt) (x : Nat) : Int :=
  let y := x % 2 ^ (k.ew + k.fw)
  if k.signOf x then -(y : Int) else y

/-- FMIN and FMAX (number true) and FMINM and FMAXM (R173); max tells which. -/
def Fmt.minmax (k : Fmt) (number max : Bool) (a b : Nat) : FpOut :=
  let nv := if k.isSnan a || k.isSnan b then flagNV else 0
  let one := number && (k.isNan a != k.isNan b)
  if one then { bits := if k.isNan a then b else a, flags := nv, tiny := false }
  else match k.pickNan [a, b] with
    | some r => r
    | none => FpOut.exact (if decide (k.key a < k.key b) != max then a else b)

/-- The comparisons (R171, R174): 0 equal, 1 less, 2 less or equal, 3 unordered. The truth stands in bit 0. -/
def Fmt.cmp (k : Fmt) (op a b : Nat) : FpOut :=
  let un := k.isNan a || k.isNan b
  let nv := if un && (op == 1 || op == 2 || k.isSnan a || k.isSnan b) then flagNV else 0
  let t := match op with
    | 0 => !un && decide (k.val a = k.val b)
    | 1 => !un && decide (k.val a < k.val b)
    | 2 => !un && decide (k.val a ≤ k.val b)
    | _ => un
  { bits := b2n t, flags := nv, tiny := false }

/-- A magnitude m × 2^e rounded to an integer: the integer and whether it is inexact. -/
def roundInt (rm : Nat) (s : Bool) (m : Nat) (e : Int) : Nat × Bool :=
  if 0 ≤ e then (m * 2 ^ e.toNat, false)
  else
    let n := (-e).toNat
    let q := m / 2 ^ n
    let r := m % 2 ^ n
    (if roundUp rm s (q % 2 == 1) r n then q + 1 else q, r != 0)

/-- FCVTDI (R172): into w bits, unsigned when u. -/
def Fmt.toInt (k : Fmt) (rm w : Nat) (u : Bool) (a : Nat) : FpOut :=
  let big := if u then 2 ^ w - 1 else 2 ^ (w - 1) - 1
  let small := if u then 0 else 2 ^ (w - 1)
  if k.isNan a then { bits := big, flags := flagNV, tiny := false }
  else if k.isInf a then { bits := if k.signOf a then small else big, flags := flagNV, tiny := false }
  else
    let r := roundInt rm (k.signOf a) (k.mag a) (k.exp a)
    let v : Int := if k.signOf a then -(r.1 : Int) else r.1
    if v < intMinOf w u then { bits := small, flags := flagNV, tiny := false }
    else if intMaxOf w u < v then { bits := big, flags := flagNV, tiny := false }
    else { bits := uns w v, flags := if r.2 then flagNX else 0, tiny := false }
where
  /-- The least integer of w bits. -/
  intMinOf (w : Nat) (u : Bool) : Int := if u then 0 else -(2 ^ (w - 1) : Nat)
  /-- The greatest integer of w bits. -/
  intMaxOf (w : Nat) (u : Bool) : Int := if u then (2 ^ w : Nat) - 1 else (2 ^ (w - 1) : Nat) - 1

/-- FCVTID (R172): from w bits, unsigned when u. -/
def Fmt.ofInt (k : Fmt) (rm w : Nat) (u : Bool) (x : Nat) : FpOut :=
  let v : Int := if u then (x % 2 ^ w : Nat) else sgn w x
  if v = 0 then FpOut.exact 0 else k.round rm (decide (v < 0)) v.natAbs 0

/-- FRINT (R172): nx tells whether a change sets NX. -/
def Fmt.rint (k : Fmt) (rm : Nat) (nx : Bool) (a : Nat) : FpOut :=
  match k.pickNan [a] with
  | some r => r
  | none =>
    if k.isInf a || k.isZero a then FpOut.exact a
    else
      let r := roundInt rm (k.signOf a) (k.mag a) (k.exp a)
      let fl := if r.2 && nx then flagNX else 0
      if r.1 = 0 then { bits := k.signBit (k.signOf a), flags := fl, tiny := false }
      else { (k.round rm (k.signOf a) r.1 0) with flags := fl }

/-- FCVTDS (R172, R173): one binary64 value to a binary32 lane. -/
def cvtNarrow (rm a : Nat) : FpOut :=
  if b64.isNan a then
    { bits := b32.quiet (b32.signBit (b64.signOf a) + 255 * 2 ^ 23 + bitsOf a 29 22),
      flags := if b64.isSnan a then flagNV else 0, tiny := false }
  else if b64.isInf a then FpOut.exact (b32.infBits (b64.signOf a))
  else if b64.isZero a then FpOut.exact (b32.signBit (b64.signOf a))
  else b32.round rm (b64.signOf a) (b64.mag a) (b64.exp a)

/-- FCVTSD (R172, R173): a binary32 lane to binary64. -/
def cvtWiden (a : Nat) : FpOut :=
  if b32.isNan a then
    { bits := b64.quiet (b64.signBit (b32.signOf a) + 2047 * 2 ^ 52 + bitsOf a 0 22 * 2 ^ 29),
      flags := if b32.isSnan a then flagNV else 0, tiny := false }
  else if b32.isInf a then FpOut.exact (b64.infBits (b32.signOf a))
  else if b32.isZero a then FpOut.exact (b64.signBit (b32.signOf a))
  else b64.round 0 (b32.signOf a) (b32.mag a) (b32.exp a)

/-- FCLASS (R174): the class bit of an encoding. -/
def Fmt.classOf (k : Fmt) (a : Nat) : Nat :=
  let s := k.signOf a
  let i :=
    if k.isSnan a then 8
    else if k.isNan a then 9
    else if k.isInf a then (if s then 0 else 7)
    else if k.isZero a then (if s then 3 else 4)
    else if k.isSub a then (if s then 2 else 5)
    else (if s then 1 else 6)
  2 ^ i

end Sys2Proof.Machine
end

