-- ==== Sys2Proof/Machine/IntOps.lean ====
section
/-! DEFINITION. Integer, logical, shift, compare and bit operations (R114 to R121, R164, R165) and the dividers (R118, R166). -/

namespace Sys2Proof.Machine

/-! ### Pure results -/

/-- What an integer operation computes: the values for DEST0 and DEST1, their TYPE, and the flags IOV and IDZ (R116). -/
structure IntOut where
  v0 : Word
  v1 : Word
  typ : BitVec 4
  iov : Bool
  idz : Bool
  deriving DecidableEq, Repr

/-- The same INT64 value to both destinations, no flag. -/
def IntOut.plain (v : Word) : IntOut := { v0 := v, v1 := v, typ := tyInt, iov := false, idz := false }

/-- R116: the W-bit minimum and maximum. -/
def intMin (w : Nat) (sx : Bool) : Int := if sx then -(2 ^ (w - 1) : Nat) else 0
def intMax (w : Nat) (sx : Bool) : Int := if sx then (2 ^ (w - 1) : Nat) - 1 else (2 ^ w : Nat) - 1

/-- R117: an exact result is not representable in W bits. -/
def intOver (w : Nat) (sx : Bool) (r : Int) : Bool := decide (r < intMin w sx) || decide (intMax w sx < r)

/-- R116: the W-bit bound that is nearer to an exact result outside the W-bit range. -/
def intBound (w : Nat) (sx : Bool) (r : Int) : Int := if r < intMin w sx then intMin w sx else intMax w sx

/-- R116, R117: narrow an exact result; with SAT an overflow gives the nearer bound. -/
def narrow (w : Nat) (sx sat : Bool) (r : Int) : IntOut :=
  let o := intOver w sx r
  { IntOut.plain (extInt w sx (if o && sat then intBound w sx r else r)) with iov := o }

/-- R115, R116: ADD or SUB of a PTR at W = 64: bits [63:48] follow bit 47, and IOV is set if that changed the value. With SAT a result with IOV
is the bound, from below where the exact result is negative (log 199). -/
def ptrNarrow (sx sat : Bool) (r : Int) : IntOut :=
  let x : Word := BitVec.ofInt 64 r
  let v := w64 (canonOf x.toNat)
  let o := intOver 64 sx r || v != x
  let y := if o && sat then BitVec.ofInt 64 (if r < 0 then intMin 64 sx else intMax 64 sx) else v
  { v0 := y, v1 := y, typ := tyPtr, iov := o, idz := false }

/-- The result of ADD and SUB, with the pointer rule (R115 to R117). -/
def addSub (w : Nat) (sx sat : Bool) (l r : Opnd) (x : Int) : IntOut :=
  if w = 64 ∧ l.typ = tyPtr ∧ r.typ ≠ tyPtr then ptrNarrow sx sat x else narrow w sx sat x

/-- R115: AND, OR, XOR and ANDN of two BOOL operands give BOOL. -/
def logic (w : Nat) (sx : Bool) (l r : Opnd) (v : BitVec 64) : IntOut :=
  { IntOut.plain (extInt w sx v.toNat) with typ := if l.typ = tyBool ∧ r.typ = tyBool then tyBool else tyInt }

/-- R115: NOT of a BOOL inverts bit 0 and clears the rest. -/
def logicNot (w : Nat) (sx : Bool) (l : Opnd) : IntOut :=
  if l.typ = tyBool then { IntOut.plain (if l.value.getLsbD 0 then 0 else 1) with typ := tyBool }
  else IntOut.plain (extInt w sx (~~~l.value).toNat)

/-- A comparison gives BOOL (R115). -/
def cmpOut (b : Bool) : IntOut := { IntOut.plain (w64 (b2n b)) with typ := tyBool }

/-- R119: the shift count. -/
def shiftCount (r : Opnd) : Nat := bitsOf r.value.toNat 0 6

/-- R119: SHL. -/
def shlBits (w a s : Nat) : Nat := if w ≤ s then 0 else a * 2 ^ s % 2 ^ w
/-- R119: SHR. -/
def shrBits (w a s : Nat) : Nat := if w ≤ s then 0 else a / 2 ^ s
/-- R119: SAR. -/
def sarInt (w a s : Nat) : Int := sgn w a / (2 ^ Nat.min s (w - 1) : Nat)
/-- R119: ROL. -/
def rolBits (w a s : Nat) : Nat := (a * 2 ^ (s % w) + a / 2 ^ (w - s % w)) % 2 ^ w
/-- R119: ROR. -/
def rorBits (w a s : Nat) : Nat := (a / 2 ^ (s % w) + a * 2 ^ (w - s % w)) % 2 ^ w

/-- The number of leading zeros of a in w bits (R117). -/
def clzBits (a : Nat) : Nat → Nat
  | 0 => 0
  | w + 1 => if a / 2 ^ w % 2 = 1 then 0 else 1 + clzBits a w

/-- The number of trailing zeros of a in w bits (R117). -/
def ctzBits (a : Nat) : Nat → Nat
  | 0 => 0
  | w + 1 => if a % 2 = 1 then 0 else 1 + ctzBits (a / 2) w

/-- The number of ones of a in w bits. -/
def popBits (a : Nat) : Nat → Nat
  | 0 => 0
  | w + 1 => a % 2 + popBits (a / 2) w

/-- The low n digits of a to a base, in reverse order. -/
def revDigits (base a : Nat) : Nat → Nat
  | 0 => 0
  | n + 1 => a % base * base ^ n + revDigits base (a / base) n

/-- R120: pos and len of a bit-field operand, or none where BAD_OPERAND is raised. -/
def bitField (r : Opnd) : Option (Nat × Nat) :=
  let x := r.value.toNat
  let len := bitsOf x 8 7
  if bitsOf x 6 2 ≠ 0 ∨ bitsOf x 15 49 ≠ 0 ∨ 64 < len then none else some (bitsOf x 0 6, len)

/-- R120: BEXT. -/
def bextBits (sx : Bool) (a pos len : Nat) : Word :=
  if len = 0 then 0
  else
    let fld := a / 2 ^ pos % 2 ^ len
    if sx then BitVec.ofInt 64 (sgn len fld) else w64 fld

/-- R120: BINS. -/
def binsBits (a third pos len : Nat) : Word :=
  let mask : Word := w64 ((2 ^ len - 1) * 2 ^ pos)
  (w64 a &&& ~~~mask) ||| (w64 (third * 2 ^ pos) &&& mask)

/-- R117: quotient and remainder of the divide group. -/
def divOut (w : Nat) (sx : Bool) (a b : Nat) : IntOut :=
  let x := readInt w sx a
  let y := readInt w sx b
  if y = 0 then { IntOut.plain 0 with v1 := extInt w sx x, idz := true }
  else if sx ∧ x = intMin w true ∧ y = -1 then { IntOut.plain (extInt w sx x) with v1 := 0, iov := true }
  else { IntOut.plain (extInt w sx (Int.tdiv x y)) with v1 := extInt w sx (Int.tmod x y) }

/-- The left or single operand in W bits, as an integer (R114). -/
def Firing.a (f : Firing) : Int := readInt f.w f.sx f.left.value.toNat

/-- The right operand in W bits, as an integer (R114). -/
def Firing.b (f : Firing) : Int := readInt f.w f.sx f.right.value.toNat

/-- The left or single operand in W bits, unsigned. -/
def Firing.ua (f : Firing) : Nat := f.left.value.toNat % 2 ^ f.w

/-- FLAGS[1], SAT (R116). -/
def Firing.sat (f : Firing) : Bool := f.i.flags.getLsbD 1

/-- FLAGS[0], TRAP (R116). -/
def Firing.trap (f : Firing) : Bool := f.i.flags.getLsbD 0

/-! ### Completion -/

/-- R116: an integer operation completes. Its flags go to the sticky word; with TRAP an operation that sets one parks its
operands and emits no result. -/
def Main.intDone (m : Main) (f : Firing) (o : IntOut) : Main :=
  let m := if o.iov then m.stickIov f.ctx.toNat else m
  let m := if o.idz then m.stickIdz f.ctx.toNat else m
  if f.trap && o.idz then m.parkOp f fcIntDivzero f.i.opc.toNat 0
  else if f.trap && o.iov then m.parkOp f fcIntOverflow f.i.opc.toNat 0
  else m.result f (some { value := o.v0, typ := o.typ }) (some { value := o.v1, typ := o.typ })

/-- ADD. -/
def execAdd (f : Firing) (s : State) : Host.Outcome State Fault Refusal :=
  s.onMain fun m => m.fire f .add fun m => m.intDone f (addSub f.w f.sx f.sat f.left f.right (f.a + f.b))

/-- SUB. -/
def execSub (f : Firing) (s : State) : Host.Outcome State Fault Refusal :=
  s.onMain fun m => m.fire f .sub fun m => m.intDone f (addSub f.w f.sx f.sat f.left f.right (f.a - f.b))

/-- NEG. -/
def execNeg (f : Firing) (s : State) : Host.Outcome State Fault Refusal :=
  s.onMain fun m => m.fire f .neg fun m => m.intDone f (narrow f.w f.sx f.sat (0 - f.a))

/-- ABS. -/
def execAbs (f : Firing) (s : State) : Host.Outcome State Fault Refusal :=
  s.onMain fun m => m.fire f .abs fun m => m.intDone f (narrow f.w f.sx f.sat f.a.natAbs)

/-- MUL: the low W bits of the product (R164). -/
def execMul (f : Firing) (s : State) : Host.Outcome State Fault Refusal :=
  s.onMain fun m => m.fire f .mul fun m => m.intDone f (narrow f.w f.sx f.sat (f.a * f.b))

/-- MULH: the high W bits of the product (R164). -/
def execMulh (f : Firing) (s : State) : Host.Outcome State Fault Refusal :=
  s.onMain fun m => m.fire f .mulh fun m => m.intDone f (IntOut.plain (extInt f.w f.sx (f.a * f.b / (2 ^ f.w : Nat))))

/-- MULX: the low half to DEST0, the high half to DEST1 (R164). -/
def execMulx (f : Firing) (s : State) : Host.Outcome State Fault Refusal :=
  s.onMain fun m => m.fire f .mulx fun m => m.intDone f
    { IntOut.plain (extInt f.w f.sx (f.a * f.b)) with v1 := extInt f.w f.sx (f.a * f.b / (2 ^ f.w : Nat)) }

/-- MIN. -/
def execMin (f : Firing) (s : State) : Host.Outcome State Fault Refusal :=
  s.onMain fun m => m.fire f .min fun m => m.intDone f (IntOut.plain (extInt f.w f.sx (if f.a ≤ f.b then f.a else f.b)))

/-- MAX. -/
def execMax (f : Firing) (s : State) : Host.Outcome State Fault Refusal :=
  s.onMain fun m => m.fire f .max fun m => m.intDone f (IntOut.plain (extInt f.w f.sx (if f.a ≤ f.b then f.b else f.a)))

/-- EXT. -/
def execExt (f : Firing) (s : State) : Host.Outcome State Fault Refusal :=
  s.onMain fun m => m.fire f .ext fun m => m.intDone f (IntOut.plain (extInt f.w f.sx f.a))

/-- AND. -/
def execAnd (f : Firing) (s : State) : Host.Outcome State Fault Refusal :=
  s.onMain fun m => m.fire f .and fun m => m.intDone f (logic f.w f.sx f.left f.right (f.left.value &&& f.right.value))

/-- OR. -/
def execOr (f : Firing) (s : State) : Host.Outcome State Fault Refusal :=
  s.onMain fun m => m.fire f .or fun m => m.intDone f (logic f.w f.sx f.left f.right (f.left.value ||| f.right.value))

/-- XOR. -/
def execXor (f : Firing) (s : State) : Host.Outcome State Fault Refusal :=
  s.onMain fun m => m.fire f .xor fun m => m.intDone f (logic f.w f.sx f.left f.right (f.left.value ^^^ f.right.value))

/-- ANDN. -/
def execAndn (f : Firing) (s : State) : Host.Outcome State Fault Refusal :=
  s.onMain fun m => m.fire f .andn fun m => m.intDone f (logic f.w f.sx f.left f.right (f.left.value &&& ~~~f.right.value))

/-- NOT. -/
def execNot (f : Firing) (s : State) : Host.Outcome State Fault Refusal :=
  s.onMain fun m => m.fire f .not fun m => m.intDone f (logicNot f.w f.sx f.left)

/-- SHL. -/
def execShl (f : Firing) (s : State) : Host.Outcome State Fault Refusal :=
  s.onMain fun m => m.fire f .shl fun m =>
    m.intDone f (IntOut.plain (extInt f.w f.sx (shlBits f.w f.ua (shiftCount f.right))))

/-- SHR. -/
def execShr (f : Firing) (s : State) : Host.Outcome State Fault Refusal :=
  s.onMain fun m => m.fire f .shr fun m =>
    m.intDone f (IntOut.plain (extInt f.w f.sx (shrBits f.w f.ua (shiftCount f.right))))

/-- SAR. -/
def execSar (f : Firing) (s : State) : Host.Outcome State Fault Refusal :=
  s.onMain fun m => m.fire f .sar fun m =>
    m.intDone f (IntOut.plain (extInt f.w f.sx (sarInt f.w f.ua (shiftCount f.right))))

/-- ROL. -/
def execRol (f : Firing) (s : State) : Host.Outcome State Fault Refusal :=
  s.onMain fun m => m.fire f .rol fun m =>
    m.intDone f (IntOut.plain (extInt f.w f.sx (rolBits f.w f.ua (shiftCount f.right))))

/-- ROR. -/
def execRor (f : Firing) (s : State) : Host.Outcome State Fault Refusal :=
  s.onMain fun m => m.fire f .ror fun m =>
    m.intDone f (IntOut.plain (extInt f.w f.sx (rorBits f.w f.ua (shiftCount f.right))))

/-- CMPEQ. -/
def execCmpeq (f : Firing) (s : State) : Host.Outcome State Fault Refusal :=
  s.onMain fun m => m.fire f .cmpeq fun m => m.intDone f (cmpOut (decide (f.a = f.b)))

/-- CMPNE. -/
def execCmpne (f : Firing) (s : State) : Host.Outcome State Fault Refusal :=
  s.onMain fun m => m.fire f .cmpne fun m => m.intDone f (cmpOut (decide (f.a ≠ f.b)))

/-- CMPLT. -/
def execCmplt (f : Firing) (s : State) : Host.Outcome State Fault Refusal :=
  s.onMain fun m => m.fire f .cmplt fun m => m.intDone f (cmpOut (decide (f.a < f.b)))

/-- CMPLE. -/
def execCmple (f : Firing) (s : State) : Host.Outcome State Fault Refusal :=
  s.onMain fun m => m.fire f .cmple fun m => m.intDone f (cmpOut (decide (f.a ≤ f.b)))

/-- CMPGT. -/
def execCmpgt (f : Firing) (s : State) : Host.Outcome State Fault Refusal :=
  s.onMain fun m => m.fire f .cmpgt fun m => m.intDone f (cmpOut (decide (f.b < f.a)))

/-- CMPGE. -/
def execCmpge (f : Firing) (s : State) : Host.Outcome State Fault Refusal :=
  s.onMain fun m => m.fire f .cmpge fun m => m.intDone f (cmpOut (decide (f.b ≤ f.a)))

/-- CLZ. -/
def execClz (f : Firing) (s : State) : Host.Outcome State Fault Refusal :=
  s.onMain fun m => m.fire f .clz fun m => m.intDone f (IntOut.plain (w64 (clzBits f.ua f.w)))

/-- CTZ. -/
def execCtz (f : Firing) (s : State) : Host.Outcome State Fault Refusal :=
  s.onMain fun m => m.fire f .ctz fun m => m.intDone f (IntOut.plain (w64 (ctzBits f.ua f.w)))

/-- POPC. -/
def execPopc (f : Firing) (s : State) : Host.Outcome State Fault Refusal :=
  s.onMain fun m => m.fire f .popc fun m => m.intDone f (IntOut.plain (w64 (popBits f.ua f.w)))

/-- BSWAP. -/
def execBswap (f : Firing) (s : State) : Host.Outcome State Fault Refusal :=
  s.onMain fun m => m.fire f .bswap fun m =>
    m.intDone f (IntOut.plain (extInt f.w f.sx (revDigits 256 f.ua (f.w / 8))))

/-- BREV. -/
def execBrev (f : Firing) (s : State) : Host.Outcome State Fault Refusal :=
  s.onMain fun m => m.fire f .brev fun m => m.intDone f (IntOut.plain (extInt f.w f.sx (revDigits 2 f.ua f.w)))

/-- BEXT. -/
def execBext (f : Firing) (s : State) : Host.Outcome State Fault Refusal :=
  s.onMain fun m => m.fire f .bext fun m =>
    match bitField f.right with
    | none => m.badOperand f 1
    | some p => m.intDone f (IntOut.plain (bextBits f.sx f.left.value.toNat p.1 p.2))

/-- BINS. -/
def execBins (f : Firing) (s : State) : Host.Outcome State Fault Refusal :=
  s.onMain fun m => m.fire f .bins fun m =>
    match bitField f.right with
    | none => m.badOperand f 1
    | some p => m.intDone f (IntOut.plain (binsBits f.left.value.toNat f.third.value.toNat p.1 p.2))

/-! ### The dividers -/

/-- Insert a divide behind those of the same or a higher PRIO (R118, R242). -/
def prioInsert (f : Firing) : List Firing → List Firing
  | [] => [f]
  | g :: gs => if g.prio < f.prio then f :: g :: gs else g :: prioInsert f gs

/-- Put a divider's record in place of the old one. -/
def Main.putDiv (m : Main) (old : Divider) (new : List Divider) : Main :=
  { m with tuft := { m.tuft with divs := m.tuft.divs.erase old ++ new } }

/-- R118: a divide firing goes to the divider of its PE pair: it starts at once (R191), or waits in the queue. -/
def Main.divide (m : Main) (f : Firing) (pair : Fin 4) : Main :=
  match m.tuft.divs.find? (fun d => d.die == f.die && d.tuft == f.tuft && d.pair == pair) with
  | none =>
    let d : Divider := { die := f.die, tuft := f.tuft, pair := pair, cur := f, queue := [] }
    Main.bump { m with tuft := { m.tuft with divs := m.tuft.divs ++ [d] } } (F.TUFT_DIVSTAT_DIVS f.die.val f.tuft.val)
  | some d => m.putDiv d [{ d with queue := prioInsert f d.queue }]

/-- DIV: a divide firing, with the PE pair that takes it. -/
def execDiv (f : Firing) (pair : Fin 4) (s : State) : Host.Outcome State Fault Refusal :=
  s.onMain fun m => m.fireDiv f .div pair fun m => m.divide f pair

/-- REM: a divide firing, with the PE pair that takes it. -/
def execRem (f : Firing) (pair : Fin 4) (s : State) : Host.Outcome State Fault Refusal :=
  s.onMain fun m => m.fireDiv f .rem pair fun m => m.divide f pair

/-- DIVREM: a divide firing, with the PE pair that takes it. -/
def execDivrem (f : Firing) (pair : Fin 4) (s : State) : Host.Outcome State Fault Refusal :=
  s.onMain fun m => m.fireDiv f .divrem pair fun m => m.divide f pair

/-- A completed integer divide (R117, R166). -/
def Main.intDivDone (m : Main) (f : Firing) : Main :=
  let o := divOut f.w f.sx f.left.value.toNat f.right.value.toNat
  match f.op with
  | some .div => m.intDone f { o with v1 := o.v0 }
  | some .rem => m.intDone f { o with v0 := o.v1 }
  | _ => m.intDone f o

end Sys2Proof.Machine
end

