-- ==== Sys2Proof/Machine/FpOps.lean ====
section
/-! DEFINITION. The floating-point operations (R169 to R182), FDIV and FSQRT at the dividers (R118, R168), and DIVIDER_COMPLETE. -/

namespace Sys2Proof.Machine

/-! ### Lanes -/

/-- FLAGS[0], S: binary32 × 2 (R169). -/
def Firing.fs (f : Firing) : Bool := f.i.flags.getLsbD 0

/-- FLAGS[1] of the conversions and FRINT (R172). -/
def Firing.fu (f : Firing) : Bool := f.i.flags.getLsbD 1

/-- Operand number i of a firing: left or single, right, third (R171). -/
def Firing.opn (f : Firing) (i : Nat) : Nat :=
  match i with
  | 0 => f.left.value.toNat
  | 1 => f.right.value.toNat
  | _ => f.third.value.toNat

/-- What a lane comes to: its result and whether an operand was subnormal (R177, R178). -/
structure Lane where
  out : FpOut
  subin : Bool
  deriving DecidableEq, Repr

/-- Run a lane: n operands x i, each flushed when it is subnormal (R177). -/
def runLane (k : Fmt) (n : Nat) (x : Nat → Nat) (g : (Nat → Nat) → FpOut) : Lane :=
  { out := g (fun i => k.flush (x i)), subin := (List.range n).any (fun i => k.isSub (x i)) }

/-- The lanes of a firing in the format that S selects (R169). -/
def Firing.lanes (f : Firing) (n : Nat) (g : Fmt → (Nat → Nat) → FpOut) : List Lane :=
  if f.fs then [runLane b32 n (fun i => bitsOf (f.opn i) 0 32) (g b32), runLane b32 n (fun i => bitsOf (f.opn i) 32 32) (g b32)]
  else [runLane b64 n f.opn (g b64)]

/-- The result of lane i. -/
def laneBits (ls : List Lane) (i : Nat) : Nat :=
  match ls[i]? with
  | some l => l.out.bits
  | none => 0

/-- The packed result of the lanes, in the format of the firing (R169). -/
def Firing.pack (f : Firing) (ls : List Lane) : Opnd :=
  if f.fs then opnd tyFp32 (laneBits ls 0 + laneBits ls 1 * 2 ^ 32) else opnd tyFp64 (laneBits ls 0)

/-- The rounding direction of a firing (R170). -/
def Main.rmOf (m : Main) (f : Firing) : Nat := m.fpRounding f f.i.mode31

/-- The flags of an operation: the OR of its lanes, and DI when an operand was flushed (R175, R177). -/
def lanesFlags (ls : List Lane) : Nat :=
  ls.foldl (fun acc l => acc ||| l.out.flags ||| (if l.subin then flagDI else 0)) 0

/-- R178: the detail of an FP_SUBNORMAL trap, or none when no lane traps. -/
def trapDetail (ls : List Lane) (rm opc : Nat) : Option Nat :=
  let tin := fun (l : Lane) => l.subin
  let tout := fun (l : Lane) => !l.subin && l.out.tiny
  let hit := fun (i : Nat) => match ls[i]? with
    | some l => tin l || tout l
    | none => false
  if ls.any (fun l => tin l || tout l) then
    some (b2n (ls.any tin) + 2 * b2n (ls.any tout) + 4 * b2n (hit 0) + 8 * b2n (hit 1) + 16 * rm + 256 * (opc % 256))
  else none

/-- R178: the operation traps: its operands are parked with FP_SUBNORMAL, and the trap stays open until its handle is resolved. -/
def Main.fpTrap (m : Main) (f : Firing) (detail : Nat) : Main :=
  let e := m.epochOf f
  let r := m.park (f.info fcFpSubnormal detail 0)
    (.operation { f with replay := none, way := false, pass := false, epoch := some e, ctl := none }) false
  let m := r.2.addEpoch f.die f.tuft f.ctx e.1 e.2 0 0 1
  let m := if r.1 = 0 then m else
    let t : FpTrap := { handle := r.1, die := f.die, tuft := f.tuft, ctx := f.ctx, side := e.1, epoch := e.2 }
    { m with req := { m.req with fpTraps := m.req.fpTraps ++ [t] } }
  m.rpDone f.replay 2

/-- An FP operation completes: it traps (R178), or its flags are recorded (R176, R177) and its results leave. -/
def Main.fpDone (m : Main) (f : Firing) (ls : List Lane) (o0 o1 : Opnd) : Main :=
  match (if m.fpTrapMode f then trapDetail ls (m.rmOf f) f.i.opc.toNat else none) with
  | some d => m.fpTrap f d
  | none => (m.fpFlags f (lanesFlags ls)).result f (some o0) (some o1)

/-- An operation that rounds or compares numbers in each lane (R171). -/
def Main.fpOp (m : Main) (f : Firing) (n : Nat) (g : Fmt → (Nat → Nat) → FpOut) : Main :=
  let ls := f.lanes n g
  (m.countFp f).fpDone f ls (f.pack ls) (f.pack ls)

/-- An operation on the bits alone (R174): no flush, no trap, no flag. -/
def Main.fpBits (m : Main) (f : Firing) (g : Fmt → (Nat → Nat) → Nat) (int : Bool) : Main :=
  let v := if f.fs then
      g b32 (fun i => bitsOf (f.opn i) 0 32) + g b32 (fun i => bitsOf (f.opn i) 32 32) * 2 ^ 32
    else g b64 f.opn
  let t := if int then tyInt else if f.fs then tyFp32 else tyFp64
  (m.countFp f).both f (opnd t v)

/-- A comparison (R174): BOOL, or a mask of each lane. -/
def Main.fpCmp (m : Main) (f : Firing) (op : Nat) : Main :=
  let ls := f.lanes 2 (fun k x => k.cmp op (x 0) (x 1))
  let full := fun b => if b = 1 then 2 ^ 32 - 1 else 0
  let o := if f.fs then opnd tyInt (full (laneBits ls 0) + full (laneBits ls 1) * 2 ^ 32)
           else opnd tyBool (laneBits ls 0)
  (m.countFp f).fpDone f ls o o

/-- FADD (R171): a + b. -/
def execFadd (f : Firing) (s : State) : Host.Outcome State Fault Refusal :=
  s.onMain fun m => m.fire f .fadd fun m => m.fpOp f 2 fun k x => k.add (m.rmOf f) false (x 0) (x 1)

/-- FSUB (R171): a − b. -/
def execFsub (f : Firing) (s : State) : Host.Outcome State Fault Refusal :=
  s.onMain fun m => m.fire f .fsub fun m => m.fpOp f 2 fun k x => k.add (m.rmOf f) true (x 0) (x 1)

/-- FMUL (R171): a × b. -/
def execFmul (f : Firing) (s : State) : Host.Outcome State Fault Refusal :=
  s.onMain fun m => m.fire f .fmul fun m => m.fpOp f 2 fun k x => k.mul (m.rmOf f) (x 0) (x 1)

/-- FMA (R171): a × b + c. -/
def execFma (f : Firing) (s : State) : Host.Outcome State Fault Refusal :=
  s.onMain fun m => m.fire f .fma fun m => m.fpOp f 3 fun k x => k.fma (m.rmOf f) false false (x 0) (x 1) (x 2)

/-- FMS (R171): a × b − c. -/
def execFms (f : Firing) (s : State) : Host.Outcome State Fault Refusal :=
  s.onMain fun m => m.fire f .fms fun m => m.fpOp f 3 fun k x => k.fma (m.rmOf f) false true (x 0) (x 1) (x 2)

/-- FNMA (R171): −(a × b) + c. -/
def execFnma (f : Firing) (s : State) : Host.Outcome State Fault Refusal :=
  s.onMain fun m => m.fire f .fnma fun m => m.fpOp f 3 fun k x => k.fma (m.rmOf f) true false (x 0) (x 1) (x 2)

/-- FMIN (R171): minimumNumber. -/
def execFmin (f : Firing) (s : State) : Host.Outcome State Fault Refusal :=
  s.onMain fun m => m.fire f .fmin fun m => m.fpOp f 2 fun k x => k.minmax true false (x 0) (x 1)

/-- FMAX (R171): maximumNumber. -/
def execFmax (f : Firing) (s : State) : Host.Outcome State Fault Refusal :=
  s.onMain fun m => m.fire f .fmax fun m => m.fpOp f 2 fun k x => k.minmax true true (x 0) (x 1)

/-- FMINM (R171): minimum. -/
def execFminm (f : Firing) (s : State) : Host.Outcome State Fault Refusal :=
  s.onMain fun m => m.fire f .fminm fun m => m.fpOp f 2 fun k x => k.minmax false false (x 0) (x 1)

/-- FMAXM (R171): maximum. -/
def execFmaxm (f : Firing) (s : State) : Host.Outcome State Fault Refusal :=
  s.onMain fun m => m.fire f .fmaxm fun m => m.fpOp f 2 fun k x => k.minmax false true (x 0) (x 1)

/-- FNEG (R174): the sign inverted. -/
def execFneg (f : Firing) (s : State) : Host.Outcome State Fault Refusal :=
  s.onMain fun m => m.fire f .fneg fun m => m.fpBits f (fun k x => k.neg (x 0)) false

/-- FABS (R174): the sign cleared. -/
def execFabs (f : Firing) (s : State) : Host.Outcome State Fault Refusal :=
  s.onMain fun m => m.fire f .fabs fun m => m.fpBits f (fun k x => x 0 % 2 ^ (k.ew + k.fw)) false

/-- FCPYS (R174): the magnitude of a with the sign of b. -/
def execFcpys (f : Firing) (s : State) : Host.Outcome State Fault Refusal :=
  s.onMain fun m => m.fire f .fcpys fun m =>
    m.fpBits f (fun k x => x 0 % 2 ^ (k.ew + k.fw) + k.signBit (k.signOf (x 1))) false

/-- FCMPEQ (R171). -/
def execFcmpeq (f : Firing) (s : State) : Host.Outcome State Fault Refusal :=
  s.onMain fun m => m.fire f .fcmpeq fun m => m.fpCmp f 0

/-- FCMPLT (R171). -/
def execFcmplt (f : Firing) (s : State) : Host.Outcome State Fault Refusal :=
  s.onMain fun m => m.fire f .fcmplt fun m => m.fpCmp f 1

/-- FCMPLE (R171). -/
def execFcmple (f : Firing) (s : State) : Host.Outcome State Fault Refusal :=
  s.onMain fun m => m.fire f .fcmple fun m => m.fpCmp f 2

/-- FCMPUN (R171). -/
def execFcmpun (f : Firing) (s : State) : Host.Outcome State Fault Refusal :=
  s.onMain fun m => m.fire f .fcmpun fun m => m.fpCmp f 3

/-- FCVTDS (R171, R172): a into lane 0, b into lane 1. -/
def execFcvtds (f : Firing) (s : State) : Host.Outcome State Fault Refusal :=
  s.onMain fun m => m.fire f .fcvtds fun m =>
    let rm := m.rmOf f
    let ls := [runLane b64 1 (fun _ => f.opn 0) (fun x => cvtNarrow rm (x 0)),
               runLane b64 1 (fun _ => f.opn 1) (fun x => cvtNarrow rm (x 0))]
    let o := opnd tyFp32 (laneBits ls 0 + laneBits ls 1 * 2 ^ 32)
    (m.countFp f).fpDone f ls o o

/-- FCVTSD (R171, R172): lane 0 to DEST0, lane 1 to DEST1. -/
def execFcvtsd (f : Firing) (s : State) : Host.Outcome State Fault Refusal :=
  s.onMain fun m => m.fire f .fcvtsd fun m =>
    let ls := [runLane b32 1 (fun _ => bitsOf (f.opn 0) 0 32) (fun x => cvtWiden (x 0)),
               runLane b32 1 (fun _ => bitsOf (f.opn 0) 32 32) (fun x => cvtWiden (x 0))]
    (m.countFp f).fpDone f ls (opnd tyFp64 (laneBits ls 0)) (opnd tyFp64 (laneBits ls 1))

/-- FCVTID (R172): the operand is an integer, so no lane has a subnormal operand. -/
def execFcvtid (f : Firing) (s : State) : Host.Outcome State Fault Refusal :=
  s.onMain fun m => m.fire f .fcvtid fun m =>
    let rm := m.rmOf f
    let one := fun (o : FpOut) => ({ out := o, subin := false } : Lane)
    let ls := if f.fs then [one (b32.ofInt rm 32 f.fu (bitsOf (f.opn 0) 0 32)), one (b32.ofInt rm 32 f.fu (bitsOf (f.opn 0) 32 32))]
              else [one (b64.ofInt rm 64 f.fu (f.opn 0))]
    (m.countFp f).fpDone f ls (f.pack ls) (f.pack ls)

/-- FCVTDI (R172): TYPE INT64. -/
def execFcvtdi (f : Firing) (s : State) : Host.Outcome State Fault Refusal :=
  s.onMain fun m => m.fire f .fcvtdi fun m =>
    let ls := f.lanes 1 (fun k x => k.toInt (m.rmOf f) (if f.fs then 32 else 64) f.fu (x 0))
    let o := opnd tyInt (if f.fs then laneBits ls 0 + laneBits ls 1 * 2 ^ 32 else laneBits ls 0)
    (m.countFp f).fpDone f ls o o

/-- FRINT (R172). -/
def execFrint (f : Firing) (s : State) : Host.Outcome State Fault Refusal :=
  s.onMain fun m => m.fire f .frint fun m => m.fpOp f 1 fun k x => k.rint (m.rmOf f) f.fu (x 0)

/-- FCLASS (R174). -/
def execFclass (f : Firing) (s : State) : Host.Outcome State Fault Refusal :=
  s.onMain fun m => m.fire f .fclass fun m => m.fpBits f (fun k x => k.classOf (x 0)) true

/-- R180: a mask goes into the epoch of a trapped operation: one that is closing, or the current one. One that has been discarded has none (R186). -/
def Main.epochMask (m : Main) (t : FpTrap) (mask : Nat) : Main :=
  let u := m.unitOf t.ctx t.side
  let x := BitVec.ofNat 6 mask
  if u.closing.any (fun k => k.epoch == t.epoch) then
    m.putUnit { u with closing := u.closing.map (fun k => if k.epoch == t.epoch then { k with flags := k.flags ||| x } else k) }
  else if t.epoch = u.cur then m.putUnit { u with masks := u.masks ||| x }
  else m

/-- FSETF (R180): record a mask for a trapped operation whose handle the context may use (R157). -/
def execFsetf (f : Firing) (s : State) : Host.Outcome State Fault Refusal :=
  s.onMain fun m => m.fire f .fsetf fun m =>
    let h : BitVec 32 := f.left.value.extractLsb' 16 32
    let mask := bitsOf f.right.value.toNat 0 6
    match m.req.fpTraps.find? (fun t => t.handle == h && (t.ctx == f.ctx || f.ctx == 0)) with
    | some t => ((m.stick t.ctx.toNat mask).epochMask t mask).both f (opBool true)
    | none => m.both f (opBool false)

/-! ### The dividers -/

/-- An FP divide goes to its divider. It is counted in the epoch of its firing (R183) and keeps the FPCTL with which it fired (R189). -/
def Main.fpDivide (m : Main) (f : Firing) (pair : Fin 4) : Main :=
  let m := m.countFp f
  m.divide { f with epoch := some (m.epochOf f), ctl := some (m.fpctl f) } pair

/-- FDIV: an FP divide firing, with the PE pair that takes it. -/
def execFdiv (f : Firing) (pair : Fin 4) (s : State) : Host.Outcome State Fault Refusal :=
  s.onMain fun m => m.fireDiv f .fdiv pair fun m => m.fpDivide f pair

/-- FSQRT: a square-root firing, with the PE pair that takes it. -/
def execFsqrt (f : Firing) (pair : Fin 4) (s : State) : Host.Outcome State Fault Refusal :=
  s.onMain fun m => m.fireDiv f .fsqrt pair fun m => m.fpDivide f pair

/-- The result of a completed divide (R166 to R168). -/
def Main.divDone (m : Main) (f : Firing) : Main :=
  let rm := m.rmOf f
  match f.op with
  | some .fdiv =>
    let ls := f.lanes 2 (fun k x => k.div rm (x 0) (x 1))
    m.fpDone f ls (f.pack ls) (f.pack ls)
  | some .fsqrt =>
    let ls := f.lanes 1 (fun k x => k.sqrt rm (x 0))
    m.fpDone f ls (f.pack ls) (f.pack ls)
  | _ => m.intDivDone f

/-- DIVIDER_COMPLETE (R118): the divide in progress completes and the next one of the queue starts. -/
def Main.dividerComplete (m : Main) (die tuft : Fin 8) (pair : Fin 4) : Main :=
  match m.tuft.divs.find? (fun d => d.die == die && d.tuft == tuft && d.pair == pair) with
  | none => m
  | some d =>
    match d.queue with
    | [] => (m.putDiv d []).divDone d.cur
    | g :: gs => ((m.putDiv d [{ d with cur := g, queue := gs }]).bump (F.TUFT_DIVSTAT_DIVS die.val tuft.val)).divDone d.cur

/-- DIVIDER_COMPLETE: the divider of a PE pair finishes. -/
def execDividerComplete (die tuft : Fin 8) (pair : Fin 4) (s : State) : Host.Outcome State Fault Refusal :=
  s.onMain fun m => m.dividerComplete die tuft pair

end Sys2Proof.Machine
end

