-- ==== Sys2Proof/Machine/LoopCall.lean ====
section
/-! DEFINITION. Tags, loops and calls (R98 to R113) over the activation records of a tuft. -/

namespace Sys2Proof.Machine

/-- FRAMEVAL of a frame (R101). -/
def frameVal (fr : BitVec 24) : Opnd := opControl (2 + fr.toNat * 256)

/-- The frame {c, 0x000} of record c (R103, R109). -/
def recFrame (c : Nat) : BitVec 24 := BitVec.ofNat 24 (c * 4096)

/-- Records in use in a tuft (LCOCC.INUSE, R122). -/
def Main.recsOf (m : Main) (die tuft : Fin 8) : List LoopRec := m.tuft.recs.filter (fun r => r.die == die && r.tuft == tuft)

/-- R98: the lowest-numbered free record of a tuft. -/
def Main.freeRec (m : Main) (die tuft : Fin 8) : Option Nat :=
  let used := (m.recsOf die tuft).map (fun r => r.idx)
  if used.length ≥ 4095 then none else firstFree used (used.length + 1) 1

/-- A fresh record for a firing (R98). -/
def newRec (f : Firing) (idx : Nat) (call : Bool) : LoopRec :=
  { die := f.die, tuft := f.tuft, idx := idx, call := call, side := f.side, ctx := f.ctx,
    block := f.ia.extractLsb' 12 8, k := 0, credits := 0, xcnt := 0, xdone := 0, ended := false, remain := 0, link := 0,
    outer := 0, held := none }

/-- Allocate a record (R98): park with LOOP_NOREC when none is free (R122 counts that). -/
def Main.allocRec (m : Main) (f : Firing) (call : Bool) (fill : LoopRec → LoopRec) (then_ : Main → Nat → Main) : Main :=
  match m.freeRec f.die f.tuft with
  | none => (m.bump (F.TUFT_LCOCC_NOREC f.die.val f.tuft.val)).parkOp f fcLoopNorec 0 0
  | some c =>
    let m := { m with tuft := { m.tuft with recs := m.tuft.recs ++ [fill (newRec f c call)] } }
    then_ (m.peak (F.TUFT_LCOCC_PEAK f.die.val f.tuft.val) (m.recsOf f.die f.tuft).length) c

/-- Put a record's new content in place of the old, or free it (R107, R110). -/
def Main.putRec (m : Main) (old new : LoopRec) : Main :=
  let done := if new.call then new.xdone == new.xcnt else new.ended && new.credits == new.k && new.xdone == new.xcnt
  { m with tuft := { m.tuft with
      recs := if done then m.tuft.recs.erase old else m.tuft.recs.map (fun r => if r = old then new else r) } }

/-- The index FRAME[23:12] (R99). -/
def Firing.recIdx (f : Firing) : Nat := (f.frame.extractLsb' 12 12).toNat

/-- R99: find the record of a record operation; park with LOOP_STALE when a check fails. -/
def Main.withRec (m : Main) (f : Firing) (call : Bool) (k : Main → LoopRec → Main) : Main :=
  match (m.recsOf f.die f.tuft).find? (fun r => r.idx == f.recIdx && r.call == call && r.ctx == f.ctx &&
      r.block == f.ia.extractLsb' 12 8 && (m.sole f.ctx.toNat || r.side == f.side)) with
  | some r => k m r
  | none => m.parkOp f fcLoopStale f.recIdx 0

/-- LOOP_ORDER (R104 to R106, R110). -/
def Main.loopOrder (m : Main) (f : Firing) : Main := m.parkOp f fcLoopOrder f.recIdx 0

/-- RETAG (R102). -/
def execRetag (f : Firing) (s : State) : Host.Outcome State Fault Refusal :=
  s.onMain fun m => m.fire f .retag fun m =>
    let go := fun (fr : BitVec 24) =>
      ((m.also f fr f.i.dest0 f.left).also f fr f.i.dest1 f.left).rpDone f.replay 0
    if f.right.isControl 2 then go (f.right.value.extractLsb' 8 24)
    else if f.right.typ = tyInt then go (f.right.value.extractLsb' 0 24)
    else m.badOperand f 1

/-- LOOPENTER (R103). -/
def execLoopenter (f : Firing) (s : State) : Host.Outcome State Fault Refusal :=
  s.onMain fun m => m.fire f .loopenter fun m =>
    let r := f.right.value.toNat
    let k := bitsOf r 0 13
    let n := f.left.value.toInt
    if k = 0 ∨ 4096 < k ∨ bitsOf r 13 3 ≠ 0 ∨ bitsOf r 21 43 ≠ 0 then m.parkOp f fcLoopBadarg 0 0
    else if n ≤ 0 then m.result f (some (opBool false)) none
    else m.allocRec f false
      (fun rec_ => { rec_ with k := k, credits := k - 1, xcnt := bitsOf r 16 5, outer := f.frame,
                               remain := Nat.min n.toNat (2 ^ 48) - 1 })
      (fun m c => m.result f (some (opBool true)) (some (frameVal (recFrame c))))

/-- LOOPNEXT (R104). -/
def execLoopnext (f : Firing) (s : State) : Host.Outcome State Fault Refusal :=
  s.onMain fun m => m.fire f .loopnext fun m => m.withRec f false fun m r =>
    if r.held.isSome || r.ended then m.loopOrder f
    else if !(f.right.truth && decide (0 < r.remain)) then
      (m.putRec r { r with ended := true }).both f (opBool false)
    else if 0 < r.credits then
      (m.putRec r { r with credits := r.credits - 1, remain := r.remain - 1 }).both f (opBool true)
    else m.putRec r { r with held := some f }

/-- LOOPDONE (R105): returns a credit, which a held LOOPNEXT takes at once (R104). -/
def execLoopdone (f : Firing) (s : State) : Host.Outcome State Fault Refusal :=
  s.onMain fun m => m.fire f .loopdone fun m => m.withRec f false fun m r =>
    if r.credits = r.k then m.loopOrder f
    else match r.held with
      | some h => ((m.putRec r { r with held := none, remain := r.remain - 1 }).both f f.left).both h (opBool true)
      | none => (m.putRec r { r with credits := r.credits + 1 }).both f f.left

/-- LOOPEXIT (R106). -/
def execLoopexit (f : Firing) (s : State) : Host.Outcome State Fault Refusal :=
  s.onMain fun m => m.fire f .loopexit fun m => m.withRec f false fun m r =>
    if r.xdone = r.xcnt then m.loopOrder f
    else
      (((m.putRec r { r with xdone := r.xdone + 1 }).also f r.outer f.i.dest0 f.left).also f f.frame f.i.dest1 f.left).rpDone
        f.replay 0

/-- LINK (R108). -/
def execLink (f : Firing) (s : State) : Host.Outcome State Fault Refusal :=
  s.onMain fun m => m.fire f .link fun m =>
    let r := f.right.value.toNat
    if bitsOf r 22 42 ≠ 0 then m.badOperand f 1
    else m.both f (opControl (1 + bitsOf r 0 22 * 2 ^ 8 + f.frame.toNat * 2 ^ 30))

/-- FRAMEGET (R109). -/
def execFrameget (f : Firing) (s : State) : Host.Outcome State Fault Refusal :=
  s.onMain fun m => m.fire f .frameget fun m =>
    let r := f.right.value.toNat
    if !f.left.isControl 1 then m.badOperand f 0
    else if r = 0 ∨ 31 < r then m.parkOp f fcLoopBadarg 0 0
    else m.allocRec f true (fun rec_ => { rec_ with xcnt := r, link := f.left.value.extractLsb' 0 54 })
      (fun m c =>
        let l := f.left.value
        let v := frameVal (recFrame c)
        let base : BitVec 20 := l.extractLsb' 8 20
        let port : BitVec 2 := l.extractLsb' 28 2
        ((((m.also f (l.extractLsb' 30 24) (base ++ port) v).also f (recFrame c) f.i.dest0 v).also f (recFrame c)
          f.i.dest1 v)).rpDone f.replay 0)

/-- RETURN (R110). -/
def execReturn (f : Firing) (s : State) : Host.Outcome State Fault Refusal :=
  s.onMain fun m => m.fire f .return_ fun m => m.withRec f true fun m r =>
    if r.xdone = r.xcnt then m.loopOrder f
    else
      let off : BitVec 20 := (f.i.dest0.extractLsb' 2 12).setWidth 20
      let base : BitVec 20 := r.link.extractLsb' 8 20
      let port : BitVec 2 := f.i.dest0.extractLsb' 0 2
      (((m.putRec r { r with xdone := r.xdone + 1 }).also f (r.link.extractLsb' 30 24) ((base + off) ++ port) f.left).also f
        f.frame f.i.dest1 f.left).rpDone f.replay 0

/-- FRAMEOF (R100). -/
def execFrameof (f : Firing) (s : State) : Host.Outcome State Fault Refusal :=
  s.onMain fun m => m.fire f .frameof fun m => m.both f (frameVal f.frame)

end Sys2Proof.Machine
end

