-- ==== Sys2Proof/Machine/Replay.lean ====
section
/-! DEFINITION. Resolving park handles (R157, R158, R357 to R361), RAISE and SIGNAL (R159). -/

namespace Sys2Proof.Machine

/-- What a replay finds at the place that the current placement names (R360): the firing with the instruction that its IA holds
now, or the fault that it meets. -/
inductive Again
  | ready (f : Firing) (ports : List (BitVec 2)) (opc : Nat)
  | fault (code detail : Nat)

/-- The ports whose operands a parked operation holds, when its instruction accepts ports (R60, R352). -/
def presOf (ports : List (BitVec 2)) : BitVec 3 :=
  BitVec.ofNat 3 (b2n (ports.contains 0 || ports.contains 2) + 2 * b2n (ports.contains 1) + 4 * b2n (ports.contains 3))

/-- R360: the instruction of a parked operation, fetched again. -/
def Main.again (m : Main) (p : Firing) (ecc : Ecc) : Again :=
  let blk := (p.ia.extractLsb' 12 8).toNat
  let e := m.place 0 p.ctx.toNat blk
  let side := p.side && !m.sole p.ctx.toNat
  let d := plDie e side
  if !plValid e || m.dieState d = 0 then .fault fcNoPlacement blk
  else match m.dieState d with
    | 1 | 3 =>
      let die := fin8 d
      let tuft := fin8 (plTuft e side)
      match m.fetch die tuft (plSlot e side) p.ia with
      | .badTarget k => .fault fcBadTarget k
      | .badInstr opc => .fault fcBadInstr opc
      | .ok r word lit conts =>
        if ecc = .uncorrectable then .fault fcImemEcc 0
        else .ready { p with die := die, tuft := tuft, side := side, word := word, lit := lit, conts := conts,
                             right := match lit with
                               | some l => { value := l, typ := tyInt }
                               | none => p.right } (portsOf r (IWord.ofWord word)) r.opc
    | 2 => .fault fcDieIsolated d
    | _ => .fault fcDieDormant d

/-- R360: a replay that meets a fault: the operands are parked again, and the resolving operation answers REFAULTED. An
isolated die parks nothing (R35). -/
def Main.refault (m : Main) (p : Firing) (code detail : Nat) : Main :=
  let m := if code = fcImemEcc then m.raiseSrc 9 p.die.val p.die.val p.tuft.val else m
  if code = fcDieIsolated then m.opFault p code detail 0 else m.parkOp p code detail 0

/-- REPLAY of an OPERATION slot (R158, R360): it is ready again, or meets its fault. -/
def Main.replayOp (m : Main) (p : Firing) (r : Replay) (ecc : Ecc) : Main :=
  match m.again p ecc with
  | .fault c d => m.refault { p with replay := some r } c d
  | .ready f ports opc =>
    if presOf ports ≠ f.pres then m.refault { p with replay := some r } fcBadPort (opc * 4)
    else m.addReady { f with replay := some r }

/-- REPLAY (R157, R158, R359). -/
def Main.replay (m : Main) (f : Firing) (ecc : Ecc) : Main :=
  let h := f.left.handle
  match m.slotOf f.ctx.toNat h with
  | none => m.badHandle f h
  | some p =>
    let r : Replay := { handle := h, by_ := f.ret, code := p.code }
    match p.work with
    | .flume _ _ => m.badHandle f h
    | .token t => (m.unpark p).send { t with replay := some r }
    | .operation g => (m.unpark p).replayOp g r ecc

/-- REPLAY: parked work is tried again. ecc is what the instruction fetch finds. -/
def execReplay (f : Firing) (ecc : Ecc) (s : State) : Host.Outcome State Fault Refusal :=
  s.onMain fun m => m.fireReq f .replay fun m => m.replay f ecc

/-- REPLAYV and REPLAYV2 (R158, R212, R359, R360): parked work is completed with v0 for DEST0 and v1 for DEST1. -/
def Main.replayWith (m : Main) (f : Firing) (v0 v1 : Opnd) (ecc : Ecc) : Main :=
  let h := f.left.handle
  match m.slotOf f.ctx.toNat h with
  | none => m.badHandle f h
  | some p =>
    match p.work with
    | .flume _ _ => m.badHandle f h
    | .token t => ((m.unpark p).send { t with value := v0.value, typ := v0.typ, wsel := 0, stamp := 0 }).both f (rpstat 0 h)
    | .operation g =>
      let r : Replay := { handle := h, by_ := f.ret, value := some (v0, v1) }
      let m := m.unpark p
      match m.again g ecc with
      | .fault c d => m.refault { g with replay := some r } c d
      | .ready g _ _ =>
        if m.run g.ctx.toNat = 2 then m.addReady { g with replay := some r }
        else m.supply { g with replay := some r } (v0, v1)

/-- REPLAYV: the right operand goes to DEST0 and DEST1. -/
def execReplayv (f : Firing) (ecc : Ecc) (s : State) : Host.Outcome State Fault Refusal :=
  s.onMain fun m => m.fireReq f .replayv fun m => m.replayWith f f.right f.right ecc

/-- REPLAYV2: the right operand goes to DEST0, the third to DEST1. -/
def execReplayv2 (f : Firing) (ecc : Ecc) (s : State) : Host.Outcome State Fault Refusal :=
  s.onMain fun m => m.fireReq f .replayv2 fun m => m.replayWith f f.right f.third ecc

/-- PARKDROP (R158, R359). An effect-once request then counts as answered, with no result, for both copies (R127; log 191). -/
def Main.parkdrop (m : Main) (f : Firing) : Main :=
  let h := f.left.handle
  match m.slotOf f.ctx.toNat h with
  | none => m.badHandle f h
  | some p =>
    let m := match p.work with
      | .flume d i =>
        match m.flume d.val i with
        | some x => m.flCancel x
        | none => m.unpark p
      | .operation g => (((m.unpark p).dropTrap h).reply { g.ret with once := true } none none)
      | .token _ => (m.unpark p).dropTrap h
    m.both f (rpstat 3 h)

/-- PARKDROP: parked work is discarded. -/
def execParkdrop (f : Firing) (s : State) : Host.Outcome State Fault Refusal :=
  s.onMain fun m => m.fireReq f .parkdrop fun m => m.parkdrop f

/-- RAISE (R159, R349): a software fault of the firing's own context, without a handle. The code must lie in the software
range. -/
def execRaise (f : Firing) (s : State) : Host.Outcome State Fault Refusal :=
  s.onMain fun m => m.fire f .raise fun m =>
    let code := f.right.value.toNat % 2 ^ 16
    if code < 0x8000 then m.badOperand f 1
    else (m.faultOnly (f.info code (f.left.value.toNat % 2 ^ 16) 0)).rpDone f.replay 0

/-- SIGNAL (R159): a doorbell event. -/
def execSignal (f : Firing) (s : State) : Host.Outcome State Fault Refusal :=
  s.onMain fun m => m.fireReq f .signal fun m =>
    let d := f.right.value.toNat
    if 32 ≤ d then m.badOperand f 1
    else m.once f fun m => (m.event (992 + d) (f.left.value.toNat % 2 ^ 32)).answerBoth f (opBool true)

end Sys2Proof.Machine
end

