-- ==== Sys2Proof/Machine/Routing.lean ====
section
/-! DEFINITION. The commands of routing, matching and the soakaway (Tokens.lean): TOKEN_ROUTE, TOKEN_MATCH, SPILL_WRITE,
SOAKAWAY_PROBE. -/

namespace Sys2Proof.Machine

/-- TOKEN_ROUTE (R52): a token reaches its router; io is what the checks of CHECK find there and at the routers after it (R41). -/
def execTokenRoute (t : Token) (io : RouteIo) (s : State) : Host.Outcome State Fault Refusal :=
  s.onMain fun m => m.tokenRoute t io

/-- TOKEN_MATCH (R61): a token that has reached its tuft; io is what its CHECK (R41), an instruction fetch (R87) and the entries it meets
(R59) are found to hold. -/
def execTokenMatch (die tuft : Fin 8) (t : Token) (io : MatchIo) (s : State) : Host.Outcome State Fault Refusal :=
  s.onMain fun m => m.tokenMatch die tuft t io

/-- SPILL_WRITE (R66): entry i of a tuft's spill buffer. -/
def execSpillWrite (die tuft : Fin 8) (i : Fin 32) (s : State) : Host.Outcome State Fault Refusal :=
  s.onMain fun m => m.spillWrite die tuft i.val

/-- SOAKAWAY_PROBE (R67): outstanding probe i of a tuft returns. -/
def execSoakawayProbe (die tuft : Fin 8) (i : Fin 32) (ecc : Ecc) (s : State) : Host.Outcome State Fault Refusal :=
  s.onMain fun m => m.soakawayProbe die tuft i.val ecc

end Sys2Proof.Machine
end

