-- ==== Sys2Proof/Machine/Steering.lean ====
section
/-! DEFINITION. Steering and movement (R96, R97). -/

namespace Sys2Proof.Machine

/-- R97: the destinations of a FAN, in order: DEST0, DEST1, and the two of each CONT slot. -/
def fanDests (f : Firing) : List (BitVec 22) :=
  [f.i.dest0, f.i.dest1] ++ (f.conts.map (fun w => [w.extractLsb' 22 22, w.extractLsb' 0 22])).flatten

/-- R97, R93: send the operand to each destination, DEST0's column of TAGOP for the first and DEST1's for all others. -/
def Main.fanOut (m : Main) (f : Firing) : List (BitVec 22) → Bool → Main
  | [], _ => m
  | d :: ds, first => (m.also f (tagFrame f.i.tagop first f.frame) d f.left).fanOut f ds false

/-- MOV (R96): the operand to DEST0 and DEST1. -/
def execMov (f : Firing) (s : State) : Host.Outcome State Fault Refusal :=
  s.onMain fun m => m.fire f .mov fun m => m.both f f.left

/-- MERGE (R96): as MOV. -/
def execMerge (f : Firing) (s : State) : Host.Outcome State Fault Refusal :=
  s.onMain fun m => m.fire f .merge fun m => m.both f f.left

/-- FAN (R97). -/
def execFan (f : Firing) (s : State) : Host.Outcome State Fault Refusal :=
  s.onMain fun m => m.fire f .fan fun m => (m.fanOut f (fanDests f) true).rpDone f.replay 0

/-- SINK (R96): no result. -/
def execSink (f : Firing) (s : State) : Host.Outcome State Fault Refusal :=
  s.onMain fun m => m.fire f .sink fun m => m.rpDone f.replay 0

/-- SWITCH (R96): left to DEST0 if the control is true, to DEST1 if it is false. -/
def execSwitch (f : Firing) (s : State) : Host.Outcome State Fault Refusal :=
  s.onMain fun m => m.fire f .switch fun m =>
    if f.right.truth then m.result f (some f.left) none else m.result f none (some f.left)

/-- GATE (R96): left to both destinations once the trigger is there. -/
def execGate (f : Firing) (s : State) : Host.Outcome State Fault Refusal :=
  s.onMain fun m => m.fire f .gate fun m => m.both f f.left

/-- SELECT (R96): left if the third operand is true, else right. -/
def execSelect (f : Firing) (s : State) : Host.Outcome State Fault Refusal :=
  s.onMain fun m => m.fire f .select fun m => m.both f (if f.third.truth then f.left else f.right)

/-- CONST (R96): the literal, of TYPE INT64. -/
def execConst (f : Firing) (s : State) : Host.Outcome State Fault Refusal :=
  s.onMain fun m => m.fire f .const fun m => m.both f { value := f.right.value, typ := tyInt }

/-- RETYPE (R96): left's VALUE with the TYPE that the right operand names. -/
def execRetype (f : Firing) (s : State) : Host.Outcome State Fault Refusal :=
  s.onMain fun m => m.fire f .retype fun m =>
    let t := f.right.value.extractLsb' 0 4
    if 12 ≤ t.toNat then m.badOperand f 1 else m.both f { value := f.left.value, typ := t }

end Sys2Proof.Machine
end

