-- ==== Sys2Proof/Machine/Dispatch.lean ====
section
/-! DEFINITION. Every command with its meaning: one arm for each constructor of Instr. -/

namespace Sys2Proof.Machine

/-- What each command does. The queue is not its concern. -/
def exec (i : Instr) (s : State) : Host.Outcome State Fault Refusal :=
  match i with
  | .mov f => Sys2Proof.Machine.execMov f s
  | .merge f => Sys2Proof.Machine.execMerge f s
  | .fan f => Sys2Proof.Machine.execFan f s
  | .sink f => Sys2Proof.Machine.execSink f s
  | .switch f => Sys2Proof.Machine.execSwitch f s
  | .gate f => Sys2Proof.Machine.execGate f s
  | .select f => Sys2Proof.Machine.execSelect f s
  | .const f => Sys2Proof.Machine.execConst f s
  | .retype f => Sys2Proof.Machine.execRetype f s
  | .retag f => Sys2Proof.Machine.execRetag f s
  | .loopenter f => Sys2Proof.Machine.execLoopenter f s
  | .loopnext f => Sys2Proof.Machine.execLoopnext f s
  | .loopdone f => Sys2Proof.Machine.execLoopdone f s
  | .loopexit f => Sys2Proof.Machine.execLoopexit f s
  | .link f => Sys2Proof.Machine.execLink f s
  | .frameget f => Sys2Proof.Machine.execFrameget f s
  | .return_ f => Sys2Proof.Machine.execReturn f s
  | .frameof f => Sys2Proof.Machine.execFrameof f s
  | .add f => Sys2Proof.Machine.execAdd f s
  | .sub f => Sys2Proof.Machine.execSub f s
  | .neg f => Sys2Proof.Machine.execNeg f s
  | .abs f => Sys2Proof.Machine.execAbs f s
  | .mul f => Sys2Proof.Machine.execMul f s
  | .mulh f => Sys2Proof.Machine.execMulh f s
  | .mulx f => Sys2Proof.Machine.execMulx f s
  | .div f pair => Sys2Proof.Machine.execDiv f pair s
  | .rem f pair => Sys2Proof.Machine.execRem f pair s
  | .divrem f pair => Sys2Proof.Machine.execDivrem f pair s
  | .dividerComplete die tuft pair => Sys2Proof.Machine.execDividerComplete die tuft pair s
  | .min f => Sys2Proof.Machine.execMin f s
  | .max f => Sys2Proof.Machine.execMax f s
  | .ext f => Sys2Proof.Machine.execExt f s
  | .and f => Sys2Proof.Machine.execAnd f s
  | .or f => Sys2Proof.Machine.execOr f s
  | .xor f => Sys2Proof.Machine.execXor f s
  | .andn f => Sys2Proof.Machine.execAndn f s
  | .not f => Sys2Proof.Machine.execNot f s
  | .shl f => Sys2Proof.Machine.execShl f s
  | .shr f => Sys2Proof.Machine.execShr f s
  | .sar f => Sys2Proof.Machine.execSar f s
  | .rol f => Sys2Proof.Machine.execRol f s
  | .ror f => Sys2Proof.Machine.execRor f s
  | .cmpeq f => Sys2Proof.Machine.execCmpeq f s
  | .cmpne f => Sys2Proof.Machine.execCmpne f s
  | .cmplt f => Sys2Proof.Machine.execCmplt f s
  | .cmple f => Sys2Proof.Machine.execCmple f s
  | .cmpgt f => Sys2Proof.Machine.execCmpgt f s
  | .cmpge f => Sys2Proof.Machine.execCmpge f s
  | .clz f => Sys2Proof.Machine.execClz f s
  | .ctz f => Sys2Proof.Machine.execCtz f s
  | .popc f => Sys2Proof.Machine.execPopc f s
  | .bswap f => Sys2Proof.Machine.execBswap f s
  | .brev f => Sys2Proof.Machine.execBrev f s
  | .bext f => Sys2Proof.Machine.execBext f s
  | .bins f => Sys2Proof.Machine.execBins f s
  | .fadd f => Sys2Proof.Machine.execFadd f s
  | .fsub f => Sys2Proof.Machine.execFsub f s
  | .fmul f => Sys2Proof.Machine.execFmul f s
  | .fdiv f pair => Sys2Proof.Machine.execFdiv f pair s
  | .fsqrt f pair => Sys2Proof.Machine.execFsqrt f pair s
  | .fma f => Sys2Proof.Machine.execFma f s
  | .fms f => Sys2Proof.Machine.execFms f s
  | .fnma f => Sys2Proof.Machine.execFnma f s
  | .fmin f => Sys2Proof.Machine.execFmin f s
  | .fmax f => Sys2Proof.Machine.execFmax f s
  | .fminm f => Sys2Proof.Machine.execFminm f s
  | .fmaxm f => Sys2Proof.Machine.execFmaxm f s
  | .fneg f => Sys2Proof.Machine.execFneg f s
  | .fabs f => Sys2Proof.Machine.execFabs f s
  | .fcpys f => Sys2Proof.Machine.execFcpys f s
  | .fcmpeq f => Sys2Proof.Machine.execFcmpeq f s
  | .fcmplt f => Sys2Proof.Machine.execFcmplt f s
  | .fcmple f => Sys2Proof.Machine.execFcmple f s
  | .fcmpun f => Sys2Proof.Machine.execFcmpun f s
  | .fcvtds f => Sys2Proof.Machine.execFcvtds f s
  | .fcvtsd f => Sys2Proof.Machine.execFcvtsd f s
  | .fcvtid f => Sys2Proof.Machine.execFcvtid f s
  | .fcvtdi f => Sys2Proof.Machine.execFcvtdi f s
  | .frint f => Sys2Proof.Machine.execFrint f s
  | .fclass f => Sys2Proof.Machine.execFclass f s
  | .fsetf f => Sys2Proof.Machine.execFsetf f s
  | .fbar f => Sys2Proof.Machine.execFbar f s
  | .epochReport die tuft ctx side => Sys2Proof.Machine.execEpochReport die tuft ctx side s
  | .fbarResult ctx side => Sys2Proof.Machine.execFbarResult ctx side s
  | .load f => Sys2Proof.Machine.execLoad f s
  | .store f => Sys2Proof.Machine.execStore f s
  | .aadd f => Sys2Proof.Machine.execAadd f s
  | .aand f => Sys2Proof.Machine.execAand f s
  | .aor f => Sys2Proof.Machine.execAor f s
  | .axor f => Sys2Proof.Machine.execAxor f s
  | .axchg f => Sys2Proof.Machine.execAxchg f s
  | .acas f => Sys2Proof.Machine.execAcas f s
  | .memoryResponse r port => Sys2Proof.Machine.execMemoryResponse r port s
  | .tableWalk f => Sys2Proof.Machine.execTableWalk f s
  | .iload f => Sys2Proof.Machine.execIload f s
  | .istore f => Sys2Proof.Machine.execIstore f s
  | .iclear f => Sys2Proof.Machine.execIclear f s
  | .send f io => Sys2Proof.Machine.execSend f io s
  | .recv f io => Sys2Proof.Machine.execRecv f io s
  | .pktbegin f io => Sys2Proof.Machine.execPktbegin f io s
  | .pktword f io => Sys2Proof.Machine.execPktword f io s
  | .pktcommit f io => Sys2Proof.Machine.execPktcommit f io s
  | .pktabort f => Sys2Proof.Machine.execPktabort f s
  | .flush f => Sys2Proof.Machine.execFlush f s
  | .droprest f => Sys2Proof.Machine.execDroprest f s
  | .heldRunnelRequest f io => Sys2Proof.Machine.execHeldRunnelRequest f io s
  | .pushDelivery die idx io => Sys2Proof.Machine.execPushDelivery die idx io s
  | .wstamp f => Sys2Proof.Machine.execWstamp f s
  | .winfo f => Sys2Proof.Machine.execWinfo f s
  | .refget f => Sys2Proof.Machine.execRefget f s
  | .outst f => Sys2Proof.Machine.execOutst f s
  | .outnow f => Sys2Proof.Machine.execOutnow f s
  | .slacq f => Sys2Proof.Machine.execSlacq f s
  | .slrel f => Sys2Proof.Machine.execSlrel f s
  | .flissue f => Sys2Proof.Machine.execFlissue f s
  | .resume f => Sys2Proof.Machine.execResume f s
  | .flumeElement die idx io => Sys2Proof.Machine.execFlumeElement die idx io s
  | .flumeDescriptorRead die idx => Sys2Proof.Machine.execFlumeDescriptorRead die idx s
  | .replay f ecc => Sys2Proof.Machine.execReplay f ecc s
  | .replayv f ecc => Sys2Proof.Machine.execReplayv f ecc s
  | .replayv2 f ecc => Sys2Proof.Machine.execReplayv2 f ecc s
  | .parkdrop f => Sys2Proof.Machine.execParkdrop f s
  | .raise f => Sys2Proof.Machine.execRaise f s
  | .signal f => Sys2Proof.Machine.execSignal f s
  | .pload f => Sys2Proof.Machine.execPload f s
  | .pstore f => Sys2Proof.Machine.execPstore f s
  | .imwrite f => Sys2Proof.Machine.execImwrite f s
  | .imread f => Sys2Proof.Machine.execImread f s
  | .tlbinv f => Sys2Proof.Machine.execTlbinv f s
  | .tokenRoute t io => Sys2Proof.Machine.execTokenRoute t io s
  | .tokenMatch die tuft t io => Sys2Proof.Machine.execTokenMatch die tuft t io s
  | .spillWrite die tuft n => Sys2Proof.Machine.execSpillWrite die tuft n s
  | .soakawayProbe die tuft n ecc => Sys2Proof.Machine.execSoakawayProbe die tuft n ecc s
  | .eventCapture src word time busy => Sys2Proof.Machine.execEventCapture src word time busy s
  | .eventTokenRelease src => Sys2Proof.Machine.execEventTokenRelease src s
  | .refbusFrameSend => Sys2Proof.Machine.execRefbusFrameSend s
  | .refbusFrameReceive die tuft crc => Sys2Proof.Machine.execRefbusFrameReceive die tuft crc s
  | .weirTimeout die tuft t => Sys2Proof.Machine.execWeirTimeout die tuft t s
  | .referenceStep => Sys2Proof.Machine.execReferenceStep s
  | .referenceStandstill r => Sys2Proof.Machine.execReferenceStandstill r s
  | .refSrcWrite r reg v => Sys2Proof.Machine.execRefSrcWrite r reg v s
  | .refPresetWrite r v => Sys2Proof.Machine.execRefPresetWrite r v s
  | .refVelWrite r v => Sys2Proof.Machine.execRefVelWrite r v s
  | .refSampletWrite r time => Sys2Proof.Machine.execRefSampletWrite r time s
  | .outputSchedulerStep => Sys2Proof.Machine.execOutputSchedulerStep s
  | .outschedOwnWrite c v => Sys2Proof.Machine.execOutschedOwnWrite c v s
  | .outschedCancel c => Sys2Proof.Machine.execOutschedCancel c s
  | .chgArm k => Sys2Proof.Machine.execChgArm k s
  | .chgStagingDone k => Sys2Proof.Machine.execChgStagingDone k s
  | .chgAbort k => Sys2Proof.Machine.execChgAbort k s
  | .chgCommit k => Sys2Proof.Machine.execChgCommit k s
  | .chgTimeout k => Sys2Proof.Machine.execChgTimeout k s
  | .placementWrite n v => Sys2Proof.Machine.execPlacementWrite n v s
  | .placementCopyDone => Sys2Proof.Machine.execPlacementCopyDone s
  | .contextRunWrite c v => Sys2Proof.Machine.execContextRunWrite c v s
  | .soakFullClear c => Sys2Proof.Machine.execSoakFullClear c s
  | .soakWrite c v => Sys2Proof.Machine.execSoakWrite c v s
  | .parkWrite c v => Sys2Proof.Machine.execParkWrite c v s
  | .fpctlWrite c v => Sys2Proof.Machine.execFpctlWrite c v s
  | .deadlockTick => Sys2Proof.Machine.execDeadlockTick s
  | .handlerBoostExpiry c => Sys2Proof.Machine.execHandlerBoostExpiry c s
  | .pairWindowExpiry ctx frame ia => Sys2Proof.Machine.execPairWindowExpiry ctx frame ia s
  | .bankOwnWrite d b v => Sys2Proof.Machine.execBankOwnWrite d b v s
  | .bankHandoverDone d b => Sys2Proof.Machine.execBankHandoverDone d b s
  | .bankPwrWrite d b v => Sys2Proof.Machine.execBankPwrWrite d b v s
  | .bankPowerChangeDone d b => Sys2Proof.Machine.execBankPowerChangeDone d b s
  | .flumeKill die idx => Sys2Proof.Machine.execFlumeKill die idx s
  | .msctlInject d t v => Sys2Proof.Machine.execMsctlInject d t v s
  | .memctlInject d v => Sys2Proof.Machine.execMemctlInject d v s
  | .patrolScrubRead d => Sys2Proof.Machine.execPatrolScrubRead d s
  | .dredgeStart d => Sys2Proof.Machine.execDredgeStart d s
  | .dredgeStop d part stop => Sys2Proof.Machine.execDredgeStop d part stop s
  | .dredgeElement d fs => Sys2Proof.Machine.execDredgeElement d fs s
  | .dredgeGapExpiry d => Sys2Proof.Machine.execDredgeGapExpiry d s
  | .dredgePauseExpiry d => Sys2Proof.Machine.execDredgePauseExpiry d s
  | .dredgeYield x => Sys2Proof.Machine.execDredgeYield x s
  | .dredgeRepair d => Sys2Proof.Machine.execDredgeRepair d s
  | .culvertFlitReceive d p f werr perr ack => Sys2Proof.Machine.execCulvertFlitReceive d p f werr perr ack s
  | .linkDown d p clock => Sys2Proof.Machine.execLinkDown d p clock s
  | .resyncComplete d p => Sys2Proof.Machine.execResyncComplete d p s
  | .linkTrainingDone d p res => Sys2Proof.Machine.execLinkTrainingDone d p res s
  | .partnerUnreachable d p => Sys2Proof.Machine.execPartnerUnreachable d p s
  | .culvRetrain d p v => Sys2Proof.Machine.execCulvRetrain d p v s
  | .sluiceClaimWrite p n v => Sys2Proof.Machine.execSluiceClaimWrite p n v s
  | .sluiceReleaseWrite p n v => Sys2Proof.Machine.execSluiceReleaseWrite p n v s
  | .sluiceWaitTimeout n => Sys2Proof.Machine.execSluiceWaitTimeout n s
  | .ustWrite r v => Sys2Proof.Machine.execUstWrite r v s
  | .ustApplyDone => Sys2Proof.Machine.execUstApplyDone s
  | .ustScrub => Sys2Proof.Machine.execUstScrub s
  | .axisCfgWrite n v => Sys2Proof.Machine.execAxisCfgWrite n v s
  | .axisPresetWrite n v => Sys2Proof.Machine.execAxisPresetWrite n v s
  | .axisEdge n a b z ts => Sys2Proof.Machine.execAxisEdge n a b z ts s
  | .axisIndex n ts => Sys2Proof.Machine.execAxisIndex n ts s
  | .axisLossOfSignal n rx => Sys2Proof.Machine.execAxisLossOfSignal n rx s
  | .sincosSample n sine cosine fast => Sys2Proof.Machine.execSincosSample n sine cosine fast s
  | .ssiTrigger n => Sys2Proof.Machine.execSsiTrigger n s
  | .ssiFrameComplete n startLow word extra => Sys2Proof.Machine.execSsiFrameComplete n startLow word extra s
  | .resolverAngle n angle ampl => Sys2Proof.Machine.execResolverAngle n angle ampl s
  | .analogSampleGroup j xs clip => Sys2Proof.Machine.execAnalogSampleGroup j xs clip s
  | .mainsCrossing j time => Sys2Proof.Machine.execMainsCrossing j time s
  | .dacDeferredStart n => Sys2Proof.Machine.execDacDeferredStart n s
  | .motorCarrierPoint k top => Sys2Proof.Machine.execMotorCarrierPoint k top s
  | .motorAdcSample k iu iv iw io => Sys2Proof.Machine.execMotorAdcSample k iu iv iw io s
  | .gpioEdge n level => Sys2Proof.Machine.execGpioEdge n level s
  | .gpioOutWrite k v => Sys2Proof.Machine.execGpioOutWrite k v s
  | .outputEnableWrite o v => Sys2Proof.Machine.execOutputEnableWrite o v s
  | .timerExpiry t => Sys2Proof.Machine.execTimerExpiry t s
  | .timerStepPulse t => Sys2Proof.Machine.execTimerStepPulse t s
  | .tapeCharacterCapture p holes rdy io => Sys2Proof.Machine.execTapeCharacterCapture p holes rdy io s
  | .tapeCharacterSend p run io => Sys2Proof.Machine.execTapeCharacterSend p run io s
  | .tapeLoadtab p => Sys2Proof.Machine.execTapeLoadtab p s
  | .ethFrameReceive p bs fcs time io => Sys2Proof.Machine.execEthFrameReceive p bs fcs time io s
  | .ethFrameTransmit p late rd => Sys2Proof.Machine.execEthFrameTransmit p late rd s
  | .ethGclEntry p => Sys2Proof.Machine.execEthGclEntry p s
  | .ethGclChange p => Sys2Proof.Machine.execEthGclChange p s
  | .ethGclAdopt p => Sys2Proof.Machine.execEthGclAdopt p s
  | .ethVerifyDone p ok => Sys2Proof.Machine.execEthVerifyDone p ok s
  | .ethLinkChange p up speed => Sys2Proof.Machine.execEthLinkChange p up speed s
  | .txtsRead p => Sys2Proof.Machine.execTxtsRead p s
  | .mdioFrame ev => Sys2Proof.Machine.execMdioFrame ev s
  | .timeStepWrite p v => Sys2Proof.Machine.execTimeStepWrite p v s
  | .wholeSecond => Sys2Proof.Machine.execWholeSecond s
  | .canFrameReceive c rx sof io => Sys2Proof.Machine.execCanFrameReceive c rx sof io s
  | .canFrameTransmit c res late rd => Sys2Proof.Machine.execCanFrameTransmit c res late rd s
  | .canBusOffRecovery c => Sys2Proof.Machine.execCanBusOffRecovery c s
  | .uartMessageEnd e => Sys2Proof.Machine.execUartMessageEnd e s
  | .uartTransmit n waits late rd => Sys2Proof.Machine.execUartTransmit n waits late rd s
  | .hostWindowAccess x w io => Sys2Proof.Machine.execHostWindowAccess x w io s
  | .pcieDoorbell v => Sys2Proof.Machine.execPcieDoorbell v s
  | .pcieLinkEvent ev => Sys2Proof.Machine.execPcieLinkEvent ev s
  | .htdEntry c e io => Sys2Proof.Machine.execHtdEntry c e io s
  | .dthEntry c e rd => Sys2Proof.Machine.execDthEntry c e rd s
  | .msixWrite p v => Sys2Proof.Machine.execMsixWrite p v s
  | .usbOutTransfer k bs io => Sys2Proof.Machine.execUsbOutTransfer k bs io s
  | .usbInTransfer k rd => Sys2Proof.Machine.execUsbInTransfer k rd s
  | .usbBusEvent ev => Sys2Proof.Machine.execUsbBusEvent ev s
  | .storageCommand u rd => Sys2Proof.Machine.execStorageCommand u rd s
  | .storageCompletion u ev io => Sys2Proof.Machine.execStorageCompletion u ev io s
  | .svcRead p pa io => Sys2Proof.Machine.execSvcRead p pa io s
  | .svcWrite p pa v io => Sys2Proof.Machine.execSvcWrite p pa v io s
  | .svcMode p pec => Sys2Proof.Machine.execSvcMode p pec s
  | .svcAddressWake => Sys2Proof.Machine.execSvcAddressWake s
  | .pmbusCommand ev => Sys2Proof.Machine.execPmbusCommand ev s
  | .pmbusAlert addr => Sys2Proof.Machine.execPmbusAlert addr s
  | .surveyStart v => Sys2Proof.Machine.execSurveyStart v s
  | .surveyStop v => Sys2Proof.Machine.execSurveyStop v s
  | .surveyClear v => Sys2Proof.Machine.execSurveyClear v s
  | .surveySupply mean ripple => Sys2Proof.Machine.execSurveySupply mean ripple s
  | .surveyPinload v0 pos neg levels => Sys2Proof.Machine.execSurveyPinload v0 pos neg levels s
  | .surveyTdr driven t rho z0 levels => Sys2Proof.Machine.execSurveyTdr driven t rho z0 levels s
  | .surveyDacload v0 pos neg dt => Sys2Proof.Machine.execSurveyDacload v0 pos neg dt s
  | .surveyWinding ev => Sys2Proof.Machine.execSurveyWinding ev s
  | .surveyEncoder x levels => Sys2Proof.Machine.execSurveyEncoder x levels s
  | .surveyResolver sine cosine exc phase angle => Sys2Proof.Machine.execSurveyResolver sine cosine exc phase angle s
  | .surveyMains freq rms => Sys2Proof.Machine.execSurveyMains freq rms s
  | .surveyPartner vala valb => Sys2Proof.Machine.execSurveyPartner vala valb s
  | .surveyThermal tj => Sys2Proof.Machine.execSurveyThermal tj s
  | .supplyWatchSample r mv => Sys2Proof.Machine.execSupplyWatchSample r mv s
  | .mainsWatch freq => Sys2Proof.Machine.execMainsWatch freq s
  | .temperatureUpdate p tj => Sys2Proof.Machine.execTemperatureUpdate p tj s
  | .safetyCycle h => Sys2Proof.Machine.execSafetyCycle h s
  | .safeInputSample a b => Sys2Proof.Machine.execSafeInputSample a b s
  | .testPulse k a b => Sys2Proof.Machine.execTestPulse k a b s
  | .heartbeat => Sys2Proof.Machine.execHeartbeat s
  | .islandStatusRequest => Sys2Proof.Machine.execIslandStatusRequest s
  | .sto => Sys2Proof.Machine.execSto s
  | .ss1 => Sys2Proof.Machine.execSs1 s
  | .ss2 => Sys2Proof.Machine.execSs2 s
  | .sos => Sys2Proof.Machine.execSos s
  | .slsLower => Sys2Proof.Machine.execSlsLower s
  | .brakeApply => Sys2Proof.Machine.execBrakeApply s
  | .gateClose => Sys2Proof.Machine.execGateClose s
  | .sdi => Sys2Proof.Machine.execSdi s
  | .stoRelease => Sys2Proof.Machine.execStoRelease s
  | .sosRelease => Sys2Proof.Machine.execSosRelease s
  | .slsRaise => Sys2Proof.Machine.execSlsRaise s
  | .brakeRelease => Sys2Proof.Machine.execBrakeRelease s
  | .gateOpen => Sys2Proof.Machine.execGateOpen s
  | .sdiOff => Sys2Proof.Machine.execSdiOff s
  | .psetBegin => Sys2Proof.Machine.execPsetBegin s
  | .psetData => Sys2Proof.Machine.execPsetData s
  | .psetCommit => Sys2Proof.Machine.execPsetCommit s
  | .psetAbort => Sys2Proof.Machine.execPsetAbort s
  | .psetVerifyDone => Sys2Proof.Machine.execPsetVerifyDone s
  | .psetLoadTimeout => Sys2Proof.Machine.execPsetLoadTimeout s
  | .ss1RampExpiry d => Sys2Proof.Machine.execSs1RampExpiry d s
  | .statusPacketPeriod => Sys2Proof.Machine.execStatusPacketPeriod s
  | .heartbeatLoss => Sys2Proof.Machine.execHeartbeatLoss s
  | .aliveLoss => Sys2Proof.Machine.execAliveLoss s
  | .islandInitDone fail => Sys2Proof.Machine.execIslandInitDone fail s
  | .islandFault code => Sys2Proof.Machine.execIslandFault code s
  | .islandWatchdogReset => Sys2Proof.Machine.execIslandWatchdogReset s
  | .islandPowerOn => Sys2Proof.Machine.execIslandPowerOn s
  | .testDue d => Sys2Proof.Machine.execTestDue d s
  | .safeIslandPoll => Sys2Proof.Machine.execSafeIslandPoll s
  | .faultEvent f => Sys2Proof.Machine.execFaultEvent f s
  | .countWindowEnd d src => Sys2Proof.Machine.execCountWindowEnd d src s
  | .ackTimeout c => Sys2Proof.Machine.execAckTimeout c s
  | .reactionDeadline k => Sys2Proof.Machine.execReactionDeadline k s
  | .shadowEnd seq => Sys2Proof.Machine.execShadowEnd seq s
  | .reactionComplete k => Sys2Proof.Machine.execReactionComplete k s
  | .aliveToggle => Sys2Proof.Machine.execAliveToggle s
  | .aliveStart p v => Sys2Proof.Machine.execAliveStart p v s
  | .selfCheck => Sys2Proof.Machine.execSelfCheck s
  | .echoTimeout d => Sys2Proof.Machine.execEchoTimeout d s
  | .selfCheckFailure => Sys2Proof.Machine.execSelfCheckFailure s
  | .clockFailure => Sys2Proof.Machine.execClockFailure s
  | .clkRef => Sys2Proof.Machine.execClkRef s
  | .faultInject p v => Sys2Proof.Machine.execFaultInject p v s
  | .faultRaiseWrite p v => Sys2Proof.Machine.execFaultRaiseWrite p v s
  | .classAck p c v => Sys2Proof.Machine.execClassAck p c v s
  | .logClear p v => Sys2Proof.Machine.execLogClear p v s
  | .diestatClear p d v => Sys2Proof.Machine.execDiestatClear p d v s
  | .modeRequest p t => Sys2Proof.Machine.execModeRequest p t s
  | .powerOnReset ev => Sys2Proof.Machine.execPowerOnReset ev s
  | .railConfirmTimeout k => Sys2Proof.Machine.execRailConfirmTimeout k s
  | .railRetry => Sys2Proof.Machine.execRailRetry s
  | .pinReset ev => Sys2Proof.Machine.execPinReset ev s
  | .warmReset p => Sys2Proof.Machine.execWarmReset p s
  | .dieReset d iso => Sys2Proof.Machine.execDieReset d iso s
  | .dieRejoin d => Sys2Proof.Machine.execDieRejoin d s
  | .tuftReset d t => Sys2Proof.Machine.execTuftReset d t s
  | .contextReset c => Sys2Proof.Machine.execContextReset c s
  | .dieDormantRequest d => Sys2Proof.Machine.execDieDormantRequest d s
  | .dormantEntryDone d => Sys2Proof.Machine.execDormantEntryDone d s
  | .dieWakeRequest d => Sys2Proof.Machine.execDieWakeRequest d s
  | .standbyEntryDone => Sys2Proof.Machine.execStandbyEntryDone s
  | .standbyWake src => Sys2Proof.Machine.execStandbyWake src s
  | .pwrReqWrite d v => Sys2Proof.Machine.execPwrReqWrite d v s
  | .frequencySwitch d => Sys2Proof.Machine.execFrequencySwitch d s
  | .voltageSettleExpiry d => Sys2Proof.Machine.execVoltageSettleExpiry d s
  | .voutReadback d mv => Sys2Proof.Machine.execVoutReadback d mv s
  | .bootStart verA verB => Sys2Proof.Machine.execBootStart verA verB s
  | .bootImageReceived img => Sys2Proof.Machine.execBootImageReceived img s
  | .bootVerifyDone => Sys2Proof.Machine.execBootVerifyDone s
  | .bootTimeout => Sys2Proof.Machine.execBootTimeout s
  | .unlockPw p pw pec => Sys2Proof.Machine.execUnlockPw p pw pec s
  | .challenge p level pec => Sys2Proof.Machine.execChallenge p level pec s
  | .response p mac pec => Sys2Proof.Machine.execResponse p mac pec s
  | .lock p pec => Sys2Proof.Machine.execLock p pec s
  | .setpw p pw pec => Sys2Proof.Machine.execSetpw p pw pec s
  | .secStatus p pec => Sys2Proof.Machine.execSecStatus p pec s
  | .lockoutEnd => Sys2Proof.Machine.execLockoutEnd s
  | .sessionTimeout => Sys2Proof.Machine.execSessionTimeout s
  | .graphVerifyStart p v => Sys2Proof.Machine.execGraphVerifyStart p v s
  | .graphVerifyDone => Sys2Proof.Machine.execGraphVerifyDone s
  | .otpProgram p v => Sys2Proof.Machine.execOtpProgram p v s
  | .otpProgramDone ok => Sys2Proof.Machine.execOtpProgramDone ok s
  | .readClearAccess p pa => Sys2Proof.Machine.execReadClearAccess p pa s
  | .registerWrite p pa v => Sys2Proof.Machine.execRegisterWrite p pa v s
  | .axisSignalReturn n rx level => Sys2Proof.Machine.execAxisSignalReturn n rx level s
  | .vsafePowerLoss => Sys2Proof.Machine.execVsafePowerLoss s
  | .uartCharacterReceive n ch fe pe brk start io => Sys2Proof.Machine.execUartCharacterReceive n ch fe pe brk start io s
  | .safeCounterEdge p a b => Sys2Proof.Machine.execSafeCounterEdge p a b s
  | .safeCounterIndex p => Sys2Proof.Machine.execSafeCounterIndex p s
  | .idealSignalChange k ph on => Sys2Proof.Machine.execIdealSignalChange k ph on s
  | .voutCommandDone d => Sys2Proof.Machine.execVoutCommandDone d s
  | .fpctlCopyDone c => Sys2Proof.Machine.execFpctlCopyDone c s
  | .contextResetDone => Sys2Proof.Machine.execContextResetDone s
  | .bootImageReadDone img => Sys2Proof.Machine.execBootImageReadDone img s
  | .haltAndResumeOfDispatch d t halt => Sys2Proof.Machine.execHaltAndResumeOfDispatch d t halt s

end Sys2Proof.Machine
end

