-- ==== Sys2Proof/Machine/Pins.lean ====
section
/-! DEFINITION. What every pin group of the device drives (R402, R470, R572). Receivers load nothing and are no part of it. -/

namespace Sys2Proof.Machine

/-- What a pin drives: nothing, with no pull; nothing, as a released open drain; electrical idle; a static level; the 100 kHz square wave
of a released pair (R470); what the unit behind it transmits, which no state holds. -/
inductive PinState
  | highZ
  | released
  | idle
  | level (high : Bool)
  | wave
  | unit
  deriving DecidableEq, Repr

/-- The output pins. Both outputs of a pair of the island, of a differential pair and of a bus are one pin here. -/
inductive PinName
  | dac (n : Fin 64)
  | motor (k : Fin 16) (ph : Fin 3) (low : Bool)
  | gpio (n : Fin 448)
  | tapeRun (p : Fin 2)
  | tapeRdy (p : Fin 2)
  | exc (i : Fin 16)
  | ssiClock (n : Fin 64)
  | uartTxd (n : Fin 16)
  | uartDe (n : Fin 16)
  | canTx (c : Fin 4)
  | mdio
  | emmc
  | xspi
  | pcieTx
  | ethTx (n : Fin 7)
  | usb
  | tdo
  | openDrain
  | aliveOut
  | sto (d : Fin 16)
  | brk (k : Fin 8)
  | tp (k : Fin 8)
  | safeAlive
  deriving DecidableEq, Repr

/-- A level, or high impedance. -/
def PinState.ofLevel (x : Option Bool) : PinState := (x.map PinState.level).getD .highZ

/-- What a unit drives while a condition holds; high impedance otherwise. -/
def PinState.driven (c : Bool) (x : PinState) : PinState := if c then x else .highZ

/-- R425: the level of DE: driver enable with LINE 2, RTS with LINE 1. -/
def Main.uartDePin (m : Main) (n : Nat) : Bool :=
  match m.get (F.UART_CFG_LINE n) with
  | 2 => decide (m.now < (m.uart n).deEnd)
  | 1 => m.uartRts n
  | _ => false

/-- R572: the pins of the main domains. Those of units leave high impedance when their unit is enabled, MDC and MDIO with the first
Ethernet unit (log 255). -/
def Main.pin (m : Main) (x : PinName) : PinState :=
  let up := m.mode != 0
  match x with
  | .dac n => .driven (m.dacPin n.val).isSome .unit
  | .motor k ph low => .ofLevel ((m.motorPins k.val ph.val).map (fun p => if low then p.2 else p.1))
  | .gpio n => .ofLevel (m.gpioPin n.val)
  | .tapeRun p => .ofLevel (m.tapeRun p.val)
  | .tapeRdy p => .ofLevel (m.tapeRdy p.val)
  | .exc i => .driven (m.excPin i.val).isSome .unit
  | .ssiClock n => .ofLevel (m.ssiClock n.val)
  | .uartTxd n => .driven (m.live (.iface (0x20 + n.val))) (if m.now < (m.uart n.val).txEnd then .unit else .level true)
  | .uartDe n => .driven (m.live (.iface (0x20 + n.val))) (.level (m.uartDePin n.val))
  | .canTx c => .driven (m.live (.iface (0x10 + c.val))) .unit
  | .mdio => .driven ((List.range 7).any (fun n => m.live (.iface n))) .unit
  | .emmc | .xspi => .driven up .unit
  | .pcieTx => .driven up (if m.flag F.PCIE_LINK_UP then .unit else .idle)
  | .ethTx n => .driven up (if m.flag (F.ETH_STAT_LINK n.val) then .unit else .idle)
  | .usb => .driven (up && m.flag F.USB_CFG_CONNECT) .unit
  | .tdo => .highZ
  | .openDrain => if m.sys.busq = [] then .released else .unit
  | .aliveOut => .level m.coll.alive
  | .sto _ | .brk _ | .tp _ | .safeAlive => .highZ

/-- R470, R572: every output pin. Without VSAFE nothing is driven; the island alone drives its own pins. -/
def State.pin (s : State) (x : PinName) : PinState :=
  if !s.isl.on then (if x = .openDrain then .released else .highZ)
  else match x with
    | .sto d => if (s.isl.ch d.val).sto then .level false else .wave
    | .brk k => if (s.isl.brk.getD k.val (false, 0)).1 then .wave else .level false
    | .tp k => if s.isl.works then .level (s.isl.tpLevel k.val) else .highZ
    | .safeAlive => .level s.isl.safeAlive
    | _ => s.main.pin x

end Sys2Proof.Machine
end

