-- ==== Sys2Proof/Safety.lean ====
section
/-! DEFINITION. The terms in which the statements are written: what it means that a command has an effect, that a firing is
executed, that a list or a map keeps its form, and that the island is in its safe state. -/

namespace Sys2Proof

open Sys2Proof.Machine

/-- A command answers a next state in which the main domains are m, and nothing else has changed: neither the queue nor the island. -/
def Does (c : Instr) (s : State) (m : Main) : Prop := exec c s = .next { s with main := m }

/-- A command answers a next state in which the island is i, and nothing else has changed. -/
def DoesIsl (c : Instr) (s : State) (i : Island) : Prop := exec c s = .next { s with isl := i }

/-- A command answers a next state. -/
def Completes (c : Instr) (s : State) : Prop := ∃ t, exec c s = .next t

end Sys2Proof

namespace Sys2Proof.Machine

/-- The state from which an executed firing acts: it has left the ready firings and its dispatch has been counted (R252). -/
def Main.executed (m : Main) (f : Firing) : Main := (m.unready f).countDispatch f

/-- The state from which a unit serves the request of a firing whose block has one copy: it waits at the comparator no more (R247, R248). -/
def Main.requested (m : Main) (f : Firing) : Main := (m.executed f).uncmp f

end Sys2Proof.Machine

namespace Sys2Proof

open Sys2Proof.Machine

/-- A firing of operation op is executed by its command now (R236, R239, R247, R518): its word decodes to op, its context does work (or
the firing is a fault token's, or waits at the comparator, R357), its tuft dispatches it or it waits at the comparator, and no replay supplies its result. -/
def Executes (m : Main) (f : Firing) (op : Op) : Prop :=
  f.op = some op ∧ (m.dead f.ctx.toNat = false ∨ f.pass = true ∨ m.req.cmpWait.contains f = true) ∧
  (m.dispatches f = true ∨ m.req.cmpWait.contains f = true) ∧ f.replay.bind Replay.value = none

/-- The keys of a sparse map rise strictly. -/
def Rising (l : List (Nat × Nat)) : Prop := l.Pairwise (fun p q => p.1 < q.1)

end Sys2Proof

namespace Sys2Proof.Machine

/-- The placement entry that a router holds for the block of a token (R48, R51). -/
def Main.entryAt (m : Main) (router : Nat) (t : Token) : Nat := m.place router t.ctx.toNat (t.ia.extractLsb' 12 8).toNat

/-- A token has left those that are in flight. -/
def Main.unsent (m : Main) (t : Token) : Main := { m with tok := { m.tok with inflight := m.tok.inflight.erase t } }

/-- A token arrives at a tuft. -/
def Main.arrive (m : Main) (die tuft : Fin 8) (t : Token) : Main :=
  { m with tok := { m.tok with arrived := m.tok.arrived ++ [{ die := die, tuft := tuft, tok := t }] } }

/-- A token has left those that have arrived. -/
def Main.unarrived (m : Main) (die tuft : Fin 8) (t : Token) : Main :=
  { m with tok := { m.tok with arrived := m.tok.arrived.erase { die := die, tuft := tuft, tok := t } } }

/-- R44, R52, R53: a token that its router can deliver: its context is not SOLE and does work, its TYPE and WSEL are legal, the entry for its
block is VALID, has the copy that SIDE selects, and names an ACTIVE die; and it was not created on an isolated die. -/
def Routable (m : Main) (t : Token) : Prop :=
  let e := m.entryAt (m.routerOf t) t
  m.sole t.ctx.toNat = false ∧ m.dead t.ctx.toNat = false ∧ (t.odie = 0 ∨ m.dieState t.odie.val ≠ 2) ∧ t.typ.toNat < 12 ∧
  (t.wsel.toNat < 49 ∨ 61 < t.wsel.toNat) ∧ plValid e = true ∧ (t.side = true → plPaired e = true) ∧ m.dieState (plDie e t.side) = 1

/-- R43, R60, R87, R90: a token at the tuft of its block, in a context that does work, not gated by a weir, with a legal TYPE and on a port that the
operation of the fetched instruction accepts. -/
def AtTuft (m : Main) (die tuft : Fin 8) (t : Token) (r : OpRow) (w : Word) (lit : Option Word) (conts : List Word) : Prop :=
  let e := m.entryAt die.val t
  m.dead t.ctx.toNat = false ∧ (plValid e = false ∨ (plDie e t.side = die.val ∧ plTuft e t.side = tuft.val)) ∧
  (t.released = true ∨ t.wsel.toNat = 0 ∨ 48 < t.wsel.toNat) ∧ t.typ.toNat < 12 ∧ (t.wsel.toNat < 49 ∨ 61 < t.wsel.toNat) ∧
  m.fetchFor die tuft t = .instr r w lit conts ∧ t.replay = none

end Sys2Proof.Machine

namespace Sys2Proof.Machine

/-- A captured event has left those that wait for the event router. -/
def Main.uncaptured (m : Main) (src : Fin 1024) (w : BitVec 32) (tm : Nat) : Main :=
  { m with tok := { m.tok with captured := m.tok.captured.erase { src := src.val, word := w.toNat, time := tm } } }

end Sys2Proof.Machine

namespace Sys2Proof.Machine

/-- The token that a firing sends to a destination in a frame; none where the destination is 0x3F_FFFF (R86, R91). -/
def tokenTo (m : Main) (f : Firing) (frame : BitVec 24) (dest : BitVec 22) (o : Opnd) : List Token :=
  if dest = noDest then [] else [m.mkToken f.die f.tuft f.ctx f.ia f.side frame dest o]

/-- The result token of a firing to DEST0 (first) or DEST1, in the frame of TAGOP (R92). -/
def resultToken (m : Main) (f : Firing) (first : Bool) (o : Option Opnd) : List Token :=
  match o with
  | none => []
  | some o => tokenTo m f (tagFrame f.i.tagop first f.frame) (if first then f.i.dest0 else f.i.dest1) o

/-- R103: K lies in 1 to 4,096 and the reserved bits of LOOPENTER's right operand are 0. -/
def loopArgsOk (f : Firing) : Prop :=
  0 < (f.right.value.extractLsb' 0 13).toNat ∧ (f.right.value.extractLsb' 0 13).toNat ≤ 4096 ∧ f.right.value.extractLsb' 13 3 = 0 ∧
  f.right.value.extractLsb' 21 43 = 0

/-- A record is allocated: it joins those of its tuft, whose PEAK follows (R98, R122). -/
def Main.withNewRec (m : Main) (f : Firing) (r : LoopRec) : Main :=
  let n := { m with tuft := { m.tuft with recs := m.tuft.recs ++ [r] } }
  n.peak (F.TUFT_LCOCC_PEAK f.die.val f.tuft.val) (n.recsOf f.die f.tuft).length

/-- R99: r is the record that a record operation finds. -/
def Main.HasRec (m : Main) (f : Firing) (call : Bool) (r : LoopRec) : Prop :=
  (m.recsOf f.die f.tuft).find? (fun r => r.idx == f.recIdx && r.call == call && r.ctx == f.ctx && r.block == f.ia.extractLsb' 12 8 &&
    (m.sole f.ctx.toNat || r.side == f.side)) = some r

end Sys2Proof.Machine

namespace Sys2Proof.Machine

/-- R114: a function of W-bit values applied to the low W bits of a value, and its result extended to 64 bits as SX says. -/
def onW (f : Firing) (x : Word) (g : (w : Nat) → BitVec w → BitVec w) : Word :=
  let ext := fun (w : Nat) (y : BitVec w) => if f.sx then y.signExtend 64 else y.setWidth 64
  match f.i.wBits with
  | 0 => g 64 x
  | 1 => ext 32 (g 32 (x.setWidth 32))
  | 2 => ext 16 (g 16 (x.setWidth 16))
  | _ => ext 8 (g 8 (x.setWidth 8))

/-- R114: the low W bits of a value, extended. -/
def wext (f : Firing) (x : Word) : Word := onW f x (fun _ y => y)

/-- R114: an operand read in W bits, signed when SX is 1. -/
def numOf (f : Firing) (o : Opnd) : Int := if f.sx then (wext f o.value).toInt else (wext f o.value).toNat

/-- R116: the least and the greatest integer of W bits. -/
def leastOf (f : Firing) : Int := if f.sx then -(2 : Int) ^ (f.w - 1) else 0
def greatestOf (f : Firing) : Int := if f.sx then (2 : Int) ^ (f.w - 1) - 1 else (2 : Int) ^ f.w - 1

/-- R116, R117: what an operation does whose exact result is r: within range the result leaves; out of range IOV is set and, with TRAP, the operands
are parked, else the nearer bound (SAT) or the low W bits leave. -/
def Main.arith (m : Main) (f : Firing) (r : Int) : Main :=
  let out := fun (m : Main) (x : Int) => m.result f (some ⟨wext f (BitVec.ofInt 64 x), tyInt⟩) (some ⟨wext f (BitVec.ofInt 64 x), tyInt⟩)
  if leastOf f ≤ r ∧ r ≤ greatestOf f then out m r
  else
    let m := m.set (F.CTXTAB_FPSTICKY_IOV f.ctx.toNat) 1
    if f.trap then m.parkOp f fcIntOverflow f.i.opc.toNat 0
    else if f.sat then out m (if r < leastOf f then leastOf f else greatestOf f) else out m r

/-- R115: ADD and SUB of a PTR and another TYPE at W = 64. -/
def ptrForm (f : Firing) : Prop := f.w = 64 ∧ f.left.typ = tyPtr ∧ f.right.typ ≠ tyPtr

/-- R115, R116: what ADD and SUB do in the PTR form whose exact result is r: the low 48 bits leave, extended from bit 47, as a PTR. IOV is set where r lies
out of range or the extension changes bits; with TRAP the operands are then parked, and with SAT the nearer bound leaves (log 199). -/
def Main.ptrArith (m : Main) (f : Firing) (r : Int) : Main :=
  let x := BitVec.ofInt 64 r
  let v : Word := (x.setWidth 48).signExtend 64
  let out := fun (m : Main) (y : Word) => m.result f (some ⟨y, tyPtr⟩) (some ⟨y, tyPtr⟩)
  if (leastOf f ≤ r ∧ r ≤ greatestOf f) ∧ v = x then out m v
  else
    let m := m.set (F.CTXTAB_FPSTICKY_IOV f.ctx.toNat) 1
    if f.trap then m.parkOp f fcIntOverflow f.i.opc.toNat 0
    else out m (if f.sat then BitVec.ofInt 64 (if r < 0 then leastOf f else greatestOf f) else v)

/-- The same value of a TYPE to both destinations. -/
def Main.gives (m : Main) (f : Firing) (x : Word) (t : BitVec 4) : Main := m.result f (some ⟨x, t⟩) (some ⟨x, t⟩)

/-- R119: the shift count. -/
def countOf (f : Firing) : Nat := (f.right.value.extractLsb' 0 6).toNat

end Sys2Proof.Machine

namespace Sys2Proof.Machine

/-- R118: the divider of a PE pair has no divide in progress. -/
def Main.idleDiv (m : Main) (f : Firing) (p : Fin 4) : Prop :=
  ∀ d ∈ m.tuft.divs, ¬ (d.die = f.die ∧ d.tuft = f.tuft ∧ d.pair = p)

/-- A divide starts on an idle divider and is counted (R118, R191). -/
def Main.startDiv (m : Main) (f : Firing) (p : Fin 4) : Main :=
  Main.bump { m with tuft := { m.tuft with divs := m.tuft.divs ++ [{ die := f.die, tuft := f.tuft, pair := p, cur := f, queue := [] }] } }
    (F.TUFT_DIVSTAT_DIVS f.die.val f.tuft.val)

end Sys2Proof.Machine

namespace Sys2Proof.Machine

/-- R176 to R178: an FP operation that does not trap: it is counted in its epoch, its flags are recorded, and its results leave. -/
def Main.fpGives (m : Main) (f : Firing) (ls : List Lane) (o0 o1 : Opnd) : Main :=
  ((m.countFp f).fpFlags f (lanesFlags ls)).result f (some o0) (some o1)

/-- R177, R178: no lane traps: FLUSH is in force, or no operand is subnormal and no result tiny. -/
def noTrap (m : Main) (f : Firing) (ls : List Lane) : Prop :=
  m.fpTrapMode f = false ∨ ∀ l ∈ ls, l.subin = false ∧ l.out.tiny = false

/-- R169, R177, R178: what an FP operation does on n operands, when each lane computes g in the effective rounding direction: result and flags, or the
trap. o0 and o1 make the results for DEST0 and DEST1 from the lanes. -/
def FpDoes (c : Firing → Instr) (op : Op) (lanes : Nat → Firing → List Lane) (o0 o1 : Firing → List Lane → Opnd) : Prop :=
  ∀ (s : State) (f : Firing), Executes s.main f op →
    let n := s.main.executed f
    let ls := lanes (s.main.rmOf f) f
    (noTrap s.main f ls → Does (c f) s (n.fpGives f ls (o0 f ls) (o1 f ls))) ∧
    (∀ d, s.main.fpTrapMode f = true → trapDetail ls (s.main.rmOf f) f.i.opc.toNat = some d →
      Does (c f) s ((n.countFp f).fpTrap f d))

/-- R174: what an operation on the bits alone does: no flag, no trap. -/
def FpBitsDoes (c : Firing → Instr) (op : Op) (g : Fmt → Nat → Nat → Nat) (typ : Firing → BitVec 4) : Prop :=
  ∀ (s : State) (f : Firing), Executes s.main f op →
    let a := f.left.value.toNat
    let b := f.right.value.toNat
    let v := if f.fs then g b32 (a % 2 ^ 32) (b % 2 ^ 32) + g b32 (a / 2 ^ 32) (b / 2 ^ 32) * 2 ^ 32 else g b64 a b
    Does (c f) s (((s.main.executed f).countFp f).gives f (w64 v) (typ f))

/-- TYPE FP64, or FP32X2 with S (R169). -/
def fpType (f : Firing) : BitVec 4 := if f.fs then tyFp32 else tyFp64

end Sys2Proof.Machine

namespace Sys2Proof.Machine

/-- An encoding of a format that is a finite number. -/
def Fmt.finite (k : Fmt) (x : Nat) : Bool := decide (x < 2 ^ k.width) && !k.isNan x && !k.isInf x

/-- The signed value of a finite encoding in units of 2^lo. -/
def Fmt.signed (k : Fmt) (x : Nat) (lo : Int) : Int :=
  let v : Int := (k.mag x * 2 ^ (k.exp x - lo).toNat : Nat)
  if k.signOf x then -v else v

/-- R170: r is the value num ÷ den × 2^lo, of a sign, as a rounding direction rounds it: exact when it sets no flag, within one unit of its last
place, on the side that the direction gives or within half a unit; a tie goes to the even one (RNE) or away from zero (RNA). -/
def Fmt.Rounded (k : Fmt) (rm : Nat) (s : Bool) (r : FpOut) (num den : Nat) (lo : Int) : Prop :=
  let got := k.mag r.bits * 2 ^ (k.exp r.bits - lo).toNat
  let ulp := 2 ^ (k.exp r.bits - lo).toNat
  k.signOf r.bits = s ∧ (r.flags = 0 ↔ got * den = num) ∧ num < (got + ulp) * den ∧ got * den < num + ulp * den ∧
  (rm = 1 → got * den ≤ num) ∧ (rm = 2 → (s = true → num ≤ got * den) ∧ (s = false → got * den ≤ num)) ∧
  (rm = 3 → (s = true → got * den ≤ num) ∧ (s = false → num ≤ got * den)) ∧
  (rm = 0 ∨ rm = 4 → 2 * num ≤ (2 * got + ulp) * den ∧ 2 * got * den ≤ 2 * num + ulp * den) ∧
  (rm = 0 → 2 * num = (2 * got + ulp) * den ∨ 2 * got * den = 2 * num + ulp * den → k.mag r.bits % 2 = 0) ∧
  (rm = 4 → 2 * num ≠ (2 * got + ulp) * den)

/-- R174: the result of an FP comparison: BOOL, or all ones in the lanes where it is true. -/
def fpTruth (f : Firing) (ls : List Lane) : Opnd :=
  let full := fun b => if b = 1 then 0xFFFFFFFF else 0
  if f.fs then ⟨w64 (full (laneBits ls 0) + full (laneBits ls 1) * 2 ^ 32), tyInt⟩ else ⟨w64 (laneBits ls 0), tyBool⟩

end Sys2Proof.Machine

namespace Sys2Proof.Machine

/-- A request joins those that its tuft has outstanding (R124). -/
def Main.asks (m : Main) (r : MemReq) : Main := { m with req := { m.req with reqs := m.req.reqs ++ [r] } }

/-- A request is none of those outstanding, and none of those held at a bank, any more. -/
def Main.unasked (m : Main) (r : MemReq) : Main :=
  Main.unhold { m with req := { m.req with reqs := m.req.reqs.erase r } } (.request r)

/-- R124, R261: an outstanding request of memory whose target admits it, and whose bank releases no other request first. -/
def Main.Served (m : Main) (r : MemReq) : Prop :=
  r ∈ m.req.reqs ∧ isRegs r.pa = false ∧ m.gate r.id r.pa r.op.needs.2 = .go ∧ ∀ x, m.heldFirst r.pa = some x → x = .request r

end Sys2Proof.Machine

namespace Sys2Proof.Machine

/-- R125, R140, R350: a request of a context for an operation on a runnel that the engine of its die serves: the die does work and is not lost, the runnel is
enabled, the context is the endpoint that the operation needs, the runnel has no push delivery if it is a RECV, and the block has one copy. -/
def Main.rnReaches (m : Main) (f : Firing) (o : Op) (d i : Nat) : Prop :=
  m.reaches f.die.val d = true ∧ m.live (.runnel d i) = true ∧
  (if o.producer then m.rnProd d i else m.rnCons d i) = (0, f.ctx.toNat) ∧ (o = .recv → m.rnPush d i = false) ∧ m.isPaired f = false

/-- The next serial of the producer's sequence of a runnel is taken (R141, R142). -/
def Main.tookSerial (m : Main) (d i : Nat) : Main := m.set (F.RUNNEL_SEQ_SER d i) ((m.get (F.RUNNEL_SEQ_SER d i) + 1) % 2 ^ 16)

/-- R129, R142: the operand is a PKT handle of the open packet of a runnel as it stands. -/
def Opnd.pktOf (o : Opnd) (p : OpenPkt) (d i : Nat) : Prop :=
  o.isControl 0x10 = true ∧ bitsOf o.value.toNat 57 7 = 0 ∧ runnelId (bitsOf o.value.toNat 8 17) = some (d, i) ∧ p.handles o = true

end Sys2Proof.Machine

namespace Sys2Proof.Machine

/-- R223: staging of a changeover slot begins: what the last run left is cleared, and the device goes from RUN to CHANGEOVER (R518). -/
def Main.chgBegin (m : Main) (k : Nat) : Main :=
  let m := (((m.set (F.CHG_STAT_STATE k) 1).set (F.CHG_STAT_LATE k) 0).set (F.CHG_STAT_ERR k) 0).set (F.CHG_STAT_ERRIDX k) 0
  let m := m.putChg { m.chg k with entries := [], bad := none }
  if m.mode = 4 then m.enterMode 5 2 else m

end Sys2Proof.Machine

namespace Sys2Proof.Machine

/-- R443, R444: a command carries the measurement of a KIND. Where the object in hand is of another kind, or no run is in progress, nothing happens; where the preconditions
do not hold the object is REFUSED; else act writes its entry, and the run goes on; the receivers under stimulus follow (R442). -/
def Measures (c : Instr) (kind : Nat) (act : Main → Nat → Nat → Nat → Main) : Prop :=
  ∀ s : State, ((∀ x, s.main.survCur = some x → x.1 ≠ kind) → Does c s s.main) ∧
    (∀ g i param, s.main.survCur = some (kind, g, i, param) →
      (s.survReady kind i param = false → Does c s (s.main.survEntry 2 0 0 0).survNext.survSync) ∧
      (s.survReady kind i param = true → Does c s (act s.main g i param).survNext.survSync))

end Sys2Proof.Machine

namespace Sys2Proof

open Sys2Proof.Machine

/-- The commands that take a request packet of the island, with the CODE that each takes (R484). -/
def islandRequests : List (Instr × Nat) :=
  [(.heartbeat, 0x01), (.islandStatusRequest, 0x02), (.sto, 0x10), (.ss1, 0x11), (.ss2, 0x12), (.sos, 0x13), (.slsLower, 0x14), (.brakeApply, 0x15),
   (.gateClose, 0x16), (.sdi, 0x17), (.stoRelease, 0x40), (.sosRelease, 0x41), (.slsRaise, 0x42), (.brakeRelease, 0x43), (.gateOpen, 0x44),
   (.sdiOff, 0x45), (.psetBegin, 0x80), (.psetData, 0x81), (.psetCommit, 0x82), (.psetAbort, 0x83)]

end Sys2Proof

namespace Sys2Proof.Machine

/-- The words of a packet that is not empty (R483). -/
def pktWords (pkt : List Opnd) : List Nat := (pkt.filter (fun o => o.typ != tyEmpty)).map (fun o => o.value.toNat)

/-- R483: the words have the length that NPAY gives, and the zero bits of the check word are zero. -/
def framed (ws : List Nat) : Prop :=
  2 ≤ ws.length ∧ ws.length = bitsOf (ws.headD 0) 16 8 + 2 ∧ bitsOf (ws.headD 0) 16 8 ≤ 64 ∧ bitsOf (ws.getLastD 0) 16 16 = 0

/-- R483: the CRC-32 of the check word is right. -/
def crcRight (ws : List Nat) : Prop :=
  bitsOf (ws.getLastD 0) 32 32 = crc32 ((ws.take (ws.length - 1)).flatMap (leBytes 8) ++ leBytes 2 (bitsOf (ws.getLastD 0) 0 16))

/-- R483: a SEQ that the island accepts. -/
def Island.seqRight (i : Island) (seq : Nat) : Prop :=
  ∀ r, i.rseq = some r → 1 ≤ (seq + 65536 - r) % 65536 ∧ (seq + 65536 - r) % 65536 ≤ 32767

/-- R485: what every permission on a channel needs: RUN, no HOLD, no input that demands it with an action other than SLS select and RESET,
no SS1 or SS2 running. -/
def Island.permitted (i : Island) (d : Nat) : Prop :=
  i.st = 2 ∧ i.hold = false ∧ (∀ n, n < 32 → i.demands n = true → i.inAct n ≠ 5 → i.inAct n ≠ 6 → i.inNames n d = false) ∧
  (i.ch d).ss1 = none ∧ (i.ch d).ss2 = none

/-- The island after a request of SEQ seq has been accepted (R467, R483). -/
def Island.accepted (i : Island) (seq : Nat) : Island := { i with rseq := some seq, hbAt := i.t }

/-- R465, R467, R474, R477: the safe state of the island holds together. Outside RUN every STO pair is asserted, every brake applied and every
gate closed; a channel's gate is open only while its STO is released; an asserted STO ends its running functions; a released brake belongs to
a channel whose STO is released; under HOLD every gate is closed; a parameter set is active in RUN, and none before. -/
structure Island.Safe (i : Island) : Prop where
  channels : i.chs.length = 16
  inputs : i.ins.length = 32
  brakes : i.brk.length = 8
  groups : i.gates < 2 ^ 17
  states : i.st ≤ 3
  outside : i.st ≠ 2 → (∀ d, d < 16 → (i.ch d).sto = true) ∧ (∀ k, k < 8 → (i.brk.getD k (false, 0)).1 = false) ∧ i.gates = 0
  gated : ∀ d, d < 16 → i.gate d = true → (i.ch d).sto = false
  ended : ∀ d, d < 16 → (i.ch d).sto = true → (i.ch d).ss1 = none ∧ (i.ch d).ss2 = none ∧ (i.ch d).sos = none
  braked : ∀ k, k < 8 → (i.brk.getD k (false, 0)).1 = true → ∃ d, d < 16 ∧ i.brkCh k = some d ∧ (i.ch d).sto = false
  held : i.hold = true → i.gates = 0
  active : (i.st = 2 → i.pset.isSome = true) ∧ (i.st < 2 → i.pset = none)

end Sys2Proof.Machine
end

