-- ==== Sys2Proof/Certificates/Slice0/Obligations.lean ====
section
/-! DEFINITION. Statements for the provers: what the commands of each family do, with the frame in every next state that is written as an
update of the state before, and what every step keeps. -/

open Sys2Proof Sys2Proof.Machine

/-- A step takes the command in front of the queue and performs it on the queue's rest.
With no command waiting the block idles (DESIGN CHOICE, log 27). -/
def Obligations.StepRunsFront : Prop :=
  (∀ (c : Instr) (q : List Instr) (s : State), step { s with pending := c :: q } = exec c { s with pending := q }) ∧
  (∀ s : State, s.pending = [] → step s = .next s)

/-- R79, R421, R465, R518: what reset leaves: no command, no register away from its reset value, mode RESET (code 0), every context
FREE, wall time 0, and the island in INIT with STO asserted on every channel. The part (a D8) and empty memory are the model's choices
(log 1, log 2).
R465: the island is in its safe state at reset. -/
def Obligations.ResetState : Prop :=
  (State.reset.pending = [] ∧ Main.reset.regs = [] ∧ Main.reset.get F.MODE_CUR_MODE = 0 ∧ (∀ c : Nat, Main.reset.run c = 0) ∧
  Main.reset.wall.ns = 0 ∧ State.reset.isl.st = 0 ∧ (∀ c ∈ State.reset.isl.chs, c.sto = true) ∧ Main.reset.mem.cells = []) ∧
  (State.reset.isl.Safe)

/-- R11: the register file. A written field reads back what was written, in its width; every other field keeps its value; and the map
stays in rising order. -/
def Obligations.FieldWrite : Prop :=
  (∀ (m : Main) (f : Fld) (v : Nat), (m.set f v).get f = v % 2 ^ f.w) ∧
  (∀ (m : Main) (f g : Fld) (v : Nat), g.key ≠ f.key → (m.set f v).get g = m.get g) ∧
  (∀ (m : Main) (f : Fld) (v : Nat), Rising m.regs → Rising (m.set f v).regs)

/-- R35, R36, R41, R43, R44, R52, R53, R579: a token whose checks are good and that the placement entry of its router sends to an ACTIVE die arrives at that die's
tuft, and is counted by the router of its ODIE unless it stays in the tuft that made it (log 4). One created on the field die for a paired block
and not yet copied arrives at both copies, with SIDE 0 and SIDE 1. One whose check fails at that router, or whose context is FREE or BROKEN, is
discarded and counted. One with a reserved TYPE or WSEL is parked with BAD_TAG, one whose block has no VALID entry with NO_PLACEMENT, one for a die that
is dormant, RESETTING or JOINING with DIE_DORMANT; one for an unpaired block of an isolated die comes back as a DIE_ISOLATED fault token. A token with
SIDE 1 for an unpaired block is dropped and counted in PAIRDROP. In a SOLE context the token goes to the copy of SIDE 0. A corrected CHECK
is counted in TOKERR.CE, and the token goes on. Nothing else changes. -/
def Obligations.TokenRouted : Prop :=
  (∀ (s : State) (t : Token) (via via1 : List Ecc), (∀ c ∈ via ++ via1, c = .ok) → Routable s.main t →
    let e := s.main.entryAt (s.main.routerOf t) t
    plPaired e = false ∨ t.copied = true →
    let n := if s.main.routerOf t = 0 ∨ t.leaves (plDie e t.side) (plTuft e t.side) = true then (s.main.unsent t).bumpRouted (s.main.routerOf t) else s.main.unsent t
    Does (.tokenRoute t ⟨.ok, via, via1⟩) s (n.arrive (fin8 (plDie e t.side)) (fin8 (plTuft e t.side)) t)) ∧
  (∀ (s : State) (t : Token) (via via1 : List Ecc), (∀ c ∈ via ++ via1, c = .ok) → t.odie = 0 → t.copied = false →
    let e := s.main.entryAt 0 t
    let t0 := { t with side := false, copied := true }
    let t1 := { t with side := true, copied := true, replay := none }
    Routable s.main t0 → Routable s.main t1 → plPaired e = true →
    let a := ((s.main.unsent t).bumpRouted 0).arrive (fin8 (plDie e false)) (fin8 (plTuft e false)) t0
    Does (.tokenRoute t ⟨.ok, via, via1⟩) s ((a.bumpRouted 0).arrive (fin8 (plDie e true)) (fin8 (plTuft e true)) t1)) ∧
  (∀ (s : State) (t : Token) (via via1 : List Ecc), t.replay = none → s.main.staysIn t = false →
    Does (.tokenRoute t ⟨.uncorrectable, via, via1⟩) s ((s.main.unsent t).countTokErr (s.main.routerOf t) true)) ∧
  (∀ (s : State) (t : Token) (via via1 : List Ecc), (∀ c ∈ via ++ via1, c = .ok) → t.replay = none → s.main.dead t.ctx.toNat = true → t.pass = false →
    s.main.sole t.ctx.toNat = false → (t.odie = 0 ∨ s.main.dieState t.odie.val ≠ 2) →
    Does (.tokenRoute t ⟨.ok, via, via1⟩) s ((s.main.unsent t).discard (s.main.routerOf t))) ∧
  (∀ (s : State) (t : Token) (via via1 : List Ecc), s.main.sole t.ctx.toNat = false → s.main.dead t.ctx.toNat = false →
    (t.odie = 0 ∨ s.main.dieState t.odie.val ≠ 2) →
    let e := s.main.entryAt (s.main.routerOf t) t
    let n := s.main.unsent t
    (12 ≤ t.typ.toNat ∨ (49 ≤ t.wsel.toNat ∧ t.wsel.toNat ≤ 61) →
      Does (.tokenRoute t ⟨.ok, via, via1⟩) s (n.parkTok t fcBadTag (t.typ.toNat + 16 * t.wsel.toNat) t.odie t.otuft false)) ∧
    (t.typ.toNat < 12 → (t.wsel.toNat < 49 ∨ 61 < t.wsel.toNat) →
      (plValid e = false →
        Does (.tokenRoute t ⟨.ok, via, via1⟩) s (n.parkTok t fcNoPlacement (t.ia.extractLsb' 12 8).toNat t.odie t.otuft false)) ∧
      (plValid e = true → plPaired e = false → t.side = true → t.replay = none →
        Does (.tokenRoute t ⟨.ok, via, via1⟩) s (n.pairDrop (s.main.routerOf t))) ∧
      (plValid e = true → plPaired e = false → t.side = false → s.main.dieState (plDie e false) = 2 →
        Does (.tokenRoute t ⟨.ok, via, via1⟩) s (n.tokFault t fcDieIsolated (plDie e false) 0 0)) ∧
      (plValid e = true → plPaired e = false ∨ t.copied = true → (t.side = true → plPaired e = true) → 4 ≤ s.main.dieState (plDie e t.side) →
        Does (.tokenRoute t ⟨.ok, via, via1⟩) s (n.parkTok t fcDieDormant (plDie e t.side) 0 0 false)))) ∧
  (∀ (s : State) (t : Token) (via via1 : List Ecc) (m : Main), s.main.staysIn t = false →
    (Does (.tokenRoute t ⟨.corrected, via, via1⟩) s m ↔
      Does (.tokenRoute t ⟨.ok, via, via1⟩) { s with main := s.main.countTokErr (s.main.routerOf t) false } m)) ∧
  (∀ (s : State) (t : Token) (via via1 : List Ecc), (∀ c ∈ via, c = .ok) → s.main.sole t.ctx.toNat = true → s.main.dead t.ctx.toNat = false →
    (t.odie = 0 ∨ s.main.dieState t.odie.val ≠ 2) → t.typ.toNat < 12 → (t.wsel.toNat < 49 ∨ 61 < t.wsel.toNat) →
    let e := s.main.entryAt (s.main.routerOf t) t
    plValid e = true → s.main.dieState (plDie e false) = 1 →
    let n := if s.main.routerOf t = 0 ∨ t.leaves (plDie e false) (plTuft e false) = true then (s.main.unsent t).bumpRouted (s.main.routerOf t) else s.main.unsent t
    Does (.tokenRoute t ⟨.ok, via, via1⟩) s (n.arrive (fin8 (plDie e false)) (fin8 (plTuft e false)) { t with side := false }))

/-- R41, R57, R59, R60, R61, R62, R63, R66, R67, R68, R71, R47: a token at its tuft that is not gated, with a good CHECK, whose lookup the bank serves now. On the only port of its operation it fires at once; if it completes the set that an
entry of the store holds, the entry is released and the set fires, the operands standing by port whatever their order of arrival; if it
does not, the tuft's copy of the context's soakaway occupancy is 0 and its set of the store has a free way, it is inserted. Where the set is full, its
oldest entry moves to the spill buffer and the token takes its way (R66); where the spill fails, the token is not inserted (R71); while the spill buffer
is full it waits. A token for a port that the entry holds already is parked with DUPLICATE_OPERAND (R62), one for a port that its operation does not accept
with BAD_PORT (R60); one that leaves its set incomplete joins the entry (R61). An entry with an uncorrectable error is lost and the token with it (R59, R356). A CHECK that
cannot be corrected loses the token, one that can is counted (R41). A key that misses while the soakaway may hold it starts a probe, unless 32 are outstanding
(R67), or waits for the probe of its key (R63). Nothing else changes.
R47: two tokens are operands of the same firing only when their matching keys are equal: an entry that a token finds has the token's
CTX, FRAME, IA and SIDE, whatever its TYPE, WSEL, STAMP and PRIO. -/
def Obligations.TokenMatched : Prop :=
  ((∀ (s : State) (d u : Fin 8) (t : Token) (r : OpRow) (w : Word) (lit : Option Word) (cs : List Word), AtTuft s.main d u t r w lit cs →
    portsOf r (IWord.ofWord w) = [t.port] → s.main.tuftRun d u t.ctx.toNat ≠ 2 →
    Does (.tokenMatch d u t {}) s
      (((s.main.unarrived d u t).noteFaultToken t).addReady (mkFiring d u (MsEntry.ofToken d u t) w lit cs t.wsel t.pass))) ∧
  (∀ (s : State) (d u : Fin 8) (t : Token) (r : OpRow) (w : Word) (lit : Option Word) (cs : List Word) (e : MsEntry),
    AtTuft s.main d u t r w lit cs → portsOf r (IWord.ofWord w) ≠ [t.port] → s.main.servedBefore d u t = false → s.main.tuftRun d u t.ctx.toNat ≠ 2 →
    s.main.tuft.ms.find? (fun x => x.hasKey d u t) = some e → e.err = 0 → e.at_ t.port = none →
    (∀ p ∈ portsOf r (IWord.ofWord w), p = t.port ∨ (e.at_ p).isSome = true) →
    let n := (s.main.unarrived d u t).noteFaultToken t
    Does (.tokenMatch d u t {}) s
      (Main.addReady { n with tuft := { n.tuft with ms := n.tuft.ms.erase e } }
        (mkFiring d u (e.put t.port { value := t.value, typ := t.typ } t.prio) w lit cs t.wsel t.pass))) ∧
  (∀ (s : State) (d u : Fin 8) (t : Token) (r : OpRow) (w : Word) (lit : Option Word) (cs : List Word),
    AtTuft s.main d u t r w lit cs → portsOf r (IWord.ofWord w) ≠ [t.port] → s.main.servedBefore d u t = false →
    s.main.tuft.ms.find? (fun x => x.hasKey d u t) = none →
    (∀ p ∈ s.main.tuft.probes, ¬ (p.die = d ∧ p.tuft = u ∧ p.tok.ctx = t.ctx ∧ p.tok.frame = t.frame ∧ p.tok.ia = t.ia ∧ p.tok.side = t.side)) →
    let n := ((s.main.unarrived d u t).noteFaultToken t).occArrive (8 * d.val + u.val) t.ctx.toNat
    n.occCopy (8 * d.val + u.val) t.ctx.toNat = 0 →
    (let used := s.main.waysUsed d u (setIndex t.ctx t.frame t.ia)
     used.1 + used.2 < 4) →
    Does (.tokenMatch d u t {}) s (n.msInsert (MsEntry.ofToken d u t) false)) ∧
  (∀ (s : State) (d u : Fin 8) (t : Token) (r : OpRow) (w : Word) (lit : Option Word) (cs : List Word) (e : MsEntry),
    AtTuft s.main d u t r w lit cs → portsOf r (IWord.ofWord w) ≠ [t.port] → s.main.servedBefore d u t = false →
    s.main.tuft.ms.find? (fun x => x.hasKey d u t) = some e → e.err = 0 → (e.at_ t.port).isSome = true →
    Does (.tokenMatch d u t {}) s (((s.main.unarrived d u t).noteFaultToken t).parkTok t fcDuplicate t.port.toNat d u false)) ∧
  (∀ (s : State) (d u : Fin 8) (t : Token) (r : OpRow) (w : Word) (lit : Option Word) (cs : List Word) (v : MsEntry),
    AtTuft s.main d u t r w lit cs → portsOf r (IWord.ofWord w) ≠ [t.port] → s.main.servedBefore d u t = false →
    s.main.tuft.ms.find? (fun x => x.hasKey d u t) = none →
    (∀ p ∈ s.main.tuft.probes, ¬ (p.die = d ∧ p.tuft = u ∧ p.tok.ctx = t.ctx ∧ p.tok.frame = t.frame ∧ p.tok.ia = t.ia ∧ p.tok.side = t.side)) →
    let n := ((s.main.unarrived d u t).noteFaultToken t).occArrive (8 * d.val + u.val) t.ctx.toNat
    n.occCopy (8 * d.val + u.val) t.ctx.toNat = 0 →
    (let used := n.waysUsed d u (setIndex t.ctx t.frame t.ia)
     4 ≤ used.1 + used.2) →
    n.oldest d u (setIndex t.ctx t.frame t.ia) = some v → v.err = 0 →
    (n.flag (F.CTXTAB_SOAK_EN v.ctx.toNat) = true → n.soakFull v = false → (n.spillOf d u).length < 16 →
      let k := Main.bump { n with tuft := { n.tuft with ms := n.tuft.ms.erase v, spill := n.tuft.spill ++ [v] } } (F.TUFT_MSSPILL_SPILLS d.val u.val)
      let k := k.occChange (8 * d.val + u.val) v.ctx.toNat true
      Does (.tokenMatch d u t {}) s
        ((k.peak (F.CTXTAB_SOAKOCC_PEAK v.ctx.toNat) (k.get (F.CTXTAB_SOAKOCC_OCC v.ctx.toNat))).msInsert (MsEntry.ofToken d u t) false)) ∧
    (n.flag (F.CTXTAB_SOAK_EN v.ctx.toNat) = false ∨ n.soakFull v = true → Does (.tokenMatch d u t {}) s (n.spillFailed d u t)) ∧
    (n.flag (F.CTXTAB_SOAK_EN v.ctx.toNat) = true → n.soakFull v = false → 16 ≤ (n.spillOf d u).length →
      Does (.tokenMatch d u t {}) s (n.stallTok d u t)))) ∧
  (∀ (s : State) (d u : Fin 8) (t : Token), t.replay = none →
    Does (.tokenMatch d u t { chk := .uncorrectable }) s ((s.main.unarrived d u t).countTokErr d.val true)) ∧
  (∀ (s : State) (d u : Fin 8) (t : Token) (r : OpRow) (w : Word) (lit : Option Word) (cs : List Word), AtTuft s.main d u t r w lit cs →
    portsOf r (IWord.ofWord w) = [t.port] → s.main.tuftRun d u t.ctx.toNat ≠ 2 →
    Does (.tokenMatch d u t { chk := .corrected }) s
      ((((s.main.unarrived d u t).countTokErr d.val false).noteFaultToken t).addReady (mkFiring d u (MsEntry.ofToken d u t) w lit cs t.wsel t.pass))) ∧
  (∀ (s : State) (d u : Fin 8) (t : Token) (r : OpRow) (w : Word) (lit : Option Word) (cs : List Word),
    s.main.dead t.ctx.toNat = false → t.gated = false → t.typ.toNat < 12 → (t.wsel.toNat < 49 ∨ 61 < t.wsel.toNat) →
    (let e := s.main.entryAt d.val t
     (plValid e = false ∨ (plDie e t.side = d.val ∧ plTuft e t.side = u.val)) ∧ s.main.fetch d u (plSlot e t.side) t.ia = .ok r w lit cs) →
    t.port ∉ portsOf r (IWord.ofWord w) →
    Does (.tokenMatch d u t {}) s ((s.main.unarrived d u t).parkTok t fcBadPort (t.port.toNat + r.opc * 4) d u false)) ∧
  (∀ (s : State) (d u : Fin 8) (t : Token) (r : OpRow) (w : Word) (lit : Option Word) (cs : List Word) (e : MsEntry),
    AtTuft s.main d u t r w lit cs → portsOf r (IWord.ofWord w) ≠ [t.port] → s.main.servedBefore d u t = false →
    s.main.tuft.ms.find? (fun x => x.hasKey d u t) = some e →
    let n := (s.main.unarrived d u t).noteFaultToken t
    (e.err = 0 → e.at_ t.port = none → (∃ p ∈ portsOf r (IWord.ofWord w), (e.join t).at_ p = none) →
      Does (.tokenMatch d u t {}) s { n with tuft := { n.tuft with ms := n.tuft.ms.erase e ++ [e.join t] } }) ∧
    (e.err = 2 → n.isFaultToken t = false → Does (.tokenMatch d u t {}) s ((n.entryLost e).discard d.val))) ∧
  (∀ (s : State) (d u : Fin 8) (t : Token) (r : OpRow) (w : Word) (lit : Option Word) (cs : List Word),
    AtTuft s.main d u t r w lit cs → portsOf r (IWord.ofWord w) ≠ [t.port] → s.main.servedBefore d u t = false →
    s.main.tuft.ms.find? (fun x => x.hasKey d u t) = none →
    let n := (s.main.unarrived d u t).noteFaultToken t
    (∀ p, s.main.tuft.probes.find? (fun p => p.die == d && p.tuft == u && p.tok.ctx == t.ctx && p.tok.frame == t.frame && p.tok.ia == t.ia && p.tok.side == t.side) = some p →
      Does (.tokenMatch d u t {}) s
        { n with tuft := { n.tuft with probes := n.tuft.probes.map (fun q => if q = p then { p with waiting := p.waiting ++ [t] } else q) } }) ∧
    ((∀ p ∈ s.main.tuft.probes, ¬ (p.die = d ∧ p.tuft = u ∧ p.tok.ctx = t.ctx ∧ p.tok.frame = t.frame ∧ p.tok.ia = t.ia ∧ p.tok.side = t.side)) →
      let k := n.occArrive (8 * d.val + u.val) t.ctx.toNat
      k.occCopy (8 * d.val + u.val) t.ctx.toNat ≠ 0 →
      (32 ≤ (s.main.tuft.probes.filter (fun p => p.die == d && p.tuft == u)).length → Does (.tokenMatch d u t {}) s (k.stallTok d u t)) ∧
      ((s.main.tuft.probes.filter (fun p => p.die == d && p.tuft == u)).length < 32 →
        let b := k.bump (F.TUFT_MSPROBE_PROBES d.val u.val)
        Does (.tokenMatch d u t {}) s
          { b with tuft := { b.tuft with probes := b.tuft.probes ++ [{ die := d, tuft := u, tok := t, waiting := [] }] } }))) ∧
  (∀ (m : Main) (d u : Fin 8) (set : BitVec 12) (v : MsEntry), m.oldest d u set = some v →
    v ∈ m.tuft.ms ∧ v.die = d ∧ v.tuft = u ∧ setIndex v.ctx v.frame v.ia = set ∧
    ∀ e ∈ m.tuft.ms, e.die = d → e.tuft = u → setIndex e.ctx e.frame e.ia = set → v.age ≤ e.age) ∧
  (∀ (m : Main) (d u : Fin 8) (t : Token) (e : MsEntry), m.tuft.ms.find? (fun x => x.hasKey d u t) = some e →
    e.ctx = t.ctx ∧ e.frame = t.frame ∧ e.ia = t.ia ∧ e.side = t.side ∧ e.die = d ∧ e.tuft = u)

/-- R66, R67, R65, R71: the soakaway. A spill writes its entry to the first free slot of its home or next bucket and leaves the spill buffer; an entry that
is written and read back has the key, the operands and the AGE that it had. A probe that finds nothing inserts its token, and a
probe that finds the entry of its key with the missing operand takes it, clears its VALID bit and fires. A spill that fails parks the arriving
token: the first one sets SOAK_FULL and sends a fault token, each further one counts in FULLPARK. -/
def Obligations.SoakawayKeepsEntries : Prop :=
  (∀ (s : State) (d u : Fin 8) (i : Fin 32) (e : MsEntry) (m : Main) (pa : Nat), (s.main.spillOf d u)[i.val]? = some e →
    s.main.readBuckets (ctxId e.ctx.toNat d.val) (s.main.soakSlots e.ctx e.frame e.ia) = .ok m →
    (s.main.soakSlots e.ctx e.frame e.ia).find? (fun p => !m.soakValid p) = some pa →
    (m.storeWords (ctxId e.ctx.toNat d.val) pa e.soakWords).1 = true →
    let n := (m.storeWords (ctxId e.ctx.toNat d.val) pa e.soakWords).2
    Does (.spillWrite d u i) s (Main.soleSlot { n with tuft := { n.tuft with spill := n.tuft.spill.erase e } } e.ctx.toNat pa)) ∧
  (∀ (m : Main) (c pa : Nat), (m.sole c = false → m.soleSlot c pa = m) ∧ (m.soleSlot c pa).mem = m.mem ∧ (m.soleSlot c pa).regs = m.regs) ∧
  (∀ (m : Main) (d u : Fin 8) (t : Token), let c := t.ctx.toNat
    let k := m.bump (F.TUFT_MSSPILL_FAILS d.val u.val)
    (k.flag (F.CTXTAB_STATE_SOAK_FULL c) = false → m.spillFailed d u t = (k.set (F.CTXTAB_STATE_SOAK_FULL c) 1).parkTok t fcSoakFull 0 d u false) ∧
    (k.flag (F.CTXTAB_STATE_SOAK_FULL c) = true → let r := k.parkTokH t fcSoakFull 0 d u true
      m.spillFailed d u t = if r.1 = 0 then r.2 else r.2.bump (F.CTXTAB_SOAKOCC_FULLPARK c))) ∧
  (∀ (d u : Fin 8) (e : MsEntry), e.die = d → e.tuft = u → e.err = 0 → e.prio = 0 → e.age < 2 ^ 32 → e.vals.length = 1 ∨ e.vals.length = 2 →
    MsEntry.ofSoak d u (e.soakWords.getD 0 0) (e.soakWords.getD 1 0) (e.soakWords.getD 2 0) (e.soakWords.getD 3 0) = e) ∧
  (∀ (s : State) (d u : Fin 8) (i : Fin 32) (p : Probe) (m : Main) (r : OpRow) (w : Word) (lit : Option Word) (cs : List Word),
    (s.main.tuft.probes.filter (fun q => q.die == d && q.tuft == u))[i.val]? = some p → p.waiting = [] →
    let t := p.tok
    let slots := s.main.soakSlots t.ctx t.frame t.ia
    let n := { s.main with tuft := { s.main.tuft with probes := s.main.tuft.probes.erase p } }
    n.readBuckets (ctxId t.ctx.toNat d.val) slots = .ok m → m.dead t.ctx.toNat = false → m.sole t.ctx.toNat = false →
    m.fetchFor d u t = .instr r w lit cs → m.tuft.spill.find? (fun e => e.hasKey d u t) = none →
    (∀ k, (∀ pa ∈ slots, m.soakValid pa = false) → m.insertTok d u t = .room k → Does (.soakawayProbe d u i .ok) s k) ∧
    (∀ pa k, t.replay = none →
      slots.find? (fun pa => m.soakValid pa && (m.soakEntry d u pa).ctx == t.ctx && (m.soakEntry d u pa).frame == t.frame &&
        (m.soakEntry d u pa).ia == t.ia && (m.soakEntry d u pa).side == t.side) = some pa →
      let e := m.soakEntry d u pa
      e.at_ t.port = none → (∀ q ∈ portsOf r (IWord.ofWord w), q = t.port ∨ (e.at_ q).isSome = true) →
      (m.bump (F.TUFT_MSPROBE_HITS d.val u.val)).soakClear (ctxId t.ctx.toNat d.val) (8 * d.val + u.val) t.ctx.toNat pa = .ok k →
      k.tuftRun d u t.ctx.toNat ≠ 2 →
      Does (.soakawayProbe d u i .ok) s
        (k.addReady (mkFiring d u (e.put t.port { value := t.value, typ := t.typ } t.prio) w lit cs t.wsel t.pass))))

/-- R85, R86, R89, R90, R93, R110, R114, R148: instruction words. The fields of a slot stand where R85 puts them, for every value of every field, and a slot has no bits
beside them. Every operation has one row of the opcode map and the row has it. A word decodes to the row of its OPC and to no other, and to none when its OPC has no row, its TAGOP is 6 or 7
or one that its operation does not take, a FLAGS bit is 1 that its operation does not define, MODE.LIT stands on a monadic operation, or RETURN's DEST0 lies outside its block. -/
def Obligations.InstructionWords : Prop :=
  (∀ i : IWord, IWord.ofWord i.toWord = i) ∧ (∀ w : Word, (IWord.ofWord w).toWord = w) ∧
  (∀ i : IWord, i.toWord.toNat = i.opc.toNat * 2 ^ 54 + i.mode.toNat * 2 ^ 50 + i.tagop.toNat * 2 ^ 47 + i.flags.toNat * 2 ^ 44 + i.dest0.toNat * 2 ^ 22 + i.dest1.toNat) ∧
  (∀ o : Op, o.row.op = o ∧ opRowOf o.row.opc = some o.row) ∧
  (∀ (i : IWord) (r : OpRow), decodeOp i = some r → r.op.row = r ∧ r.opc = i.opc.toNat ∧ i.tagop.toNat ≤ 5 ∧ i.flags.toNat &&& (7 - r.flags) = 0) ∧
  (∀ i : IWord, (∀ o : Op, o.row.opc ≠ i.opc.toNat) → decodeOp i = none) ∧
  (∀ i : IWord, 6 ≤ i.tagop.toNat → decodeOp i = none) ∧
  (∀ (i : IWord) (o : Op), o = .retag ∨ o = .loopexit ∨ o = .frameget ∨ o = .return_ → i.opc.toNat = o.row.opc → i.tagop ≠ 0 → decodeOp i = none) ∧
  (∀ i : IWord, i.opc.toNat = Op.return_.row.opc → i.dest0.extractLsb' 14 8 ≠ 0 → decodeOp i = none) ∧
  (∀ (i : IWord) (o : Op), o.row.arity = .monadic → i.opc.toNat = o.row.opc → i.mode.getLsbD 0 = true → decodeOp i = none) ∧
  (∀ (o : Op) (d0 d1 : BitVec 22), o ≠ .const → o ≠ .return_ → decodeOp { opc := BitVec.ofNat 10 o.row.opc, mode := 0, tagop := 0, flags := 0, dest0 := d0, dest1 := d1 } = some o.row) ∧
  (∀ (i : IWord) (r : OpRow), extSlots r i = if r.op = .fan then (i.mode.toNat / 2, false) else if i.mode.getLsbD 0 = true then (1, true) else (0, true))

/-- R49, R50, R51, R81: a placement write. An entry with VALID 0, or one whose dies are populated compute dies, different for a pair, and whose regions
no other valid entry uses, is accepted: the master entry takes its 20 bits, its regions record their side (R246), BUSY is set and the copies are
pending; PLACEMENT_COPY_DONE updates every router's copy and clears BUSY. Any other is refused: the master entry keeps its value and the
refusal and its index are recorded. Context 255 is left alone (R46).
R46, R235, R243, R73, R80, R74, R64, R351, R370, R189, R238: the writes of context registers. RUN moves FREE to ACTIVE or SUSPENDED, and between the last two, and QUIET is 0 while
it is not ACTIVE; a write of BROKEN to
either of those breaks the context with cause SOFTWARE; every other write of it changes nothing. SOAK_FULL is cleared together with FULLPARK. SOAK
is written when OCC is 0 and a soakaway that it enables lies in one die's scratch or in DRAM. PARK's EN, SIZE and BASE are written when no slot is
occupied, a write of 1 to EN sets FREE, and its LOW is cleared by a write of 1. FPCTL holds BUSY until the copies are done, and its RM ignores 5 to 7. The handler boost ends
when its window has passed. -/
def Obligations.PlacementAndContextWrites : Prop :=
  ((∀ (s : State) (i : Fin 65536) (v : Word), i.val < 65280 → s.main.chgNames 2 i.val = [] →
    s.main.placeCheck v.toNat ((s.main.validEntries.filter (fun j => j != i.val)).map s.main.master) = .ok →
    Does (.placementWrite i v) s
      { ((s.main.setMaster i.val v.toNat).recordSides (v.toNat % 2 ^ 20)).set F.CTXTAB_PLACESTAT_BUSY 1 with placing := s.main.placing ++ [i.val] }) ∧
  (∀ (s : State) (i : Fin 65536) (v : Word), i.val < 65280 → s.main.chgNames 2 i.val = [] →
    s.main.placeCheck v.toNat ((s.main.validEntries.filter (fun j => j != i.val)).map s.main.master) = .badDie →
    Does (.placementWrite i v) s ((s.main.set F.CTXTAB_PLACESTAT_BADDIE 1).set F.CTXTAB_PLACESTAT_LASTREF i.val)) ∧
  (∀ (s : State) (i : Fin 65536) (v : Word), i.val < 65280 → s.main.chgNames 2 i.val = [] →
    s.main.placeCheck v.toNat ((s.main.validEntries.filter (fun j => j != i.val)).map s.main.master) = .conflict →
    Does (.placementWrite i v) s ((s.main.set F.CTXTAB_PLACESTAT_CONFLICT 1).set F.CTXTAB_PLACESTAT_LASTREF i.val)) ∧
  (∀ (s : State) (i : Fin 65536) (v : Word), 65280 ≤ i.val → Does (.placementWrite i v) s s.main) ∧
  (∀ (s : State), (∀ j ∈ s.main.placing, j < 65536 ∧ s.main.master j < 2 ^ 20) → ∃ t, exec .placementCopyDone s = .next t ∧ t.main.placing = [] ∧ t.main.get F.CTXTAB_PLACESTAT_BUSY = 0 ∧
    (∀ i d, i ∈ s.main.placing → d ∈ (0 :: s.main.computeDies) → t.main.get (F.ROUTER_PLACE_ENTRY d i) = s.main.master i) ∧
    t.main.mem = s.main.mem ∧ t.main.tok = s.main.tok ∧ t.main.tuft = s.main.tuft ∧ t.isl = s.isl) ∧
  (∀ (m : Main) (v : Nat) (es : List Nat), plValid v = true → (m.placeCheck v es = .ok ↔
    m.compute (plDie v false) = true ∧ (plPaired v = true → m.compute (plDie v true) = true ∧ plDie v true ≠ plDie v false) ∧
    ∀ e ∈ es, ∀ r ∈ plRegions v, r ∉ plRegions e))) ∧
  ((∀ (s : State) (c : BitVec 8) (v : BitVec 2), c ≠ 255 → s.main.chgNames 4 c.toNat = [] →
    ((s.main.run c.toNat = 0 ∧ (v = 1 ∨ v = 2)) ∨ (s.main.run c.toNat = 1 ∧ v = 2) ∨ (s.main.run c.toNat = 2 ∧ v = 1)) →
    Does (.contextRunWrite c v) s
      (if v = 1 then s.main.set (F.CTXTAB_STATE_RUN c.toNat) 1 else (s.main.set (F.CTXTAB_STATE_RUN c.toNat) 2).set (F.CTXTAB_DLSTAT_QUIET c.toNat) 0)) ∧
  (∀ (s : State) (c : BitVec 8), c ≠ 255 → s.main.chgNames 4 c.toNat = [] → s.main.run c.toNat = 1 ∨ s.main.run c.toNat = 2 →
    Does (.contextRunWrite c 3) s (s.main.breakCtx c.toNat causeSoftware 0)) ∧
  (∀ (s : State) (c : BitVec 8) (v : BitVec 2), s.main.chgNames 4 c.toNat = [] → s.main.run c.toNat = 3 ∨ v = 0 → Does (.contextRunWrite c v) s s.main) ∧
  (∀ (s : State) (c : BitVec 8) (v : BitVec 2), s.main.chgNames 4 c.toNat = [] →
    c = 255 ∨ s.main.run c.toNat = 0 ∧ v = 3 ∨ s.main.run c.toNat = 1 ∧ v = 1 ∨ s.main.run c.toNat = 2 ∧ v = 2 → Does (.contextRunWrite c v) s s.main) ∧
  (∀ (s : State) (c : BitVec 8) (v : BitVec 2), s.main.chgNames 4 c.toNat ≠ [] → c ≠ 255 →
    Does (.contextRunWrite c v) s ((s.main.chgNames 4 c.toNat).foldl (fun m k => m.bump (F.CHG_STAT_LOCKHITS k)) s.main)) ∧
  (∀ (s : State) (c : BitVec 8), c ≠ 255 →
    Does (.soakFullClear c) s ((s.main.set (F.CTXTAB_STATE_SOAK_FULL c.toNat) 0).set (F.CTXTAB_SOAKOCC_FULLPARK c.toNat) 0)) ∧
  (∀ (s : State) (c : BitVec 8) (v : Word), c ≠ 255 → s.main.get (F.CTXTAB_SOAKOCC_OCC c.toNat) = 0 →
    (v.getLsbD 0 = false ∨
      s.main.inScratch (bitsOf v.toNat 12 28 * 4096) (2 ^ Nat.min 20 (bitsOf v.toNat 1 5) * 128) = true ∨
      s.main.inDram (bitsOf v.toNat 12 28 * 4096) (2 ^ Nat.min 20 (bitsOf v.toNat 1 5) * 128) = true) →
    Does (.soakWrite c v) s (((s.main.set (F.CTXTAB_SOAK_EN c.toNat) (bitsOf v.toNat 0 1)).set (F.CTXTAB_SOAK_SIZE c.toNat)
      (bitsOf v.toNat 1 5)).set (F.CTXTAB_SOAK_BASE c.toNat) (bitsOf v.toNat 12 28))) ∧
  (∀ (s : State) (c : BitVec 8) (v : Word), c ≠ 255 → s.main.hasParked c.toNat = false →
    let low := if v.getLsbD (F.CTXTAB_PARK_LOW c.toNat).lo = true then s.main.set (F.CTXTAB_PARK_LOW c.toNat) 0 else s.main
    let n := ((low.set (F.CTXTAB_PARK_EN c.toNat) (bitsOf v.toNat 0 1)).set (F.CTXTAB_PARK_SIZE c.toNat)
      (bitsOf v.toNat (F.CTXTAB_PARK_SIZE c.toNat).lo (F.CTXTAB_PARK_SIZE c.toNat).w)).set (F.CTXTAB_PARK_BASE c.toNat) (bitsOf v.toNat 12 28)
    Does (.parkWrite c v) s (if v.getLsbD 0 = true then n.set (F.CTXTAB_PARK_FREE c.toNat) (n.parkSlots c.toNat) else n)) ∧
  (∀ (s : State) (c : BitVec 8) (v : Word), c ≠ 255 →
    let rm := if bitsOf v.toNat 0 3 < 5 then s.main.set (F.CTXTAB_FPCTL_RM c.toNat) (bitsOf v.toNat 0 3) else s.main
    let n := ((rm.set (F.CTXTAB_FPCTL_SUBN c.toNat) (bitsOf v.toNat 3 1)).set
      (F.CTXTAB_FPCTL_CT c.toNat) (bitsOf v.toNat 4 1)).set (F.CTXTAB_FPCTL_BUSY c.toNat) 1
    Does (.fpctlWrite c v) s { n with req := { n.req with fpctlCopy := n.req.fpctlCopy ++ [(c.toNat, s.main.fpctlReg c.toNat)] } }) ∧
  (∀ (s : State) (c : BitVec 8), ∃ t, exec (.fpctlCopyDone c) s = .next t ∧ t.main.get (F.CTXTAB_FPCTL_BUSY c.toNat) = 0 ∧
    (∀ f : Firing, f.ctx = c → f.ctl = none → t.main.fpRm f = s.main.get (F.CTXTAB_FPCTL_RM c.toNat) % 8) ∧ t.main.mem = s.main.mem ∧ t.isl = s.isl ∧
    ∀ d : Nat, d ≠ c.toNat → d < 256 → t.main.fpctlOlds d = s.main.fpctlOlds d) ∧
  (∀ (s : State) (c : BitVec 8), nmGet s.main.req.park.boost c.toNat 0 ≤ s.main.now →
    Does (.handlerBoostExpiry c) s
      { s.main with req := { s.main.req with park := { s.main.req.park with boost := nmDel s.main.req.park.boost c.toNat } } }))

/-- R55, R56, R73, R226: the event router. An event takes the route of its source as it was at its capture. An event whose route is off or whose context
is FREE or BROKEN is dropped and counted. One that does not complete the DIVIDER's count advances PHASE; one that does restarts it and forms a token of
TYPE 6 with the route's CTX, IA, PORT and FRAME, the wall time of its capture and its capture word, which is sent, or held while the path is busy or its
context is throttled. An event that completes a count while a token of its source is held is merged into it. A held token is delivered once its context
is not throttled. -/
def Obligations.EventTokens : Prop :=
  (∀ (m : Main) (src tm : Nat), (∀ x ∈ m.ref.slots, m.get (F.CHG_CTIME_TIME x.k) ≤ tm ∨ ∀ q ∈ x.routes, q.1 ≠ src) → m.routeAt src tm = m.routeWord src) ∧
  (∀ (s : State) (src : Fin 1024) (w : BitVec 32) (tm : Nat) (busy : Bool),
    let v := s.main.routeAt src.val tm
    bitsOf v 30 1 = 0 ∨ s.main.dead (bitsOf v 0 8) = true →
    Does (.eventCapture src w tm busy) s ((s.main.uncaptured src w tm).bump (F.EVT_STAT_DROPS src.val))) ∧
  (∀ (s : State) (src : Fin 1024) (w : BitVec 32) (tm : Nat) (busy : Bool),
    let v := s.main.routeAt src.val tm
    bitsOf v 30 1 = 1 → s.main.dead (bitsOf v 0 8) = false → s.main.get (F.EVT_DIV_PHASE src.val) + 1 < s.main.get (F.EVT_DIV_DIVIDER src.val) →
    Does (.eventCapture src w tm busy) s
      ((s.main.uncaptured src w tm).set (F.EVT_DIV_PHASE src.val) (s.main.get (F.EVT_DIV_PHASE src.val) + 1))) ∧
  (∀ (s : State) (src : Fin 1024) (w : BitVec 32) (tm : Nat) (busy : Bool),
    let v := s.main.routeAt src.val tm
    bitsOf v 30 1 = 1 → s.main.dead (bitsOf v 0 8) = false → s.main.get (F.EVT_DIV_DIVIDER src.val) ≤ s.main.get (F.EVT_DIV_PHASE src.val) + 1 →
    s.main.tok.held.find? (fun p => p.1 == src.val) = none →
    let n := ((s.main.uncaptured src w tm).set (F.EVT_DIV_PHASE src.val) 0).bump (F.EVT_STAT_EMITTED src.val)
    ∃ t, (Does (.eventCapture src w tm busy) s
        (if busy = true ∨ s.main.throttled (bitsOf v 0 8) = true then n.setHeld (s.main.tok.held ++ [(src.val, t)]) else n.send t)) ∧
      t.typ = tyEvent ∧ t.wsel = 0 ∧ t.ctx.toNat = bitsOf v 0 8 ∧ t.ia.toNat = bitsOf v 8 20 ∧ t.port.toNat = bitsOf v 28 2 ∧
      t.frame.toNat = bitsOf v 32 24 ∧ t.stamp = BitVec.ofNat 32 tm ∧
      t.value = w ++ (0 : BitVec 16) ++ BitVec.ofNat 16 src.val ∧ t.odie = 0) ∧
  (∀ (s : State) (src : Fin 1024) (w : BitVec 32) (tm : Nat) (busy : Bool) (k : Token),
    let v := s.main.routeAt src.val tm
    bitsOf v 30 1 = 1 → s.main.dead (bitsOf v 0 8) = false →
    s.main.get (F.EVT_DIV_DIVIDER src.val) ≤ s.main.get (F.EVT_DIV_PHASE src.val) + 1 → s.main.tok.held.find? (fun p => p.1 == src.val) = some (src.val, k) →
    Does (.eventCapture src w tm busy) s
      ((((s.main.uncaptured src w tm).set (F.EVT_DIV_PHASE src.val) 0).setHeld
        (s.main.tok.held.map (fun p => if p.1 == src.val then (src.val, mergeEvent k src.val w.toNat tm) else p))).bump
        (F.EVT_STAT_MERGED src.val))) ∧
  (∀ (s : State) (src : Fin 1024) (k : Token), s.main.tok.held.find? (fun p => p.1 == src.val) = some (src.val, k) →
    s.main.throttled k.ctx.toNat = false →
    Does (.eventTokenRelease src) s ((s.main.setHeld (s.main.tok.held.filter (fun p => p.1 != src.val))).send k))

/-- R52, R118, R124, R158, R191, R236, R239, R240, R357, R518: how every operation is dispatched. Work of a FREE or BROKEN context that does not wait at the comparator is
discarded and counted; a firing
that its tuft may not dispatch now stays ready, in its place; one whose values a replay supplies is completed with them and not executed; any other does
what its operation says, once it has left the ready ones and its dispatch has been counted. A word of another operation is none of the command's. A tuft
dispatches no firing while another that it could dispatch has a higher firing priority, or the same and is older. A request finds fewer than 64
outstanding at its tuft, and a divide room in the queue of its divider, or they stay ready: QSTALLS counts the divide's stall. -/
def Obligations.FiringDispatch : Prop :=
  (∀ (m : Main) (f : Firing) (op : Op) (body : Main → Main), Executes m f op → m.fire f op body = body (m.executed f)) ∧
  (∀ (m : Main) (f : Firing) (op : Op) (body : Main → Main), f.op = some op → m.dead f.ctx.toNat = true → f.pass = false →
    m.req.cmpWait.contains f = false → f.replay = none →
    m.fire f op body = ((m.unready f).uncmp f).discard f.die.val) ∧
  (∀ (m : Main) (f : Firing) (op : Op) (body : Main → Main), f.op = some op → m.dead f.ctx.toNat = false → m.dispatches f = false →
    m.req.cmpWait.contains f = false →
    m.fire f op body = if f ∈ m.tok.ready then m else { m with tok := { m.tok with ready := m.tok.ready ++ [f] } }) ∧
  (∀ (m : Main) (f : Firing) (op : Op) (body : Main → Main) (r : Replay) (v : Opnd × Opnd), f.op = some op → m.dead f.ctx.toNat = false →
    m.dispatches f = true → f.replay = some r → r.value = some v → m.fire f op body = (m.unready f).supply f v) ∧
  (∀ (m : Main) (f : Firing) (op : Op) (body : Main → Main), f.op ≠ some op → m.fire f op body = m) ∧
  (∀ (m : Main) (f : Firing) (op : Op), Executes m f op →
    m.modeFires f.ctx.toNat = true ∧ m.dieState f.die.val = 1 ∧ (m.tuftRun f.die f.tuft f.ctx.toNat = 1 ∨ f.pass = true) ∨ f ∈ m.req.cmpWait) ∧
  (∀ (m : Main) (f g : Firing), m.dispatches f = true → g ∈ m.tok.ready → g.die = f.die → g.tuft = f.tuft → m.eligible g = true →
    m.firePrio g ≤ m.firePrio f) ∧
  (∀ (m : Main) (f g : Firing) (old mid new : List Firing), m.tok.ready = old ++ g :: mid ++ f :: new → f ∉ old ++ g :: mid → g.die = f.die →
    g.tuft = f.tuft → m.eligible g = true → m.firePrio g = m.firePrio f → m.dispatches f = false) ∧
  (∀ (m : Main) (f : Firing) (op : Op) (body : Main → Main), Executes m f op →
    (m.req.cmpWait.contains f = true ∨ m.outstanding f.die f.tuft < 64 → m.fireReq f op body = body (m.executed f)) ∧
    (m.req.cmpWait.contains f = false → 64 ≤ m.outstanding f.die f.tuft → f ∈ m.tok.ready → m.fireReq f op body = m) ∧
    (∀ p : Fin 4, (m.divRoom f.die f.tuft p.val = true → m.fireDiv f op p body = body (m.executed f)) ∧
      (m.divRoom f.die f.tuft p.val = false → f ∈ m.tok.ready →
        m.fireDiv f op p body = m.bump (F.TUFT_DIVSTAT_QSTALLS f.die.val f.tuft.val)))) ∧
  (∀ (m : Main) (f : Firing), m.req.cmpWait.contains f = false →
    (m.executed f).tok.ready = m.tok.ready.erase f ∧ (m.executed f).tok.inflight = m.tok.inflight ∧ (m.executed f).mem = m.mem ∧
    (m.executed f).tuft = m.tuft ∧ (m.executed f).regs = (m.bump (F.SCHED_STAT_DISPATCH f.die.val f.tuft.val)).regs)

/-- R40, R45, R86, R91, R92, R100: the result tokens of a firing: one to DEST0 and one to DEST1, none where the field is 0x3F_FFFF, each with the CTX and SIDE of the
firing, WSEL and STAMP 0, the PRIO of the context, the place of the firing as its origin and the FRAME that TAGOP makes. Nothing else changes. -/
def Obligations.ResultTokens : Prop :=
  (∀ (m : Main) (f : Firing) (o0 o1 : Option Opnd), f.replay = none →
    m.result f o0 o1 = { m with tok := { m.tok with inflight := m.tok.inflight ++ (resultToken m f true o0 ++ resultToken m f false o1) } }) ∧
  (∀ (m : Main) (f : Firing) (first : Bool) (o : Option Opnd), ∀ t ∈ resultToken m f first o,
    some ({ value := t.value, typ := t.typ } : Opnd) = o ∧ t.ctx = f.ctx ∧ t.side = f.side ∧ t.frame = tagFrame f.i.tagop first f.frame ∧ t.wsel = 0 ∧ t.stamp = 0 ∧ t.odie = f.die ∧ t.otuft = f.tuft ∧
    t.ia ++ t.port = (if first then f.i.dest0 else f.i.dest1) ∧ t.prio = BitVec.ofNat 4 (m.eff f.ctx.toNat)) ∧
  (∀ fr : BitVec 24, tagFrame 0 true fr = fr ∧ tagFrame 0 false fr = fr ∧ tagFrame 4 true fr = 0 ∧ tagFrame 4 false fr = 0 ∧
    (∀ b : Bool, (tagFrame 1 b fr).extractLsb' 12 12 = fr.extractLsb' 12 12 ∧ (tagFrame 1 b fr).extractLsb' 0 12 = fr.extractLsb' 0 12 + 1) ∧
    (∀ b : Bool, (tagFrame 2 b fr).extractLsb' 12 12 = fr.extractLsb' 12 12 ∧ (tagFrame 2 b fr).extractLsb' 0 12 = fr.extractLsb' 0 12 - 1) ∧
    (∀ b : Bool, (tagFrame 3 b fr).extractLsb' 12 12 = fr.extractLsb' 12 12 ∧ (tagFrame 3 b fr).extractLsb' 0 12 = 0) ∧
    tagFrame 5 true fr = tagFrame 1 true fr ∧ tagFrame 5 false fr = fr)

/-- R93, R94, R96, R97: the steering operations. -/
def Obligations.SteeringOps : Prop :=
  (∀ (s : State) (f : Firing), Executes s.main f .mov → Does (.mov f) s ((s.main.executed f).result f (some f.left) (some f.left))) ∧
  (∀ (s : State) (f : Firing), Executes s.main f .merge → Does (.merge f) s ((s.main.executed f).result f (some f.left) (some f.left))) ∧
  (∀ (s : State) (f : Firing), Executes s.main f .fan → f.replay = none →
    let n := s.main.executed f
    let ds := f.i.dest1 :: (f.conts.map (fun w => [w.extractLsb' 22 22, w.extractLsb' 0 22])).flatten
    Does (.fan f) s { n with tok := { n.tok with inflight := n.tok.inflight ++ (resultToken n f true (some f.left) ++
      (ds.map (fun d => (tokenTo n f (tagFrame f.i.tagop false f.frame) d f.left))).flatten) } }) ∧
  (∀ (s : State) (f : Firing), Executes s.main f .sink → f.replay = none → Does (.sink f) s (s.main.executed f)) ∧
  (∀ (s : State) (f : Firing), Executes s.main f .switch → f.right.truth = true →
    Does (.switch f) s ((s.main.executed f).result f (some f.left) none)) ∧
  (∀ (s : State) (f : Firing), Executes s.main f .switch → f.right.truth = false →
    Does (.switch f) s ((s.main.executed f).result f none (some f.left))) ∧
  (∀ (s : State) (f : Firing), Executes s.main f .gate → Does (.gate f) s ((s.main.executed f).result f (some f.left) (some f.left))) ∧
  (∀ (s : State) (f : Firing), Executes s.main f .select →
    let o := if f.third.truth then f.left else f.right
    Does (.select f) s ((s.main.executed f).result f (some o) (some o))) ∧
  (∀ (s : State) (f : Firing), Executes s.main f .const →
    Does (.const f) s ((s.main.executed f).result f (some ⟨f.right.value, 0⟩) (some ⟨f.right.value, 0⟩))) ∧
  (∀ (s : State) (f : Firing), Executes s.main f .retype → (f.right.value.extractLsb' 0 4).toNat < 12 →
    let o : Opnd := ⟨f.left.value, f.right.value.extractLsb' 0 4⟩
    Does (.retype f) s ((s.main.executed f).result f (some o) (some o))) ∧
  (∀ (s : State) (f : Firing), Executes s.main f .retype → 12 ≤ (f.right.value.extractLsb' 0 4).toNat →
    Does (.retype f) s ((s.main.executed f).badOperand f 1)) ∧
  (∀ o : Opnd, o.truth = true ↔ (if o.typ = 4 then o.value.getLsbD 0 = true else o.value ≠ 0))

/-- R98 to R110: tags, loops and calls. The record that a record operation finds is named by r, and one that has done its work is free again. LOOP_NOREC, LOOP_STALE, LOOP_ORDER, LOOP_BADARG and
BAD_OPERAND park the operands. -/
def Obligations.LoopAndCallOps : Prop :=
  (∀ (s : State) (f : Firing), Executes s.main f .retag → f.replay = none → (f.right.isControl 2 = true ∨ f.right.typ = 0) →
    let n := s.main.executed f
    let fr : BitVec 24 := if f.right.typ = 0 then f.right.value.extractLsb' 0 24 else f.right.value.extractLsb' 8 24
    Does (.retag f) s { n with tok := { n.tok with inflight := n.tok.inflight ++ (tokenTo n f fr f.i.dest0 f.left ++ tokenTo n f fr f.i.dest1 f.left) } }) ∧
  (∀ (s : State) (f : Firing), Executes s.main f .loopenter → loopArgsOk f → f.left.value.toInt ≤ 0 →
    Does (.loopenter f) s ((s.main.executed f).result f (some ⟨0, 4⟩) none)) ∧
  (∀ (s : State) (f : Firing) (c : Nat), Executes s.main f .loopenter → loopArgsOk f → 0 < f.left.value.toInt →
    (s.main.executed f).freeRec f.die f.tuft = some c →
    let n := s.main.executed f
    let k := (f.right.value.extractLsb' 0 13).toNat
    let r : LoopRec := { newRec f c false with k := k, credits := k - 1, xcnt := (f.right.value.extractLsb' 16 5).toNat, outer := f.frame,
                                               remain := Nat.min f.left.value.toInt.toNat (2 ^ 48) - 1 }
    Does (.loopenter f) s ((n.withNewRec f r).result f (some ⟨1, 4⟩) (some (frameVal (recFrame c))))) ∧
  (∀ (s : State) (f : Firing) (r : LoopRec), Executes s.main f .loopnext → (s.main.executed f).HasRec f false r → r.held = none → r.ended = false →
    let n := s.main.executed f
    (f.right.truth = false ∨ r.remain = 0 → Does (.loopnext f) s ((n.putRec r { r with ended := true }).result f (some ⟨0, 4⟩) (some ⟨0, 4⟩))) ∧
    (f.right.truth = true → 0 < r.remain → 0 < r.credits →
      Does (.loopnext f) s ((n.putRec r { r with credits := r.credits - 1, remain := r.remain - 1 }).result f (some ⟨1, 4⟩) (some ⟨1, 4⟩))) ∧
    (f.right.truth = true → 0 < r.remain → r.credits = 0 → Does (.loopnext f) s (n.putRec r { r with held := some f }))) ∧
  (∀ (s : State) (f : Firing) (r : LoopRec), Executes s.main f .loopdone → (s.main.executed f).HasRec f false r → r.credits ≠ r.k →
    let n := s.main.executed f
    (r.held = none → Does (.loopdone f) s ((n.putRec r { r with credits := r.credits + 1 }).result f (some f.left) (some f.left))) ∧
    (∀ h, r.held = some h → Does (.loopdone f) s (((n.putRec r { r with held := none, remain := r.remain - 1 }).result f (some f.left)
      (some f.left)).result h (some ⟨1, 4⟩) (some ⟨1, 4⟩)))) ∧
  (∀ (s : State) (f : Firing) (r : LoopRec), Executes s.main f .loopexit → f.replay = none → (s.main.executed f).HasRec f false r → r.xdone ≠ r.xcnt →
    let n := (s.main.executed f).putRec r { r with xdone := r.xdone + 1 }
    Does (.loopexit f) s { n with tok := { n.tok with inflight := n.tok.inflight ++
      (tokenTo n f r.outer f.i.dest0 f.left ++ tokenTo n f f.frame f.i.dest1 f.left) } }) ∧
  (∀ (s : State) (f : Firing), Executes s.main f .link → f.right.value.extractLsb' 22 42 = 0 →
    let v : Opnd := ⟨(0 : BitVec 10) ++ f.frame ++ f.right.value.extractLsb' 0 22 ++ (1 : BitVec 8), 9⟩
    Does (.link f) s ((s.main.executed f).result f (some v) (some v))) ∧
  (∀ (s : State) (f : Firing) (c : Nat), Executes s.main f .frameget → f.replay = none → f.left.isControl 1 = true → 1 ≤ f.right.value.toNat →
    f.right.value.toNat ≤ 31 → (s.main.executed f).freeRec f.die f.tuft = some c →
    let r : LoopRec := { newRec f c true with xcnt := f.right.value.toNat, link := f.left.value.extractLsb' 0 54 }
    let n := (s.main.executed f).withNewRec f r
    let v := frameVal (recFrame c)
    Does (.frameget f) s { n with tok := { n.tok with inflight := n.tok.inflight ++
      (tokenTo n f (f.left.value.extractLsb' 30 24) (f.left.value.extractLsb' 8 20 ++ f.left.value.extractLsb' 28 2) v ++
       tokenTo n f (recFrame c) f.i.dest0 v ++ tokenTo n f (recFrame c) f.i.dest1 v) } }) ∧
  (∀ (s : State) (f : Firing) (r : LoopRec), Executes s.main f .return_ → f.replay = none → (s.main.executed f).HasRec f true r → r.xdone ≠ r.xcnt →
    let n := (s.main.executed f).putRec r { r with xdone := r.xdone + 1 }
    let target : BitVec 20 := r.link.extractLsb' 8 20 + (f.i.dest0.extractLsb' 2 12).setWidth 20
    Does (.return_ f) s { n with tok := { n.tok with inflight := n.tok.inflight ++
      (tokenTo n f (r.link.extractLsb' 30 24) (target ++ f.i.dest0.extractLsb' 0 2) f.left ++ tokenTo n f f.frame f.i.dest1 f.left) } }) ∧
  (∀ (s : State) (f : Firing), Executes s.main f .frameof →
    let v : Opnd := ⟨(0 : BitVec 32) ++ f.frame ++ (2 : BitVec 8), 9⟩
    Does (.frameof f) s ((s.main.executed f).result f (some v) (some v))) ∧
  (∀ (s : State) (f : Firing), let n := s.main.executed f
    ((∀ r, ¬ n.HasRec f false r) →
      (Executes s.main f .loopnext → Does (.loopnext f) s (n.parkOp f fcLoopStale f.recIdx 0)) ∧
      (Executes s.main f .loopdone → Does (.loopdone f) s (n.parkOp f fcLoopStale f.recIdx 0)) ∧
      (Executes s.main f .loopexit → Does (.loopexit f) s (n.parkOp f fcLoopStale f.recIdx 0))) ∧
    ((∀ r, ¬ n.HasRec f true r) → Executes s.main f .return_ → Does (.return_ f) s (n.parkOp f fcLoopStale f.recIdx 0))) ∧
  (∀ (s : State) (f : Firing) (r : LoopRec), let n := s.main.executed f
    (n.HasRec f false r →
      (Executes s.main f .loopnext → r.held ≠ none ∨ r.ended = true → Does (.loopnext f) s (n.parkOp f fcLoopOrder f.recIdx 0)) ∧
      (Executes s.main f .loopdone → r.credits = r.k → Does (.loopdone f) s (n.parkOp f fcLoopOrder f.recIdx 0)) ∧
      (Executes s.main f .loopexit → r.xdone = r.xcnt → Does (.loopexit f) s (n.parkOp f fcLoopOrder f.recIdx 0))) ∧
    (n.HasRec f true r → Executes s.main f .return_ → r.xdone = r.xcnt → Does (.return_ f) s (n.parkOp f fcLoopOrder f.recIdx 0))) ∧
  (∀ (s : State) (f : Firing), let n := s.main.executed f
    let norec := (n.bump (F.TUFT_LCOCC_NOREC f.die.val f.tuft.val)).parkOp f fcLoopNorec 0 0
    (Executes s.main f .loopenter → ¬ loopArgsOk f → Does (.loopenter f) s (n.parkOp f fcLoopBadarg 0 0)) ∧
    (Executes s.main f .loopenter → loopArgsOk f → 0 < f.left.value.toInt → n.freeRec f.die f.tuft = none → Does (.loopenter f) s norec) ∧
    (Executes s.main f .frameget → f.left.isControl 1 = false → Does (.frameget f) s (n.badOperand f 0)) ∧
    (Executes s.main f .frameget → f.left.isControl 1 = true → f.right.value = 0 ∨ 31 < f.right.value.toNat → Does (.frameget f) s (n.parkOp f fcLoopBadarg 0 0)) ∧
    (Executes s.main f .frameget → f.left.isControl 1 = true → f.right.value ≠ 0 → f.right.value.toNat ≤ 31 → n.freeRec f.die f.tuft = none →
      Does (.frameget f) s norec) ∧
    (Executes s.main f .retag → f.right.isControl 2 = false → f.right.typ ≠ 0 → Does (.retag f) s (n.badOperand f 1)) ∧
    (Executes s.main f .link → f.right.value.extractLsb' 22 42 ≠ 0 → Does (.link f) s (n.badOperand f 1))) ∧
  (∀ (m : Main) (d u : Fin 8) (c : Nat), m.freeRec d u = some c → 1 ≤ c ∧ c ≤ 4095 ∧ (∀ r ∈ m.recsOf d u, r.idx ≠ c) ∧
    ∀ b, 1 ≤ b → b < c → ∃ r ∈ m.recsOf d u, r.idx = b) ∧
  (∀ (m : Main) (old new : LoopRec),
    let done := if new.call then new.xdone = new.xcnt else new.ended = true ∧ new.credits = new.k ∧ new.xdone = new.xcnt
    (done → (m.putRec old new).tuft.recs = m.tuft.recs.erase old) ∧
    (¬ done → (m.putRec old new).tuft.recs = m.tuft.recs.map (fun r => if r = old then new else r)))

/-- R114 to R117, R164: integer arithmetic on W bits: the exact result, IOV, TRAP and SAT; the halves of a product; the lesser and the greater; extension; and
the pointer rule of ADD and SUB. -/
def Obligations.IntegerArithmetic : Prop :=
  (∀ (s : State) (f : Firing), Executes s.main f .add → ¬ ptrForm f →
    Does (.add f) s ((s.main.executed f).arith f (numOf f f.left + numOf f f.right))) ∧
  (∀ (s : State) (f : Firing), Executes s.main f .sub → ¬ ptrForm f →
    Does (.sub f) s ((s.main.executed f).arith f (numOf f f.left - numOf f f.right))) ∧
  (∀ (s : State) (f : Firing), Executes s.main f .neg → Does (.neg f) s ((s.main.executed f).arith f (-numOf f f.left))) ∧
  (∀ (s : State) (f : Firing), Executes s.main f .abs → Does (.abs f) s ((s.main.executed f).arith f (numOf f f.left).natAbs)) ∧
  (∀ (s : State) (f : Firing), Executes s.main f .mul →
    Does (.mul f) s ((s.main.executed f).arith f (numOf f f.left * numOf f f.right))) ∧
  (∀ (s : State) (f : Firing), Executes s.main f .mulh →
    Does (.mulh f) s ((s.main.executed f).gives f (BitVec.ofInt 64 (numOf f f.left * numOf f f.right / 2 ^ f.w)) tyInt)) ∧
  (∀ (s : State) (f : Firing), Executes s.main f .mulx →
    Does (.mulx f) s ((s.main.executed f).result f (some ⟨wext f (BitVec.ofInt 64 (numOf f f.left * numOf f f.right)), tyInt⟩)
      (some ⟨BitVec.ofInt 64 (numOf f f.left * numOf f f.right / 2 ^ f.w), tyInt⟩))) ∧
  (∀ (s : State) (f : Firing), Executes s.main f .min →
    Does (.min f) s ((s.main.executed f).gives f (BitVec.ofInt 64 (min (numOf f f.left) (numOf f f.right))) tyInt)) ∧
  (∀ (s : State) (f : Firing), Executes s.main f .max →
    Does (.max f) s ((s.main.executed f).gives f (BitVec.ofInt 64 (max (numOf f f.left) (numOf f f.right))) tyInt)) ∧
  (∀ (s : State) (f : Firing), Executes s.main f .ext → Does (.ext f) s ((s.main.executed f).gives f (wext f f.left.value) tyInt)) ∧
  (∀ (s : State) (f : Firing), Executes s.main f .add → ptrForm f →
    Does (.add f) s ((s.main.executed f).ptrArith f (numOf f f.left + numOf f f.right))) ∧
  (∀ (s : State) (f : Firing), Executes s.main f .sub → ptrForm f →
    Does (.sub f) s ((s.main.executed f).ptrArith f (numOf f f.left - numOf f f.right)))

/-- R114, R115, R119, R120: logic, shifts and rotates, and bit operations on W bits.
R114, R115, R117: the six integer comparisons give BOOL, on the W-bit readings of the operands.
R117, R118, R166, R191: divides. A divide starts at once on the idle divider of its PE pair and is counted, or waits in a queue of two, in PRIO order. Its
completion gives the quotient truncated toward zero and the remainder with the dividend's sign; a divisor of 0 gives quotient 0, the dividend as remainder
and IDZ; the signed minimum over −1 gives itself, remainder 0 and IOV. -/
def Obligations.LogicComparisonsDivides : Prop :=
  ((∀ (s : State) (f : Firing), Executes s.main f .and →
    Does (.and f) s ((s.main.executed f).gives f (wext f (f.left.value &&& f.right.value)) (if f.left.typ = tyBool ∧ f.right.typ = tyBool then tyBool else tyInt))) ∧
  (∀ (s : State) (f : Firing), Executes s.main f .or →
    Does (.or f) s ((s.main.executed f).gives f (wext f (f.left.value ||| f.right.value)) (if f.left.typ = tyBool ∧ f.right.typ = tyBool then tyBool else tyInt))) ∧
  (∀ (s : State) (f : Firing), Executes s.main f .xor →
    Does (.xor f) s ((s.main.executed f).gives f (wext f (f.left.value ^^^ f.right.value)) (if f.left.typ = tyBool ∧ f.right.typ = tyBool then tyBool else tyInt))) ∧
  (∀ (s : State) (f : Firing), Executes s.main f .andn →
    Does (.andn f) s ((s.main.executed f).gives f (wext f (f.left.value &&& ~~~f.right.value)) (if f.left.typ = tyBool ∧ f.right.typ = tyBool then tyBool else tyInt))) ∧
  (∀ (s : State) (f : Firing), Executes s.main f .not → f.left.typ ≠ tyBool →
    Does (.not f) s ((s.main.executed f).gives f (wext f (~~~f.left.value)) tyInt)) ∧
  (∀ (s : State) (f : Firing), Executes s.main f .not → f.left.typ = tyBool →
    Does (.not f) s ((s.main.executed f).gives f (~~~f.left.value &&& 1) tyBool)) ∧
  (∀ (s : State) (f : Firing), Executes s.main f .shl →
    Does (.shl f) s ((s.main.executed f).gives f (onW f f.left.value (fun _ y => y <<< countOf f)) tyInt)) ∧
  (∀ (s : State) (f : Firing), Executes s.main f .shr →
    Does (.shr f) s ((s.main.executed f).gives f (onW f f.left.value (fun _ y => y >>> countOf f)) tyInt)) ∧
  (∀ (s : State) (f : Firing), Executes s.main f .sar →
    Does (.sar f) s ((s.main.executed f).gives f (onW f f.left.value (fun _ y => y.sshiftRight (countOf f))) tyInt)) ∧
  (∀ (s : State) (f : Firing), Executes s.main f .rol →
    Does (.rol f) s ((s.main.executed f).gives f (onW f f.left.value (fun _ y => y.rotateLeft (countOf f))) tyInt)) ∧
  (∀ (s : State) (f : Firing), Executes s.main f .ror →
    Does (.ror f) s ((s.main.executed f).gives f (onW f f.left.value (fun _ y => y.rotateRight (countOf f))) tyInt)) ∧
  (∀ (s : State) (f : Firing), Executes s.main f .popc →
    Does (.popc f) s ((s.main.executed f).gives f (BitVec.ofNat 64 ((List.range f.w).countP (fun i => f.left.value.getLsbD i))) tyInt)) ∧
  (∀ (s : State) (f : Firing) (n : Nat), Executes s.main f .clz → n ≤ f.w → (∀ i < n, f.left.value.getLsbD (f.w - 1 - i) = false) →
    (n < f.w → f.left.value.getLsbD (f.w - 1 - n) = true) → Does (.clz f) s ((s.main.executed f).gives f (BitVec.ofNat 64 n) tyInt)) ∧
  (∀ (s : State) (f : Firing) (n : Nat), Executes s.main f .ctz → n ≤ f.w → (∀ i < n, f.left.value.getLsbD i = false) →
    (n < f.w → f.left.value.getLsbD n = true) → Does (.ctz f) s ((s.main.executed f).gives f (BitVec.ofNat 64 n) tyInt)) ∧
  (∀ (s : State) (f : Firing) (v : Word), Executes s.main f .bswap → (∀ i < f.w, v.getLsbD i = f.left.value.getLsbD (f.w - 8 - 8 * (i / 8) + i % 8)) →
    Does (.bswap f) s ((s.main.executed f).gives f (wext f v) tyInt)) ∧
  (∀ (s : State) (f : Firing) (v : Word), Executes s.main f .brev → (∀ i < f.w, v.getLsbD i = f.left.value.getLsbD (f.w - 1 - i)) →
    Does (.brev f) s ((s.main.executed f).gives f (wext f v) tyInt)) ∧
  (∀ (s : State) (f : Firing) (pos len : Nat) (v : Word), Executes s.main f .bext → f.right.value = BitVec.ofNat 64 (len * 256 + pos) → pos < 64 → len ≤ 64 →
    (∀ i < 64, v.getLsbD i = if i < len then f.left.value.getLsbD (pos + i) else (f.sx && decide (0 < len) && f.left.value.getLsbD (pos + len - 1))) →
    Does (.bext f) s ((s.main.executed f).gives f v tyInt)) ∧
  (∀ (s : State) (f : Firing) (pos len : Nat) (v : Word), Executes s.main f .bins → f.right.value = BitVec.ofNat 64 (len * 256 + pos) → pos < 64 → len ≤ 64 →
    (∀ i < 64, v.getLsbD i = if pos ≤ i ∧ i < pos + len then f.third.value.getLsbD (i - pos) else f.left.value.getLsbD i) →
    Does (.bins f) s ((s.main.executed f).gives f v tyInt))) ∧
  ((∀ (s : State) (f : Firing), Executes s.main f .cmpeq → Does (.cmpeq f) s ((s.main.executed f).gives f (if numOf f f.left = numOf f f.right then 1 else 0) tyBool)) ∧
  (∀ (s : State) (f : Firing), Executes s.main f .cmpne → Does (.cmpne f) s ((s.main.executed f).gives f (if numOf f f.left = numOf f f.right then 0 else 1) tyBool)) ∧
  (∀ (s : State) (f : Firing), Executes s.main f .cmplt → Does (.cmplt f) s ((s.main.executed f).gives f (if numOf f f.left < numOf f f.right then 1 else 0) tyBool)) ∧
  (∀ (s : State) (f : Firing), Executes s.main f .cmple → Does (.cmple f) s ((s.main.executed f).gives f (if numOf f f.right < numOf f f.left then 0 else 1) tyBool)) ∧
  (∀ (s : State) (f : Firing), Executes s.main f .cmpgt → Does (.cmpgt f) s ((s.main.executed f).gives f (if numOf f f.right < numOf f f.left then 1 else 0) tyBool)) ∧
  (∀ (s : State) (f : Firing), Executes s.main f .cmpge → Does (.cmpge f) s ((s.main.executed f).gives f (if numOf f f.left < numOf f f.right then 0 else 1) tyBool))) ∧
  ((∀ (s : State) (f : Firing) (p : Fin 4), s.main.idleDiv f p →
    (Executes s.main f .div → Does (.div f p) s ((s.main.executed f).startDiv f p)) ∧
    (Executes s.main f .rem → Does (.rem f p) s ((s.main.executed f).startDiv f p)) ∧
    (Executes s.main f .divrem → Does (.divrem f p) s ((s.main.executed f).startDiv f p))) ∧
  (∀ (s : State) (f : Firing) (p : Fin 4) (d : Divider), Executes s.main f .div → s.main.tuft.divs = [d] → d.die = f.die → d.tuft = f.tuft → d.pair = p →
    d.queue.length < 2 → ∃ t, exec (.div f p) s = .next t ∧ t.main.tuft.divs = [{ d with queue := prioInsert f d.queue }] ∧
      t.main.tok.inflight = s.main.tok.inflight) ∧
  (∀ (s : State) (f : Firing) (d u : Fin 8) (p : Fin 4) (o : Op), s.main.tuft.divs = [{ die := d, tuft := u, pair := p, cur := f, queue := [] }] →
    f.op = some o → (o = .div ∨ o = .rem ∨ o = .divrem) → f.trap = false →
    let x := numOf f f.left
    let y := numOf f f.right
    let atMin := f.sx = true ∧ x = leastOf f ∧ y = -1
    let q : Word := wext f (BitVec.ofInt 64 (if y = 0 then 0 else Int.tdiv x y))
    let r : Word := wext f (BitVec.ofInt 64 (if y = 0 then x else Int.tmod x y))
    let n : Main := { s.main with tuft := { s.main.tuft with divs := [] } }
    let n := if y = 0 then n.set (F.CTXTAB_FPSTICKY_IDZ f.ctx.toNat) 1 else if atMin then n.set (F.CTXTAB_FPSTICKY_IOV f.ctx.toNat) 1 else n
    Does (.dividerComplete d u p) s
      (if o = .div then n.gives f q tyInt else if o = .rem then n.gives f r tyInt else n.result f (some ⟨q, tyInt⟩) (some ⟨r, tyInt⟩))))

/-- R169 to R173, R175 to R178: floating-point arithmetic, minimum and maximum, rounding to an integral value and the conversions, in binary64 and in two
binary32 lanes: the results and flags of the lanes, or, in TRAP mode with a subnormal operand or a tiny result, the parked operands with FP_SUBNORMAL. -/
def Obligations.FloatingPointOps : Prop :=
  FpDoes .fadd .fadd (fun rm f => f.lanes 2 (fun k x => k.add rm false (x 0) (x 1))) Firing.pack Firing.pack ∧
  FpDoes .fsub .fsub (fun rm f => f.lanes 2 (fun k x => k.add rm true (x 0) (x 1))) Firing.pack Firing.pack ∧
  FpDoes .fmul .fmul (fun rm f => f.lanes 2 (fun k x => k.mul rm (x 0) (x 1))) Firing.pack Firing.pack ∧
  FpDoes .fma .fma (fun rm f => f.lanes 3 (fun k x => k.fma rm false false (x 0) (x 1) (x 2))) Firing.pack Firing.pack ∧
  FpDoes .fms .fms (fun rm f => f.lanes 3 (fun k x => k.fma rm false true (x 0) (x 1) (x 2))) Firing.pack Firing.pack ∧
  FpDoes .fnma .fnma (fun rm f => f.lanes 3 (fun k x => k.fma rm true false (x 0) (x 1) (x 2))) Firing.pack Firing.pack ∧
  FpDoes .fmin .fmin (fun _ f => f.lanes 2 (fun k x => k.minmax true false (x 0) (x 1))) Firing.pack Firing.pack ∧
  FpDoes .fmax .fmax (fun _ f => f.lanes 2 (fun k x => k.minmax true true (x 0) (x 1))) Firing.pack Firing.pack ∧
  FpDoes .fminm .fminm (fun _ f => f.lanes 2 (fun k x => k.minmax false false (x 0) (x 1))) Firing.pack Firing.pack ∧
  FpDoes .fmaxm .fmaxm (fun _ f => f.lanes 2 (fun k x => k.minmax false true (x 0) (x 1))) Firing.pack Firing.pack ∧
  FpDoes .frint .frint (fun rm f => f.lanes 1 (fun k x => k.rint rm f.fu (x 0))) Firing.pack Firing.pack ∧
  FpDoes .fcvtds .fcvtds (fun rm f => [runLane b64 1 (fun _ => f.left.value.toNat) (fun x => cvtNarrow rm (x 0)),
      runLane b64 1 (fun _ => f.right.value.toNat) (fun x => cvtNarrow rm (x 0))])
    (fun _ ls => ⟨w64 (laneBits ls 0 + laneBits ls 1 * 2 ^ 32), tyFp32⟩) (fun _ ls => ⟨w64 (laneBits ls 0 + laneBits ls 1 * 2 ^ 32), tyFp32⟩) ∧
  FpDoes .fcvtsd .fcvtsd (fun _ f => [runLane b32 1 (fun _ => f.left.value.toNat % 2 ^ 32) (fun x => cvtWiden (x 0)),
      runLane b32 1 (fun _ => f.left.value.toNat / 2 ^ 32) (fun x => cvtWiden (x 0))])
    (fun _ ls => ⟨w64 (laneBits ls 0), tyFp64⟩) (fun _ ls => ⟨w64 (laneBits ls 1), tyFp64⟩) ∧
  FpDoes .fcvtid .fcvtid (fun rm f => if f.fs then [⟨b32.ofInt rm 32 f.fu (f.left.value.toNat % 2 ^ 32), false⟩, ⟨b32.ofInt rm 32 f.fu (f.left.value.toNat / 2 ^ 32), false⟩]
      else [⟨b64.ofInt rm 64 f.fu f.left.value.toNat, false⟩]) Firing.pack Firing.pack ∧
  FpDoes .fcvtdi .fcvtdi (fun rm f => f.lanes 1 (fun k x => k.toInt rm k.width f.fu (x 0)))
    (fun f ls => ⟨w64 (if f.fs then laneBits ls 0 + laneBits ls 1 * 2 ^ 32 else laneBits ls 0), tyInt⟩)
    (fun f ls => ⟨w64 (if f.fs then laneBits ls 0 + laneBits ls 1 * 2 ^ 32 else laneBits ls 0), tyInt⟩)

/-- R174, R180: comparisons give BOOL, or a mask in each lane; FNEG, FABS, FCPYS and FCLASS work on the bits alone and set no flag; FSETF records a mask for a
trapped operation whose handle its context may use, and answers whether it did.
R118, R168, R191: FDIV and FSQRT start on the idle divider of their PE pair, counted in the epoch of their firing and keeping the FPCTL with which they fired (R189), and their completion gives the result and
flags of the lanes. -/
def Obligations.FloatingPointBitsAndDivides : Prop :=
  (FpDoes .fcmpeq .fcmpeq (fun _ f => f.lanes 2 (fun k x => k.cmp 0 (x 0) (x 1))) fpTruth fpTruth ∧
  FpDoes .fcmplt .fcmplt (fun _ f => f.lanes 2 (fun k x => k.cmp 1 (x 0) (x 1))) fpTruth fpTruth ∧
  FpDoes .fcmple .fcmple (fun _ f => f.lanes 2 (fun k x => k.cmp 2 (x 0) (x 1))) fpTruth fpTruth ∧
  FpDoes .fcmpun .fcmpun (fun _ f => f.lanes 2 (fun k x => k.cmp 3 (x 0) (x 1))) fpTruth fpTruth ∧
  FpBitsDoes .fneg .fneg (fun k a _ => k.neg a) fpType ∧
  FpBitsDoes .fabs .fabs (fun k a _ => a % 2 ^ (k.ew + k.fw)) fpType ∧
  FpBitsDoes .fcpys .fcpys (fun k a b => a % 2 ^ (k.ew + k.fw) + k.signBit (k.signOf b)) fpType ∧
  FpBitsDoes .fclass .fclass (fun k a _ => k.classOf a) (fun _ => tyInt) ∧
  (∀ (s : State) (f : Firing) (t : FpTrap), Executes s.main f .fsetf →
    s.main.req.fpTraps.find? (fun t => t.handle == f.left.value.extractLsb' 16 32 && (t.ctx == f.ctx || f.ctx == 0)) = some t →
    let mask := (f.right.value.extractLsb' 0 6).toNat
    Does (.fsetf f) s ((((s.main.executed f).stick t.ctx.toNat mask).epochMask t mask).gives f 1 tyBool)) ∧
  (∀ (s : State) (f : Firing), Executes s.main f .fsetf →
    (∀ t ∈ s.main.req.fpTraps, t.handle ≠ f.left.value.extractLsb' 16 32 ∨ (t.ctx ≠ f.ctx ∧ f.ctx ≠ 0)) →
    Does (.fsetf f) s ((s.main.executed f).gives f 0 tyBool))) ∧
  ((∀ (s : State) (f : Firing) (p : Fin 4), s.main.idleDiv f p →
    let n := (s.main.executed f).countFp f
    let g := { f with epoch := some (n.epochOf f), ctl := some (n.fpctl f) }
    (Executes s.main f .fdiv → Does (.fdiv f p) s (n.startDiv g p)) ∧
    (Executes s.main f .fsqrt → Does (.fsqrt f p) s (n.startDiv g p))) ∧
  (∀ (s : State) (f : Firing) (d u : Fin 8) (p : Fin 4), s.main.tuft.divs = [{ die := d, tuft := u, pair := p, cur := f, queue := [] }] →
    f.op = some .fdiv →
    let n : Main := { s.main with tuft := { s.main.tuft with divs := [] } }
    let ls := f.lanes 2 (fun k x => k.div (s.main.rmOf f) (x 0) (x 1))
    noTrap s.main f ls → Does (.dividerComplete d u p) s ((n.fpFlags f (lanesFlags ls)).result f (some (f.pack ls)) (some (f.pack ls)))) ∧
  (∀ (s : State) (f : Firing) (d u : Fin 8) (p : Fin 4), s.main.tuft.divs = [{ die := d, tuft := u, pair := p, cur := f, queue := [] }] →
    f.op = some .fsqrt →
    let n : Main := { s.main with tuft := { s.main.tuft with divs := [] } }
    let ls := f.lanes 1 (fun k x => k.sqrt (s.main.rmOf f) (x 0))
    noTrap s.main f ls → Does (.dividerComplete d u p) s ((n.fpFlags f (lanesFlags ls)).result f (some (f.pack ls)) (some (f.pack ls)))))

/-- R175: "No operation that rounds ever delivers a subnormal result." For binary64 and binary32, every rounding direction and all operands that are encodings of
the format and not subnormal (R177 has flushed those): the sum, difference, product, quotient, square root and fused results, the
conversions and the rounding to an integral value are no subnormal encodings. -/
def Obligations.NoSubnormalResults : Prop :=
  ∀ k : Fmt, k = b64 ∨ k = b32 → ∀ (rm a b c : Nat), a < 2 ^ k.width → b < 2 ^ k.width → c < 2 ^ k.width →
    k.isSub a = false → k.isSub b = false → k.isSub c = false →
    (∀ sub : Bool, k.isSub (k.add rm sub a b).bits = false) ∧ k.isSub (k.mul rm a b).bits = false ∧ k.isSub (k.div rm a b).bits = false ∧
    k.isSub (k.sqrt rm a).bits = false ∧ (∀ p q : Bool, k.isSub (k.fma rm p q a b c).bits = false) ∧
    (∀ x : Bool, k.isSub (k.rint rm x a).bits = false) ∧ (∀ (w : Nat) (u : Bool) (x : Nat), k.isSub (k.ofInt rm w u x).bits = false) ∧
    (∀ x : Nat, b32.isSub (cvtNarrow rm x).bits = false)

/-- R170, R171, R175: rounding. The result of rounding a non-zero value m × 2^e that is neither tiny nor an overflow has the sign asked for, is exact when NX is clear, and lies
within one unit of its last place of the exact value: not above it in RTZ, within half a unit in RNE and RNA, where a tie goes to the even one or away. The comparison is made in
units of 2^lo, with lo at most both exponents. On finite operands a sum, a difference, a product, a fused result and a conversion is the rounding of its exact value; a quotient and a square root,
which no such value is, is rounded as correctly as one. -/
def Obligations.RoundsCorrectly : Prop :=
  ∀ k : Fmt, k = b64 ∨ k = b32 → ∀ rm : Nat, rm ≤ 4 →
    (∀ (s : Bool) (m : Nat) (e lo : Int), 0 < m → let r := k.round rm s m e
      r.tiny = false → r.flags = 0 ∨ r.flags = flagNX → lo ≤ e → lo ≤ k.exp r.bits → k.Rounded rm s r (m * 2 ^ (e - lo).toNat) 1 lo) ∧
    (∀ a b : Nat, k.finite a = true → k.finite b = true →
      let lo := min (k.exp a) (k.exp b)
      (∀ sub : Bool, let v := k.signed a lo + (if sub then -k.signed b lo else k.signed b lo)
        v ≠ 0 → k.add rm sub a b = k.round rm (decide (v < 0)) v.natAbs lo) ∧
      (k.isZero a = false → k.isZero b = false → k.mul rm a b = k.round rm (k.signOf a != k.signOf b) (k.mag a * k.mag b) (k.exp a + k.exp b)) ∧
      (∀ (negP negC : Bool) (c : Nat), k.finite c = true →
        let lo := min (k.exp a + k.exp b) (k.exp c)
        let p : Int := (k.mag a * k.mag b * 2 ^ (k.exp a + k.exp b - lo).toNat : Nat)
        let v := (if (k.signOf a != k.signOf b) != negP then -p else p) + (if negC then -k.signed c lo else k.signed c lo)
        v ≠ 0 → k.fma rm negP negC a b c = k.round rm (decide (v < 0)) v.natAbs lo) ∧
      (∀ lo : Int, k.isZero a = false → k.isZero b = false → let r := k.div rm a b
        r.tiny = false → r.flags = 0 ∨ r.flags = flagNX → lo ≤ k.exp a - k.exp b → lo ≤ k.exp r.bits →
        k.Rounded rm (k.signOf a != k.signOf b) r (k.mag a * 2 ^ (k.exp a - k.exp b - lo).toNat) (k.mag b) lo)) ∧
    (∀ (a : Nat) (lo : Int), k.finite a = true → k.isZero a = false → k.signOf a = false → let r := k.sqrt rm a
      2 * lo ≤ k.exp a → lo ≤ k.exp r.bits →
      let x := k.mag a * 2 ^ (k.exp a - 2 * lo).toNat
      let got := k.mag r.bits * 2 ^ (k.exp r.bits - lo).toNat
      let ulp := 2 ^ (k.exp r.bits - lo).toNat
      r.tiny = false ∧ k.signOf r.bits = false ∧ (r.flags = 0 ∨ r.flags = flagNX) ∧ (r.flags = 0 ↔ got ^ 2 = x) ∧ x < (got + ulp) ^ 2 ∧ (got - ulp) ^ 2 < x ∧
      (rm = 1 ∨ rm = 2 → got ^ 2 ≤ x) ∧ (rm = 3 → x ≤ got ^ 2) ∧ (rm = 0 ∨ rm = 4 → (2 * got - ulp) ^ 2 ≤ 4 * x ∧ 4 * x ≤ (2 * got + ulp) ^ 2)) ∧
    (∀ (w : Nat) (u : Bool) (x : Nat), let v : Int := if u then (x % 2 ^ w : Nat) else sgn w x
      v ≠ 0 → k.ofInt rm w u x = k.round rm (decide (v < 0)) v.natAbs 0) ∧
    (∀ x : Nat, b64.finite x = true → b64.isZero x = false → cvtNarrow rm x = b32.round rm (b64.signOf x) (b64.mag x) (b64.exp x))

/-- R160, R180, R183 to R186: FP epochs. FBAR closes its side's current epoch and opens the next, or waits while three are closing. EPOCH_REPORT delivers
a tuft's flags and counts for the oldest closing epoch that waits for it, once no operation of that epoch is left in the tuft. FBAR_RESULT
sends the word of the oldest closing epoch, flags, epoch, traps and operations, when every report is in and no trap of the epoch is open. A mask of FSETF
(R180) goes into the trapped operation's epoch, current or closing. -/
def Obligations.FpEpochs : Prop :=
  (∀ (s : State) (f : Firing), Executes s.main f .fbar → f.replay = none →
    let n := s.main.executed f
    let u := n.unitOf f.ctx f.side
    let k : Closing := { epoch := u.cur, fbar := f.ret, flags := u.masks, traps := 0, ops := 0, waitFor := n.reporters f.ctx f.side u.cur }
    (u.closing.length < 3 → Does (.fbar f) s (n.putUnit { u with cur := (u.cur + 1) % 256, masks := 0, closing := u.closing ++ [k] })) ∧
    (3 ≤ u.closing.length → Does (.fbar f) s (n.putUnit { u with waiting := u.waiting ++ [f.ret] }))) ∧
  (∀ (s : State) (die tuft : Fin 8) (c : BitVec 8) (side : Bool) (k : Closing) (ks : List Closing),
    (s.main.unitOf c side).closing = k :: ks → 8 * die.val + tuft.val ∈ k.waitFor → k ∉ ks → s.main.undrained die tuft c side k.epoch = false →
    (s.main.tuft.epochs.filter (fun t => t.die == die && t.tuft == tuft && t.ctx == c && t.side == side && t.epoch == k.epoch)) = [] →
    Does (.epochReport die tuft c side) s (s.main.putUnit
      { s.main.unitOf c side with closing := { k with waitFor := k.waitFor.erase (8 * die.val + tuft.val) } :: ks })) ∧
  (∀ (s : State) (t : TuftEpoch) (k : Closing), s.main.tuft.epochs = [t] → (s.main.unitOf t.ctx t.side).closing = [k] → t.epoch = k.epoch →
    8 * t.die.val + t.tuft.val ∈ k.waitFor → s.main.undrained t.die t.tuft t.ctx t.side k.epoch = false →
    let w := k.waitFor.erase (8 * t.die.val + t.tuft.val)
    let k' : Closing := { k with waitFor := w, flags := k.flags ||| t.flags, ops := k.ops + t.ops, traps := k.traps + t.traps }
    Does (.epochReport t.die t.tuft t.ctx t.side) s (Main.putUnit { s.main with tuft := { s.main.tuft with epochs := [] } }
      { s.main.unitOf t.ctx t.side with closing := [k'] })) ∧
  (∀ (s : State) (c : BitVec 8) (side : Bool) (k : Closing) (ks : List Closing), (s.main.unitOf c side).closing = k :: ks → k.waitFor = [] →
    (∀ t ∈ s.main.req.fpTraps, ¬ (t.ctx = c ∧ t.side = side ∧ t.epoch = k.epoch)) → s.main.dead c.toNat = false →
    (s.main.unitOf c side).waiting = [] →
    let o := opnd tyInt (k.flags.toNat + k.epoch * 2 ^ 8 + Nat.min k.traps 0xFFFF * 2 ^ 16 + Nat.min k.ops 0xFFFFFFFF * 2 ^ 32)
    Does (.fbarResult c side) s (((s.main.sendRet k.fbar (some o) (some o)).putUnit { s.main.unitOf c side with closing := ks }).observe c)) ∧
  (∀ (s : State) (c : BitVec 8) (side : Bool) (k : Closing) (ks : List Closing), (s.main.unitOf c side).closing = k :: ks →
    (k.waitFor ≠ [] ∨ ∃ t ∈ s.main.req.fpTraps, t.ctx = c ∧ t.side = side ∧ t.epoch = k.epoch) → Does (.fbarResult c side) s s.main) ∧
  (∀ (m : Main) (t : FpTrap) (mask : Nat), let u := m.unitOf t.ctx t.side
    ((∀ k ∈ u.closing, k.epoch ≠ t.epoch) → t.epoch = u.cur → m.epochMask t mask = m.putUnit { u with masks := u.masks ||| BitVec.ofNat 6 mask }) ∧
    (∀ k, u.closing = [k] → k.epoch = t.epoch →
      m.epochMask t mask = m.putUnit { u with closing := [{ k with flags := k.flags ||| BitVec.ofNat 6 mask }] }))

/-- R124, R130, R131, R134, R138, R271, R274, R276: a memory, atomic or I-structure operation whose left operand is an address, in a context with
translation on, becomes a request of its tuft at the physical address that its TLB gives, W/8 bytes wide: the page admits it, it is aligned, an
atomic or I-structure operation uses no alias window, and only an I-structure operation uses an I-structure page. On a TLB miss it waits for a walk, which is counted. While
its tuft has 64 requests outstanding it stays ready. -/
def Obligations.MemoryOperationsIssue : Prop :=
  (∀ p ∈ ([(.load, .load, .load), (.store, .store, .store), (.aadd, .aadd, .aadd), (.aand, .aand, .aand), (.aor, .aor, .aor), (.axor, .axor, .axor),
      (.axchg, .axchg, .axchg), (.acas, .acas, .acas), (.iload, .iload, .iload), (.istore, .istore, .istore), (.iclear, .iclear, .iclear)] :
      List ((Firing → Instr) × Op × MemOp)),
    ∀ (s : State) (f : Firing), Executes s.main f p.2.1 → s.main.outstanding f.die f.tuft < 64 → f.left.isAddress = true →
      (s.main.executed f).xlateOn f.ctx.toNat = true →
      let n := s.main.executed f
      (∀ e, n.tlbFind (n.xlateOf f) (f.va p.2.2) = some e → protDetail f.ctx.toNat p.2.2 (e.paOf (f.va p.2.2)) e.r e.w = 0 →
        e.is_ = p.2.2.istr → (e.is_ = true → isScratch (e.paOf (f.va p.2.2)) = true) →
        (p.2.2.atomic = true ∨ p.2.2.istr = true → aliasOf (e.paOf (f.va p.2.2)) = 0) →
        aligned (e.paOf (f.va p.2.2)) (f.w / 8) (aliasOf (e.paOf (f.va p.2.2))) = true →
        let d := p.2.2.data f
        Does (p.1 f) s (n.asks { f := f, op := p.2.2, pa := e.paOf (f.va p.2.2), bytes := f.w / 8, data := d.1, data2 := d.2 })) ∧
      (n.tlbFind (n.xlateOf f) (f.va p.2.2) = none → Does (p.1 f) s
        (Main.bump { n with req := { n.req with walks := n.req.walks ++ [f] } } (F.TUFT_TLBSTAT_MISSES f.die.val f.tuft.val)))) ∧
  (∀ (s : State) (f : Firing), Executes s.main f .load → s.main.req.cmpWait.contains f = false → 64 ≤ s.main.outstanding f.die f.tuft →
    f ∈ s.main.tok.ready → Does (.load f) s s.main) ∧
  (∀ (f : Firing), f.va .load = (f.left.value.toNat % 2 ^ 48 + f.right.value.toNat) % 2 ^ 48 ∧ f.va .store = f.va .load ∧ f.va .iload = f.va .load ∧
    f.va .aadd = f.left.value.toNat % 2 ^ 48 ∧ MemOp.data .store f = (f.third.value, 0) ∧ MemOp.data .acas f = (f.right.value, f.third.value) ∧
    MemOp.data .aadd f = (f.right.value, 0)) ∧
  (∀ (pa n : Nat), aligned pa n 0 = (pa % n == 0)) ∧
  (∀ (c pa : Nat) (o : MemOp) (r w : Bool), protDetail c o pa r w = 0 ↔
    (o.needs.1 = true → r = true) ∧ (o.needs.2 = true → w = true) ∧ isRegs pa = false ∧ (reservedFsram pa = true → c = 255))

/-- R124, R131, R133, R134, R261 to R263: MEMORY_RESPONSE performs an outstanding request that its target admits, on words without an error, and answers it: a load
gives the W/8 bytes in little-endian order, of the TYPE that FLAGS names; a store writes them, or sets or clears bits through those alias
windows, and gives BOOL true; an atomic gives the old value, extended by SX, and writes the new one, ACAS only on a match. A request that is not
outstanding changes nothing, one whose target is not ready waits there, one behind a request that a
handover holds is held too, a conflict at port B is counted, and a store that loses there is not performed and faults.
The device's own writes come ahead of what a handover holds (log 198). -/
def Obligations.MemoryResponses : Prop :=
  (∀ (s : State) (r : MemReq), s.main.Served r → r.op = .load ∨ r.op = .pload →
    let n := s.main.unasked r
    (∀ wa ∈ wordsOf r.pa r.bytes, n.wordUe wa = false ∧ wa ∉ n.mem.ce) →
    Does (.memoryResponse r .clear) s (n.answerBoth r.f (r.f.loaded (bytesGet n.mem.cells (plainPa r.pa) r.bytes))).settleInv) ∧
  (∀ (s : State) (r : MemReq) (k : Main), s.main.Served r → r.op = .store ∨ r.op = .pstore →
    let n := s.main.unasked r
    (bitAlias r.pa = true → ∀ wa ∈ wordsOf r.pa r.bytes, n.wordUe wa = false ∧ wa ∉ n.mem.ce) →
    n.writeMem r.pa (aliasValue r.pa (bytesGet n.mem.cells (plainPa r.pa) r.bytes) r.data.toNat r.bytes) r.bytes = (true, k) →
    Does (.memoryResponse r .clear) s (k.answerBoth r.f (opBool true)).settleInv) ∧
  (∀ (s : State) (r : MemReq), s.main.Served r → r.op.atomic = true →
    let n := s.main.unasked r
    let old := bytesGet n.mem.cells (plainPa r.pa) r.bytes
    (∀ wa ∈ wordsOf r.pa r.bytes, n.wordUe wa = false ∧ wa ∉ n.mem.ce) →
    let o : Opnd := { value := extInt r.f.w r.f.sx old, typ := tyInt }
    (r.op.newValue r.bytes old r.data r.data2 = none → Does (.memoryResponse r .clear) s (n.answerBoth r.f o).settleInv) ∧
    (∀ v, r.op.newValue r.bytes old r.data r.data2 = some v →
      Does (.memoryResponse r .clear) s ((n.writeMem r.pa v r.bytes).2.answerBoth r.f o).settleInv)) ∧
  (∀ (n old : Nat) (x y : Word), MemOp.newValue .aadd n old x y = some ((old + x.toNat % 256 ^ n) % 256 ^ n) ∧
    MemOp.newValue .aand n old x y = some (old &&& (x.toNat % 256 ^ n)) ∧ MemOp.newValue .aor n old x y = some (old ||| (x.toNat % 256 ^ n)) ∧
    MemOp.newValue .axor n old x y = some (old ^^^ (x.toNat % 256 ^ n)) ∧ MemOp.newValue .axchg n old x y = some (x.toNat % 256 ^ n) ∧
    MemOp.newValue .acas n old x y = if old = x.toNat % 256 ^ n then some (y.toNat % 256 ^ n) else none) ∧
  (∀ (s : State) (r : MemReq) (p : PortB), r ∉ s.main.req.reqs → Does (.memoryResponse r p) s s.main) ∧
  (∀ (s : State) (r : MemReq) (p : PortB), r ∈ s.main.req.reqs → isRegs r.pa = false → s.main.gate r.id r.pa r.op.needs.2 = .wait →
    Does (.memoryResponse r p) s (s.main.waitAt r.pa (.request r)).settleInv) ∧
  (∀ (m : Main) (pa b : Nat) (w : HeldBy), bankOf pa = some b → (m.draining pa = true ∨ m.heldAhead pa w = true → (b, w) ∉ m.mem.held →
      m.waitAt pa w = { m with mem := { m.mem with held := m.mem.held ++ [(b, w)] } }) ∧
    (m.draining pa = false → m.heldAhead pa w = false → m.waitAt pa w = m.wakeFor pa)) ∧
  (∀ (s : State) (r : MemReq) (x : HeldBy) (p : PortB), r ∈ s.main.req.reqs → isRegs r.pa = false → s.main.gate r.id r.pa r.op.needs.2 = .go →
    s.main.heldFirst r.pa = some x → x ≠ .request r → Does (.memoryResponse r p) s (s.main.waitAt r.pa (.request r)).settleInv) ∧
  (∀ (s : State) (r : MemReq), s.main.Served r → viaPortB r.f.die.val r.pa = true → r.op.canLose r.pa = true →
    (r.op = .istore → s.main.presence (wordOf r.pa) ≠ 1) →
    Does (.memoryResponse r .loses) s ((((s.main.unasked r).countPort r.pa true).parkOp r.f fcWlost (wlostDetail r.pa) r.pa).settleInv)) ∧
  (∀ (s : State) (r : MemReq), s.main.Served r → viaPortB r.f.die.val r.pa = true →
    Does (.memoryResponse r .waits) s (((s.main.unasked r).countPort r.pa false).reqDo r).settleInv) ∧
  (∀ (o : MemOp) (pa : Nat), o.canLose pa = true ↔ o = .istore ∨ ((o = .store ∨ o = .pstore) ∧ (aliasOf pa = 0 ∨ aliasOf pa = 3)))

/-- R39, R132: memory is bytes in little-endian order. A byte reads as it was last written, a write leaves every other byte alone, and every write keeps the canonical
form of memory: addresses rising, no byte listed that equals an unwritten one. -/
def Obligations.MemoryKeepsBytes : Prop :=
  (∀ (l : List Host.Cell) (a v n : Nat), cellsWf l = true →
    cellsWf (bytesPut l a v n) = true ∧ bytesGet (bytesPut l a v n) a n = v % 256 ^ n ∧
    (∀ b, b < a ∨ a + n ≤ b → cellGet (bytesPut l a v n) b = cellGet l b)) ∧
  (∀ (k l : List Host.Cell), cellsWf k = true → cellsWf l = true → (∀ a, cellGet k a = cellGet l a) → k = l) ∧
  (∀ (m : Main) (pa v n : Nat) (k : Main), cellsWf m.mem.cells = true → (n = 1 ∨ n = 2 ∨ n = 4 ∨ n = 8) → m.writeMem pa v n = (true, k) →
    cellsWf k.mem.cells = true ∧ k.peek pa n = v % 256 ^ n ∧
    (∀ b, b < plainPa pa ∨ plainPa pa + n ≤ b → cellGet k.mem.cells b = cellGet m.mem.cells b) ∧
    k.regs = m.regs ∧ k.tok = m.tok ∧ k.req = m.req ∧ k.tuft = m.tuft) ∧
  (∀ (d o a : Nat), 1 ≤ d → d ≤ 5 → o < 0x4000000 → a < 4 →
    plainPa (0x8000000000 + d * 0x1000000000 + a * 0x100000000 + o) = 0x8000000000 + d * 0x1000000000 + o ∧
    regionOf (0x8000000000 + d * 0x1000000000 + a * 0x100000000 + o) = .scratch d (o / 0x100000) (o % 0x100000) a)

/-- R137 to R139: I-structures. A read of a FULL word gives its value; of an EMPTY or DEFERRED one it is recorded, and the word becomes DEFERRED. A
write of a word that is not FULL stores it, makes it FULL, is acknowledged and delivers the deferred reads in their order; a write of a
FULL one faults and stores nothing. ICLEAR makes a word EMPTY unless it is DEFERRED, which faults. -/
def Obligations.IStructures : Prop :=
  (∀ (s : State) (r : MemReq), s.main.Served r → r.op = .iload →
    s.main.presence (wordOf r.pa) ≠ 1 → s.main.wordUe (wordOf r.pa) = false → s.main.deferred (regionOf r.pa).die < 8192 →
    Does (.memoryResponse r .clear) s (((s.main.unasked r).deferRead r.f (fin8 (regionOf r.pa).die) (wordOf r.pa)).observe r.f.ctx).settleInv) ∧
  (∀ (s : State) (r : MemReq), s.main.Served r → r.op = .iload →
    s.main.presence (wordOf r.pa) = 1 →
    let n := s.main.unasked r
    (∀ wa ∈ wordsOf r.pa r.bytes, n.wordUe wa = false ∧ wa ∉ n.mem.ce) →
    Does (.memoryResponse r .clear) s (n.answerBoth r.f (r.f.loaded (bytesGet n.mem.cells (plainPa r.pa) r.bytes))).settleInv) ∧
  (∀ (s : State) (r : MemReq) (k : Main), s.main.Served r → r.op = .istore →
    s.main.presence (wordOf r.pa) ≠ 1 → (s.main.unasked r).storePhys r.id r.pa r.data.toNat 8 = (.ok 0, k) →
    Does (.memoryResponse r .clear) s
      (((k.setPresence (wordOf r.pa) 1).answerBoth r.f (opBool true)).deliverDeferred (wordOf r.pa) r.data.toNat).settleInv) ∧
  (∀ (s : State) (r : MemReq) (p : PortB), s.main.Served r → r.op = .istore →
    s.main.presence (wordOf r.pa) = 1 → r.port p ≠ .waits →
    Does (.memoryResponse r p) s ((s.main.unasked r).parkOp r.f fcIstructRewrite 0 r.pa).settleInv) ∧
  (∀ (s : State) (r : MemReq), s.main.Served r → r.op = .iclear →
    (s.main.presence (wordOf r.pa) ≠ 2 →
      Does (.memoryResponse r .clear) s (((s.main.unasked r).setPresence (wordOf r.pa) 0).answerBoth r.f (opBool true)).settleInv) ∧
    (s.main.presence (wordOf r.pa) = 2 → Does (.memoryResponse r .clear) s ((s.main.unasked r).parkOp r.f fcIstructBusy 0 r.pa).settleInv)) ∧
  (∀ (m : Main) (f : Firing) (die : Fin 8) (wa : Nat), f.replay = none →
    (m.deferRead f die wa).presence wa = 2 ∧ (m.deferRead f die wa).req.defer = m.req.defer ++ [{ die := die, word := wa, ret := f.ret, flags := f.i.flags }]) ∧
  (∀ (m : Main) (wa v : Nat), (m.deliverDeferred wa v).req.defer = m.req.defer.filter (fun d => d.word != wa)) ∧
  (∀ (m : Main) (wa v x : Nat), Rising m.mem.istr → (m.setPresence wa v).presence x = if x = wa then v else m.presence x)

/-- R271 to R277: TABLE_WALK reads the tables from the root: level 1 at VA[47:36], level 2 at VA[35:25], level 3 at VA[24:16], each entry 8 bytes. A leaf at
level 2 maps 32 MiB, one at level 3 maps 64 KiB; the mapping enters the TLB and the operation that waits goes on with it. An entry that is not
valid, or is malformed, or cannot be read ends the walk with TRANSLATION, level and reason. The misses of the tuft to the same page join the walk and
share its end. -/
def Obligations.TableWalks : Prop :=
  (∀ (s : State) (f : Firing) (b1 b2 b3 e1 e2 e3 : Nat) (m1 m2 m3 : Main), f ∈ s.main.req.walks → s.main.xlateOn f.ctx.toNat = true →
    let x := s.main.xlateOf f
    s.main.tlbFind x f.walkVa = none → s.main.wcFind x 2 (bitsOf f.walkVa 25 23) = none → s.main.wcFind x 1 (bitsOf f.walkVa 36 12) = none →
    b1 = s.main.ptRoot f.ctx.toNat x.part → s.main.walkRead x (b1 + bitsOf f.walkVa 36 12 * 8) = .ok e1 m1 → pteKind 1 e1 = .ok false → b2 = ptePa e1 →
    (m1.wcKeep x 1 (bitsOf f.walkVa 36 12) b2).walkRead x (b2 + bitsOf f.walkVa 25 11 * 8) = .ok e2 m2 →
    let fin := fun (m : Main) (e : TlbEntry) =>
      let fs := m.joined f (fun va => vpnOf e.big va == e.vpn)
      (fs.foldl (fun m g => m.walked g e) ((fs.foldl Main.unwalk m).tlbInsert e)).settleInv
    (pteKind 2 e2 = .ok true → Does (.tableWalk f) s (fin m2 (leafEntry x true f.walkVa e2))) ∧
    (pteKind 2 e2 = .ok false → b3 = ptePa e2 →
      (m2.wcKeep x 2 (bitsOf f.walkVa 25 23) b3).walkRead x (b3 + bitsOf f.walkVa 16 9 * 8) = .ok e3 m3 → pteKind 3 e3 = .ok true →
      Does (.tableWalk f) s (fin m3 (leafEntry x false f.walkVa e3)))) ∧
  (∀ (m : Main) (f g : Firing) (p : Nat → Bool), g ∈ m.joined f p ↔ g = f ∨ (g ≠ f ∧ g ∈ m.req.walks ∧ m.xlateOf g = m.xlateOf f ∧ p g.walkVa = true)) ∧
  (∀ (s : State) (f : Firing) (e : Nat) (m : Main), f ∈ s.main.req.walks → s.main.xlateOn f.ctx.toNat = true →
    let x := s.main.xlateOf f
    s.main.tlbFind x f.walkVa = none → s.main.wcFind x 2 (bitsOf f.walkVa 25 23) = none → s.main.wcFind x 1 (bitsOf f.walkVa 36 12) = none →
    s.main.walkRead x (s.main.ptRoot f.ctx.toNat x.part + bitsOf f.walkVa 36 12 * 8) = .ok e m →
    let fs := m.joined f (fun va => va / 2 ^ 16 == f.walkVa / 2 ^ 16)
    ∀ r, pteKind 1 e = .error r → r ≠ 2 →
      Does (.tableWalk f) s (fs.foldl (fun m g => m.parkOp g fcTranslation (1 + 4 * r) g.walkVa) (fs.foldl Main.unwalk m)).settleInv) ∧
  (∀ (s : State) (f : Firing) (p : TlbEntry), f ∈ s.main.req.walks → s.main.xlateOn f.ctx.toNat = true →
    s.main.tlbFind (s.main.xlateOf f) f.walkVa = some p → Does (.tableWalk f) s ((s.main.unwalk f).walked f p).settleInv) ∧
  (∀ (s : State) (f : Firing), f ∉ s.main.req.walks → Does (.tableWalk f) s s.main) ∧
  (∀ (level e : Nat), bitsOf e 0 1 = 0 → pteKind level e = .error 0) ∧
  (∀ (level e : Nat), bitsOf e 0 1 = 1 → bitsOf e 5 7 ≠ 0 → pteKind level e = .error 1) ∧
  (∀ (e : Nat), bitsOf e 0 1 = 1 → bitsOf e 5 7 = 0 →
    (pteKind 1 e = .ok false ↔ bitsOf e 1 1 = 0) ∧ (pteKind 2 e = .ok false ↔ bitsOf e 1 1 = 0) ∧
    (pteKind 2 e = .ok true ↔ bitsOf e 1 1 = 1 ∧ bitsOf e 12 13 = 0) ∧ (pteKind 3 e = .ok true ↔ bitsOf e 1 1 = 1 ∧ bitsOf e 12 4 = 0)) ∧
  (∀ (x : Xlate) (va e : Nat), (leafEntry x true va e).paOf va = bitsOf e 12 28 * 4096 + va % 2 ^ 25 ∧
    (leafEntry x false va e).paOf va = bitsOf e 12 28 * 4096 + va % 2 ^ 16)

/-- R161 to R163: the privileged operations, in contexts 0 and 255 alone; any other context's is parked with PRIV. PLOAD and PSTORE become requests
at the physical address, without translation. IMWRITE replaces a slot of an instruction memory and IMREAD reads one. TLBINV removes a page, or
with FLAGS[0] all, of a context from every TLB and is answered when the earlier accesses it names are done. -/
def Obligations.PrivilegedOperations : Prop :=
  (∀ p ∈ ([(.pload, .pload, .pload), (.pstore, .pstore, .pstore)] : List ((Firing → Instr) × Op × MemOp)),
    ∀ (s : State) (f : Firing), Executes s.main f p.2.1 → s.main.outstanding f.die f.tuft < 64 → (s.main.requested f).isPaired f = false → f.left.isPhys = true →
    let n := s.main.requested f
    let pa := (f.left.value.toNat + f.right.value.toNat) % 2 ^ 40
    (privileged f.ctx = true → (reservedFsram pa = true → f.ctx = 255) → (isRegs pa = true → f.w = 64 ∧ pa % 8 = 0) →
      (isRegs pa = false → aligned pa (f.w / 8) (aliasOf pa) = true) →
      let d := p.2.2.data f
      Does (p.1 f) s (n.asks { f := f, op := p.2.2, pa := pa, bytes := f.w / 8, data := d.1, data2 := d.2 })) ∧
    (privileged f.ctx = false → Does (p.1 f) s (n.parkOp f fcPriv f.i.opc.toNat 0))) ∧
  (∀ (s : State) (f : Firing) (d t i : Nat), Executes s.main f .imwrite → s.main.outstanding f.die f.tuft < 64 → (s.main.requested f).isPaired f = false →
    locator f.left.value.toNat = some (d, t, i) → f.right.value.toNat ≤ 3 →
    let n := s.main.requested f
    (privileged f.ctx = true → n.compute d = true → n.reaches f.die.val d = true →
      Does (.imwrite f) s ((n.setSlot (fin8 d) (fin8 t) i (slotKindOf f.right.value.toNat) f.third.value).answerBoth f (opBool true))) ∧
    (privileged f.ctx = false → Does (.imwrite f) s (n.parkOp f fcPriv f.i.opc.toNat 0))) ∧
  (∀ (s : State) (f : Firing) (d t i : Nat), Executes s.main f .imread → s.main.outstanding f.die f.tuft < 64 → (s.main.requested f).isPaired f = false →
    locator f.left.value.toNat = some (d, t, i) →
    let n := s.main.requested f
    let x := s.main.slot (fin8 d) (fin8 t) i
    (privileged f.ctx = true → n.compute d = true → n.reaches f.die.val d = true →
      Does (.imread f) s (n.answer f (some ⟨x.2, tyInt⟩) (some (opnd tyInt x.1.code)))) ∧
    (privileged f.ctx = false → Does (.imread f) s (n.parkOp f fcPriv f.i.opc.toNat 0))) ∧
  (∀ (s : State) (f : Firing), Executes s.main f .tlbinv → s.main.outstanding f.die f.tuft < 64 → (s.main.requested f).isPaired f = false →
    f.left.value.toNat < 256 →
    let page := if f.i.flags.getLsbD 0 then none else some (f.right.value.toNat % 2 ^ 48)
    let n := ((s.main.requested f).tlbDrop (BitVec.ofNat 8 f.left.value.toNat) page).tlbDrop (BitVec.ofNat 8 f.left.value.toNat) page
    (privileged f.ctx = true → s.main.req.walks = [] → s.main.req.reqs = [] → s.main.req.tlbInvs = [] →
      Does (.tlbinv f) s (n.answerBoth f (opBool true))) ∧
    (privileged f.ctx = false → Does (.tlbinv f) s ((s.main.requested f).parkOp f fcPriv f.i.opc.toNat 0))) ∧
  (∀ (m : Main) (c : BitVec 8) (a : Nat) (e : TlbEntry), (e ∈ (m.tlbDrop c none).tuft.tlb ↔ e ∈ m.tuft.tlb ∧ e.ctx ≠ c) ∧
    (e ∈ (m.tlbDrop c (some a)).tuft.tlb ↔ e ∈ m.tuft.tlb ∧ (e.ctx ≠ c ∨ e.vpn ≠ vpnOf e.big a))) ∧
  (∀ (m : Main) (d t : Fin 8) (i : Nat) (k : SlotKind) (w : Word), (m.setSlot d t i k w).slot d t i = (k, w) ∧
    ∀ (d' t' : Fin 8) (j : Nat), (d', t', j) ≠ (d, t, i) → (m.setSlot d t i k w).slot d' t' j = m.slot d' t' j)

/-- R140, R141, R146, R314, R320: SEND and RECV. A SEND that finds room commits a one-word packet with the next serial; one that finds none is held, or with NOWAIT answers
FULL. A RECV takes the oldest visible word, with its TYPE, and RXINFO marks the first and the last word of its packet; on an empty runnel it is
held, or with NOWAIT answers EMPTY and sends nothing to DEST0. HELD_RUNNEL_REQUEST serves a held request when it can be served. Where a unit is an
endpoint each side sees the other's count with a lag (R322, R323), which the command names.
A NOWAIT RECV beside held ones and the bounds of the lag are the model's readings (log 242, 244). -/
def Obligations.RunnelSendRecv : Prop :=
  (∀ (s : State) (f : Firing) (io : RnIo) (d i : Nat), Executes s.main f .send → s.main.outstanding f.die f.tuft < 64 →
    let n := (s.main.requested f).rnSees f d i io
    let r := n.rn d i
    runnelId f.right.value.toNat = some (d, i) → (s.main.requested f).rnReaches f .send d i →
    (n.rnRoom r = true → io.ecc ≠ .uncorrectable → n.rnDiscards d i [f.left] = false →
      let p : Packet := { serial := n.get (F.RUNNEL_SEQ_SER d i), words := [f.left], got := 0, since := n.now, at_ := n.now }
      Does (.send f io) s (((n.tookSerial d i).putRn { r with pkts := r.pkts ++ [p], commitLag := r.commitLag + b2n (n.rnCrosses d i) }).answerBoth f (rstat 0 1 d i))) ∧
    (n.rnRoom r = false → f.nowait = true → Does (.send f io) s (n.answerBoth f (rstat 1 0 d i))) ∧
    (n.rnRoom r = false → f.nowait = false → Does (.send f io) s (n.rnHold f d i))) ∧
  (∀ (s : State) (f : Firing) (io : RnIo) (d i : Nat), Executes s.main f .recv → s.main.outstanding f.die f.tuft < 64 →
    let n := (s.main.requested f).rnSees f d i io
    let r := n.rn d i
    runnelId f.right.value.toNat = some (d, i) → (s.main.requested f).rnReaches f .recv d i →
    (∀ (p : Packet) (ps : List Packet) (o : Opnd), r.pkts = p :: ps → p.words[p.got]? = some o → (∀ h ∈ r.held, h.op ≠ some .recv) → r.visible = true → io.ecc = .ok →
      let last := decide (p.got + 1 = p.words.length)
      let info := rxinfo 0 (b2n (p.got == 0) + 2 * b2n last + 4 * p.got) d i
      Does (.recv f io) s ((n.putRn { n.rnFrees r 1 with
          pkts := if last then ps else { p with got := p.got + 1 } :: ps }).answer f (some o) (some info))) ∧
    (r.visible = false ∨ (0 < r.held.countP (fun h => h.op == some .recv) ∧ r.seen ≤ r.held.countP (fun h => h.op == some .recv)) → f.nowait = true →
      Does (.recv f io) s (Main.answer { n with fresh := n.fresh + 1 } f none (some (rxinfo 4 (Config.freeValue n.fresh) d i)))) ∧
    (r.visible = false → f.nowait = false → Does (.recv f io) s (n.rnHold f d i))) ∧
  (∀ (m : Main) (f : Firing) (d i : Nat), ∃ k, (m.rnHold f d i) = (m.storeRn { m.rn d i with held := (m.rn d i).held ++ [{ f with via := m.cameFrom f d }] }).set (F.RUNNEL_ENG_PEAK d) k) ∧
  (∀ (s : State) (f : Firing) (r : Runnel) (ps : List Packet) (p : Packet) (o : Opnd) (lag : Nat), s.main.runnels = [r] → r.held = [f] → f.op = some .recv → r.pkts = p :: ps →
    p.words = [o] → p.got = 0 → s.main.rnCrosses r.die r.idx = false → r.commitLag = 0 →
    ∃ t, exec (.heldRunnelRequest f { ecc := .ok, lag := lag }) s = .next t ∧ (t.main.rn r.die r.idx).held = [] ∧
      (t.main.rn r.die r.idx).pkts = ps ∧ t.isl = s.isl) ∧
  (∀ (m : Main) (r : Runnel) (n : Nat), (m.rnCrosses r.die r.idx = false → m.rnFrees r n = r) ∧
    (m.rnCrosses r.die r.idx = true → { m.rnFrees r n with frees := r.frees } = r ∧ (m.rnFrees r n).frees.take r.frees.length = r.frees ∧
      (m.rnFrees r n).frees.length = r.frees.length + n ∧
      ∀ t ∈ (m.rnFrees r n).frees.drop r.frees.length, 1000 * m.now + m.freeBound r.die r.idx ≤ t)) ∧
  (∀ (m : Main) (r : Runnel), m.rnRoom r = true ↔ r.occ + r.frees.length + 1 ≤ m.rnCap r.die r.idx ∧ m.rnBlocked r.die r.idx = false) ∧
  (∀ (r : Runnel), r.visible = false → r.seen = 0) ∧
  (∀ (m : Main) (d i lag : Nat), let r := m.rn d i
    ((m.rnSeeCommits d i lag).rn d i).commitLag ≤ lag ∧ ((m.rnSeeCommits d i lag).rn d i).pkts = r.pkts ∧
    ((∀ p ∈ r.pkts, 1000 * p.at_ + m.commitBound d i ≤ 1000 * m.now) → ((m.rnSeeCommits d i lag).rn d i).commitLag = 0) ∧
    ((∀ t ∈ r.frees, t ≤ 1000 * m.now) → ((m.rnSeeFrees d i lag).rn d i).frees = []) ∧ ((m.rnSeeFrees d i lag).rn d i).pkts = r.pkts) ∧
  (∀ (s : State) (f : Firing) (io : RnIo), (∀ r ∈ s.main.runnels, f ∉ r.held) → Does (.heldRunnelRequest f io) s s.main)

/-- R142 to R145: packets. PKTBEGIN opens a packet with the next serial and reserves a slot; PKTWORD appends a word for the handle as it stands and returns the
next handle; PKTCOMMIT makes the packet visible as a whole (an empty one as an EMPTYPKT word), or answers FLUSHED or ABORTED; PKTABORT discards it.
FLUSH discards what is visible and dooms the open packet. DROPREST drops the rest of a packet that has been read in part.
R317, R318: PUSH_DELIVERY sends the next visible word of a push runnel as a token of its consumer, to the PUSH register's IA plus the word's index, in a
frame of FHI and the packet's serial, unless its index lies beyond SPAN: then it is dropped and counted. It waits while the consumer is
throttled or a packet may not be started. -/
def Obligations.RunnelPackets : Prop :=
  ((∀ (s : State) (f : Firing) (io : RnIo) (d i : Nat), Executes s.main f .pktbegin → s.main.outstanding f.die f.tuft < 64 →
    let n := (s.main.requested f).rnSees f d i io
    let r := n.rn d i
    runnelId f.right.value.toNat = some (d, i) → (s.main.requested f).rnReaches f .pktbegin d i → r.open_ = none → n.rnRoom r = true →
    let ser := n.get (F.RUNNEL_SEQ_SER d i)
    let p : OpenPkt := { serial := ser, next := 0, words := [], doomed := false, aborted := false, by_ := some f.ret, via := (n.tookSerial d i).cameFrom f d }
    Does (.pktbegin f io) s (((n.tookSerial d i).putRn { r with open_ := some p }).answerBoth f (pktVal d i 0 ser))) ∧
  (∀ (s : State) (f : Firing) (io : RnIo) (d i : Nat), Executes s.main f .pktbegin → s.main.outstanding f.die f.tuft < 64 →
    let n := (s.main.requested f).rnSees f d i io
    let r := n.rn d i
    runnelId f.right.value.toNat = some (d, i) → (s.main.requested f).rnReaches f .pktbegin d i → r.open_.isSome = true →
    Does (.pktbegin f io) s (n.parkOp f fcPktOpen (rnId d i % 65536) (rnId d i))) ∧
  (∀ (s : State) (f : Firing) (io : RnIo) (d i : Nat) (p : OpenPkt), Executes s.main f .pktword → s.main.outstanding f.die f.tuft < 64 →
    let n := ((s.main.requested f).rnSees f d i io).rnArrives f d i
    let r := n.rn d i
    f.left.pktOf p d i → (s.main.requested f).rnReaches f .pktword d i → r.open_ = some p → p.doomed = false → p.aborted = false → p.words.length < n.rnCap d i → p.words.length < 65535 →
    io.ecc ≠ .uncorrectable → (p.words = [] ∨ n.rnRoom r = true) →
    let q : OpenPkt := { p with next := p.next + 1, words := p.words ++ [f.right] }
    Does (.pktword f io) s ((n.putRn { r with open_ := some q }).answerBoth f (pktVal d i (p.next + 1) p.serial))) ∧
  (∀ (m : Main) (f : Firing) (d i : Nat) (p q : OpenPkt), f.op = some .pktword → (m.rn d i).open_ = some p → p.handles f.left = true →
    ((m.rnArrives f d i).rn d i).open_ = some q → q = { p with via := q.via } ∧ ∀ x, x ∈ q.via ↔ x ∈ p.via ∨ x ∈ m.cameFrom f d) ∧
  (∀ (s : State) (f : Firing) (io : RnIo) (d i : Nat) (p : OpenPkt), Executes s.main f .pktcommit → s.main.outstanding f.die f.tuft < 64 →
    let n := s.main.requested f
    let r := n.rn d i
    f.left.pktOf p d i → n.rnReaches f .pktcommit d i → r.open_ = some p → p.aborted = false →
    (p.doomed = false → ¬ (io.ecc = .uncorrectable ∧ p.words = []) → n.rnDiscards d i (if p.words = [] then [emptyPkt] else p.words) = false →
      let v : Packet := { serial := p.serial, words := if p.words = [] then [emptyPkt] else p.words, got := 0, since := n.now, at_ := n.now }
      Does (.pktcommit f io) s ((n.putRn { r with
        open_ := none, pkts := r.pkts ++ [v], commitLag := r.commitLag + b2n (n.rnCrosses d i) }).answerBoth f (rstat 0 p.words.length d i))) ∧
    (p.doomed = true → Does (.pktcommit f io) s ((n.putRn { r with open_ := none }).rstatLost f 2 d i))) ∧
  (∀ (s : State) (f : Firing) (d i : Nat) (p : OpenPkt), Executes s.main f .pktabort → s.main.outstanding f.die f.tuft < 64 →
    let n := s.main.requested f
    let r := n.rn d i
    f.left.pktOf p d i → n.rnReaches f .pktabort d i → r.open_ = some p → p.aborted = false →
    Does (.pktabort f) s (((n.bump (F.RUNNEL_STAT_ABORTS d i)).putRn { r with open_ := none }).rstatLost f 3 d i)) ∧
  (∀ (s : State) (f : Firing) (d i : Nat), Executes s.main f .flush → s.main.outstanding f.die f.tuft < 64 →
    let n := s.main.requested f
    let r := n.rn d i
    runnelId f.right.value.toNat = some (d, i) → n.rnReaches f .flush d i →
    let doom := fun (p : OpenPkt) => if p.aborted then p else { p with doomed := true, words := [] }
    Does (.flush f) s ((n.putRn { n.rnFrees r (r.pkts.map (fun p => p.words.length - p.got)).sum with
      pkts := [], open_ := r.open_.map doom }).answerBoth f (rstat 0 r.pkts.length d i))) ∧
  (∀ (s : State) (f : Firing) (d i : Nat) (p : Packet) (ps : List Packet), Executes s.main f .droprest → s.main.outstanding f.die f.tuft < 64 →
    let n := s.main.requested f
    let r := n.rn d i
    runnelId f.right.value.toNat = some (d, i) → n.rnReaches f .droprest d i → n.rnPush d i = false → r.pkts = p :: ps →
    (p.got ≠ 0 → Does (.droprest f) s ((n.putRn { n.rnFrees r (p.words.length - p.got) with pkts := ps }).answerBoth f (rstat 0 (p.words.length - p.got) d i))) ∧
    (p.got = 0 → Does (.droprest f) s (n.answerBoth f (rstat 0 0 d i)))) ∧
  (∀ (m : Main) (f : Firing) (st d i : Nat), m.rstatLost f st d i = Main.answerBoth { m with fresh := m.fresh + 1 } f (rstat st (Config.freeValue m.fresh) d i))) ∧
  ((∀ (s : State) (die : Fin 8) (idx : Fin 16384) (p : Packet) (ps : List Packet) (o : Opnd) (lag : Nat),
    let io : RnIo := { ecc := .ok, lag := lag }
    let n := s.main.rnSeeCommits die.val idx.val lag
    let r := n.rn die.val idx.val
    r.pkts = p :: ps → r.visible = true → n.live (.runnel die.val idx.val) = true → n.rnPush die.val idx.val = true → (n.rnCons die.val idx.val).1 = 0 →
    n.dead (n.rnCons die.val idx.val).2 = false → n.throttled (n.rnCons die.val idx.val).2 = false → p.words[p.got]? = some o →
    n.get (F.RUNNEL_PUSH_CRED die.val idx.val) = 0 →
    let last := decide (p.got + 1 = p.words.length)
    let k := n.putRn { n.rnFrees r 1 with
      pkts := if last then ps else { p with got := p.got + 1 } :: ps }
    (p.got ≤ n.get (F.RUNNEL_PUSH_SPAN die.val idx.val) →
      Does (.pushDelivery die idx io) s (k.send (k.pushToken die.val idx.val (n.rnCons die.val idx.val).2 p.got p.serial o))) ∧
    (n.get (F.RUNNEL_PUSH_SPAN die.val idx.val) < p.got → Does (.pushDelivery die idx io) s (k.bump (F.RUNNEL_STAT_PUSHTRUNC die.val idx.val)))) ∧
  (∀ (s : State) (die : Fin 8) (idx : Fin 16384) (io : RnIo),
    let n := s.main.rnSeeCommits die.val idx.val io.lag
    n.throttled (n.rnCons die.val idx.val).2 = true → Does (.pushDelivery die idx io) s n) ∧
  (∀ (m : Main) (d i c k ser : Nat) (o : Opnd),
    let t := m.pushToken d i c k ser o
    t.value = o.value ∧ t.typ = o.typ ∧ t.wsel = 0 ∧ t.stamp = 0 ∧ t.ctx = BitVec.ofNat 8 c ∧ t.ia = BitVec.ofNat 20 (m.get (F.RUNNEL_PUSH_IA d i) + k) ∧
    t.port = BitVec.ofNat 2 (m.get (F.RUNNEL_PUSH_PORT d i)) ∧ t.frame.extractLsb' 0 12 = BitVec.ofNat 12 ser))

/-- R147 to R149, R45: WSTAMP sends its left operand to both destinations with WSEL the reference and STAMP its third operand, or with FLAGS[0] the
window of that position. WINFO passes its operand on and tells the WSEL with which its token came. REFGET gives the position of a reference
as the tuft holds it, or with FLAGS[0] its window, and the direction. A reference outside 1 to 48 is a BAD_OPERAND.
R207: the condition of a stamp S at window W under each rule, with d the difference W − S modulo 2^32, and the table of cases that
R207 lists. -/
def Obligations.WeirOperations : Prop :=
  ((∀ (s : State) (f : Firing) (r : Nat), Executes s.main f .wstamp → refOperand f.right.value.toNat = some r → f.replay = none →
    let n := s.main.executed f
    let st := if f.i.flags.getLsbD 0 then windowOf (sgn 64 f.third.value.toNat) (n.refShift r) else f.third.value.toNat % 2 ^ 32
    let gate := fun (t : Token) => { t with wsel := BitVec.ofNat 6 r, stamp := BitVec.ofNat 32 st }
    Does (.wstamp f) s { n with tok := { n.tok with inflight := n.tok.inflight ++
      ((resultToken n f true (some f.left)).map gate ++ (resultToken n f false (some f.left)).map gate) } }) ∧
  (∀ (s : State) (f : Firing), Executes s.main f .winfo →
    Does (.winfo f) s ((s.main.executed f).result f (some f.left) (some (opnd tyInt f.wsel.toNat)))) ∧
  (∀ (s : State) (f : Firing) (r : Nat), Executes s.main f .refget → refOperand f.right.value.toNat = some r →
    let n := s.main.executed f
    let b := n.bus f.die f.tuft
    let p := if f.i.flags.getLsbD 0 then windowOf (b.at_ r) (n.refShift r) else uns 64 (b.at_ r)
    Does (.refget f) s (n.result f (some (opnd tyInt p)) (some (opBool (b.up r))))) ∧
  (∀ (s : State) (f : Firing), Executes s.main f .wstamp → refOperand f.right.value.toNat = none → Does (.wstamp f) s ((s.main.executed f).badOperand f 1)) ∧
  (∀ x : Nat, refOperand x = if 1 ≤ x ∧ x ≤ 48 then some x else none) ∧
  (∀ (p : Int) (k : Nat), windowOf p k = ((p / (2 ^ k : Nat)) % (2 ^ 32 : Nat)).toNat)) ∧
  ((∀ (w x : Nat) (o : Option Bool), w < 2 ^ 32 → x < 2 ^ 32 → (stampHolds 0 x w o = true ↔ (w + 2 ^ 32 - x) % 2 ^ 32 < 2 ^ 31) ∧
    (stampHolds 1 x w o = true ↔ (x + 2 ^ 32 - w) % 2 ^ 32 < 2 ^ 31) ∧
    (stampHolds 2 x w o = true ↔ w = x ∨ ∃ neg, o = some neg ∧ decide (2 ^ 31 ≤ (w + 2 ^ 32 - x) % 2 ^ 32) ≠ neg)) ∧
  (stampHolds 0 0x100 0xF0 none = false ∧ stampHolds 0 0x100 0x100 (some true) = true ∧ stampHolds 0 0x10 0xFFFFFFF8 none = false ∧
    stampHolds 0 0x10 0x12 (some true) = true ∧ stampHolds 0 0x80000000 0 none = false ∧ stampHolds 0 0x80000001 0 none = true ∧
    stampHolds 0 0x1000 0x800 (some true) = false ∧ stampHolds 1 0x100 0x200 none = false ∧ stampHolds 1 0x100 0xFF (some false) = true ∧
    stampHolds 2 0x1000 0xF00 none = false ∧ stampHolds 2 0x1000 0x1001 (some true) = true ∧ stampHolds 2 0x1000 0xE00 (some true) = false))

/-- R150, R216, R217, R219, R224: the scheduler takes a write of the channel's owner. A stamp that is crossed already is late: it is counted, applied at once or with
LATEPOL discarded, and OUTACK says LATE. Any other becomes a pending entry while the scheduler and the channel have room, and is parked with OUT_FULL
otherwise. OUTNOW is applied at once. A write of another context, which is no designate, is refused with OUT_NOT_OWNED. -/
def Obligations.StampedOutputs : Prop :=
  (∀ (s : State) (f : Firing) (r c : Nat), Executes s.main f .outst → s.main.outstanding f.die f.tuft < 64 →
    let n := s.main.requested f
    channelWord f.right.value.toNat = some (r, c) → refOperand r = some r → n.chanValueOk c f.left.value.toNat = true → n.isPaired f = false →
    n.live (.channel c) = true →
    let st := n.stampOf f r
    let w := n.outWindow c r
    let v := f.left.value.toNat
    (n.outOwner c f.ctx.toNat = true →
      (stampHolds (n.refRule r) st w none = true → n.flag (F.OUTSCHED_CFG_LATEPOL c) = false → n.mode ≠ 11 →
        Does (.outst f) s (((n.bump (F.OUTSCHED_STAT_LATE c)).applyOut c v).answerBoth f (outack true c st))) ∧
      (stampHolds (n.refRule r) st w none = true → n.flag (F.OUTSCHED_CFG_LATEPOL c) = true →
        Does (.outst f) s (((n.bump (F.OUTSCHED_STAT_LATE c)).bump (F.OUTSCHED_STAT_DISCARDED c)).answerBoth f (outack true c st))) ∧
      (stampHolds (n.refRule r) st w none = false → n.outRoom c = true →
        let e : OutEntry := { ch := c, ref := r, stamp := st, value := v, ctx := f.ctx.toNat, slot := none, seen := some (stampSign st w) }
        Does (.outst f) s ((n.setOuts (n.ref.outs ++ [e])).answerBoth f (outack false c st))) ∧
      (stampHolds (n.refRule r) st w none = false → n.outRoom c = false → Does (.outst f) s (n.parkOp f fcOutFull c c))) ∧
    (n.outOwner c f.ctx.toNat = false → n.designate c f.ctx.toNat = none → Does (.outst f) s (n.opFault f fcOutNotOwned c c)) ∧
    (∀ k, n.outOwner c f.ctx.toNat = false → n.designate c f.ctx.toNat = some k → n.outRoom c = true →
      let e : OutEntry := { ch := c, ref := r, stamp := st, value := v, ctx := f.ctx.toNat, slot := some k, seen := none }
      Does (.outst f) s ((n.setOuts (n.ref.outs ++ [e])).answerBoth f (outack false c st)))) ∧
  (∀ (s : State) (f : Firing) (c : Nat), Executes s.main f .outnow → s.main.outstanding f.die f.tuft < 64 →
    let n := s.main.requested f
    channelWord f.right.value.toNat = some (0, c) → n.chanValueOk c f.left.value.toNat = true → n.isPaired f = false → n.live (.channel c) = true →
    (n.outOwner c f.ctx.toNat = true → n.mode ≠ 11 → Does (.outnow f) s
      ((Main.applyOut { n with fresh := n.fresh + 1 } c f.left.value.toNat).answerBoth f (outack false c (Config.freeValue n.fresh % 2 ^ 32)))) ∧
    (n.outOwner c f.ctx.toNat = false → Does (.outnow f) s (n.opFault f fcOutNotOwned c c))) ∧
  (∀ (m : Main) (l : List OutEntry), (m.setOuts l).ref.outs = l ∧
    (m.setOuts l).get F.OUTSCHED_POOL_MINFREE ≤ m.get F.OUTSCHED_POOL_MINFREE) ∧
  (∀ (m : Main) (c : Nat), m.outRoom c = true ↔ m.ref.outs.length < 16384 ∧
    (m.ref.outs.filter (fun o => o.ch == c)).length < Nat.max 1 (m.get (F.OUTSCHED_CFG_CAP c)))

/-- R216, R218, R220, R224, R398: OUTPUT_SCHEDULER_STEP applies the entries that are due, those of one reference in the order of their stamps along the
direction of travel and otherwise in the order of acceptance, and keeps the others. A write of OWN that changes it cancels the pending entries
and counts them, one that does not changes nothing, and one of a channel that a changeover names is ignored. CANCEL cancels the pending entries. The
step waits for the commit of a changeover that is due (R226), and a number that names no channel has no effect. -/
def Obligations.OutputScheduler : Prop :=
  (∀ (s : State) (o : OutEntry) (b : Bool), s.main.mode ≠ 10 → s.main.mode ≠ 11 → s.main.chgsDue = false → s.main.ref.outs = [o] → o.seen = some b →
    (s.main.outHolds o = true → Does .outputSchedulerStep s ((s.main.setOuts []).applyOut o.ch o.value)) ∧
    (s.main.outHolds o = false → Does .outputSchedulerStep s (s.main.setOuts [o]))) ∧
  (∀ (s : State) (o p : OutEntry) (b d : Bool), s.main.mode ≠ 10 → s.main.mode ≠ 11 → s.main.chgsDue = false → s.main.ref.outs = [o, p] → o.seen = some b → p.seen = some d →
    s.main.outHolds o = true → s.main.outHolds p = true →
    (o.ref ≠ p.ref ∨ stampBefore (s.main.travelUp o.ref) p.stamp o.stamp = false →
      Does .outputSchedulerStep s (((s.main.setOuts []).applyOut o.ch o.value).applyOut p.ch p.value)) ∧
    (o.ref = p.ref → stampBefore (s.main.travelUp o.ref) p.stamp o.stamp = true →
      Does .outputSchedulerStep s (((s.main.setOuts []).applyOut p.ch p.value).applyOut o.ch o.value))) ∧
  (∀ (m : Main) (a b c : OutEntry), a.ref = c.ref → b.ref ≠ a.ref → stampBefore (m.travelUp a.ref) c.stamp a.stamp = true →
    m.dueOrder [a, b, c] = [c, b, a]) ∧
  (∀ (s : State), s.main.mode = 10 ∨ s.main.mode = 11 ∨ s.main.chgsDue = true → Does .outputSchedulerStep s s.main) ∧
  (∀ (s : State) (c : Fin 1088) (v : Word), chanOk c.val = true → s.main.chgNames 3 c.val = [] →
    let ctx := v.toNat % 256
    let own := bitsOf v.toNat 8 1 == 1
    let mine := s.main.ref.outs.filter (fun o => o.ch == c.val && o.slot.isNone)
    (s.main.get (F.OUTSCHED_OWN_CTX c.val) = ctx → s.main.flag (F.OUTSCHED_OWN_OWNED c.val) = own → Does (.outschedOwnWrite c v) s s.main) ∧
    (s.main.get (F.OUTSCHED_OWN_CTX c.val) ≠ ctx ∨ s.main.flag (F.OUTSCHED_OWN_OWNED c.val) ≠ own → mine = [] →
      Does (.outschedOwnWrite c v) s ((s.main.set (F.OUTSCHED_OWN_CTX c.val) ctx).set (F.OUTSCHED_OWN_OWNED c.val) (b2n own))) ∧
    (s.main.get (F.OUTSCHED_OWN_CTX c.val) ≠ ctx ∨ s.main.flag (F.OUTSCHED_OWN_OWNED c.val) ≠ own → mine ≠ [] →
      Does (.outschedOwnWrite c v) s ((((s.main.setOuts (s.main.ref.outs.filter (fun o => !(o.ch == c.val && o.slot.isNone)))).bumpBy
        (F.OUTSCHED_STAT_CANCELLED c.val) mine.length).set (F.OUTSCHED_OWN_CTX c.val) ctx).set (F.OUTSCHED_OWN_OWNED c.val) (b2n own)))) ∧
  (∀ (s : State) (c : Fin 1088) (v : Word) (k : Nat), chanOk c.val = true → s.main.chgNames 3 c.val = [k] →
    Does (.outschedOwnWrite c v) s (s.main.bump (F.CHG_STAT_LOCKHITS k))) ∧
  (∀ (s : State) (c : Fin 1088), chanOk c.val = true →
    let mine := s.main.ref.outs.filter (fun o => o.ch == c.val && o.slot.isNone)
    (mine = [] → Does (.outschedCancel c) s s.main) ∧
    (mine ≠ [] → Does (.outschedCancel c) s ((s.main.setOuts (s.main.ref.outs.filter (fun o => !(o.ch == c.val && o.slot.isNone)))).bumpBy
      (F.OUTSCHED_STAT_CANCELLED c.val) mine.length))) ∧
  (∀ (s : State) (c : Fin 1088) (v : Word), chanOk c.val = false → Does (.outschedOwnWrite c v) s s.main ∧ Does (.outschedCancel c) s s.main) ∧
  (∀ c : Nat, chanOk c = true ↔ c ≤ 0x3F ∨ (0x100 ≤ c ∧ c ≤ 0x13F) ∨ (0x200 ≤ c ∧ c ≤ 0x3BF) ∨ (0x400 ≤ c ∧ c ≤ 0x43F))

/-- R192, R194, R195, R198 to R200, R204, R231, R538: REFERENCE_STEP. Wall time advances by one nanosecond at the trimmed rate, then every enabled reference of 2 to 48 is
interpolated, the derived ones last, from their sources' new positions, and crossing events are raised; at the end of the nanosecond motor words that load at once do (R387),
what the runnels of units hold back crosses (R323), and receivers hear again (R442). In STANDBY wall time alone goes on. A reference whose port has lost a signal holds (R377). WALL follows wall time. A VIRTUAL reference advances by
VEL/2^16 with the remainder carried. An edge source advances from its last edge by min(⌊Δ·t/P⌋, Δ − 1). A sampled source extrapolates its last two samples and
never moves back.
A WALL reference that moves against its direction follows log 257. -/
def Obligations.ReferenceSteps : Prop :=
  (∀ (s : State), s.main.tick.mode = 10 → s.main.sys.waking = false → Does .referenceStep s s.main.tick) ∧
  (∀ (s : State) (r : Nat), s.main.tick.mode ≠ 10 → 2 ≤ r → r ≤ 48 → (∀ q, 2 ≤ q → q ≤ 48 → (s.main.tick.refEn q = true ↔ q = r)) →
    Does .referenceStep s ((((s.main.tick.refInterp r).refEvents 1).refEvents r).unlessStandby Main.stepEnd)) ∧
  (∀ (s : State), s.main.tick.mode ≠ 10 → (∀ q, 2 ≤ q → q ≤ 48 → s.main.tick.refEn q = false) → Does .referenceStep s ((s.main.tick.refEvents 1).unlessStandby Main.stepEnd)) ∧
  (∀ (s : State), s.main.tick.mode ≠ 10 → ∃ m, Does .referenceStep s m ∧ ∀ r, 2 ≤ r → r ≤ 48 →
    (s.main.tick.refEn r = false → m.refPos r = s.main.refPos r) ∧
    (s.main.tick.refEn r = true → s.main.tick.refKind r ≠ 6 → m.refPos r = (s.main.tick.refInterp r).refPos r) ∧
    (∀ q, s.main.tick.refEn r = true → s.main.tick.refKind r = 6 → q = s.main.tick.refSel r → 2 ≤ q → q ≤ 48 → s.main.tick.refEn q = true →
      s.main.tick.refKind q ≠ 6 → m.refPos r = ((s.main.tick.refInterp q).refInterp r).refPos r)) ∧
  (∀ (m : Main), (∀ k, k < 16 → m.get (F.MOTOR_CFG_LOAD k) ≠ 3) → m.runnels = [] → m.surv.deaf = [] → m.stepEnd = m) ∧
  (∀ (m : Main) (r : Nat), m.refLost r = true → m.refInterp r = m) ∧
  (∀ (m : Main) (r : Nat), m.refKind r = 1 → m.refInterp r = m.refFollow { m.refSt r with stand := false } m.now) ∧
  (∀ (m : Main) (r : Nat), m.refKind r = 6 → m.refInterp r = m.refFollow (m.refSt r) (m.refPos (m.refSel r))) ∧
  (∀ (m : Main), (∀ k, k < 16 → m.get (F.MOTOR_CFG_LOAD k) ≠ 3) → m.motorsNow = m) ∧
  (∀ (m : Main), m.get F.TIME_RATE_TRIM = 0 → m.tick = { m with wall := { m.wall with ns := m.wall.ns + (m.wall.frac + 2 ^ 40) / 2 ^ 40, frac := m.wall.frac % 2 ^ 40 } }) ∧
  (∀ (m : Main) (r : Nat), 2 ≤ r → m.refKind r = 8 →
    let st := m.refSt r
    let a := st.rem + sgn 64 (m.get (F.REF_VEL_VEL r))
    m.refInterp r = m.putRef { st with pos := st.pos + a / 65536, rem := a % 65536, stand := m.get (F.REF_VEL_VEL r) == 0 }) ∧
  (∀ (m : Main) (r : Nat), m.refKind r = 2 ∨ m.refKind r = 7 → m.refLost r = false →
    let st := m.refSt r
    (st.extrapolates = true →
      let p := m.refPeriods st
      let d := m.refDelta st
      let off := Nat.min (d * (m.now - st.lastAdv.getD 0) * p.1 / p.2) (d - 1)
      m.refInterp r = m.putRef { st with pos := if st.dir then m.refE st st.far + off else m.refE st st.far - off }) ∧
    (st.extrapolates = false → m.refInterp r = m)) ∧
  (∀ (m : Main) (r : Nat) (p q t u : Int) (a b : Nat), m.refKind r ∈ [3, 4, 5, 9] → m.refLost r = false → (m.refSt r).samp = some (p, a) → (m.refSt r).samp2 = some (q, b) →
    (m.refSt r).x = (m.refSt r).far → (m.refSt r).stand = false → t = Nat.min (m.now - a) (a - b) → u = p + (p - q) * t / (a - b : Nat) →
    m.refInterp r = m.putRef { m.refSt r with pos := if beyond (m.refSt r).dir u (m.refSt r).pos then u else (m.refSt r).pos }) ∧
  (∀ (m : Main) (st : RefSt) (x : Int), m.refE st x = st.p0 + (x - st.x0) * m.refNum st.r / m.refDen st.r) ∧
  (∀ (step phase : Nat) (a b p : Int), 0 < step → (p ∈ crossPoints step phase a b ↔
    (p - phase) % (step : Int) = 0 ∧ ((a < b ∧ a < p ∧ p ≤ b) ∨ (b < a ∧ b ≤ p ∧ p < a))))

/-- R197, R199, R200, R202, R205, R231: the commands on a reference. SRC, SCALE and WIN are written while EN is 0, and otherwise only a write that clears EN alone is accepted; any
other sets CFGREF. PRESET sets the position while EN is 0, else sets PRESETREF. A VEL of the other sign than the last non-zero one is a declared reversal of a VIRTUAL
reference. An edge beyond the furthest reading moves a reference, with what is extrapolated since its timestamp; it stands before the second edge after a reversal or an enable. SAMPLET commits a sample. REFERENCE_STANDSTILL marks an edge source that has had no edge for 4 P as standing, and its history restarts. -/
def Obligations.ReferenceCommands : Prop :=
  (∀ (s : State) (r : Fin 49) (v : Word), 2 ≤ r.val → s.main.refEn r.val = false → bitsOf v.toNat 0 4 < 10 →
    let n := (s.main.set (F.REF_SRC_KIND r.val) (bitsOf v.toNat 0 4)).set (F.REF_SRC_SEL r.val) (bitsOf v.toNat 4 6)
    (bitsOf v.toNat 10 1 = 0 → Does (.refSrcWrite r .src v) s n) ∧
    (bitsOf v.toNat 10 1 = 1 → Does (.refSrcWrite r .src v) s ((n.set (F.REF_SRC_EN r.val) 1).refEnable r.val))) ∧
  (∀ (s : State) (r : Fin 49) (v : Word), 2 ≤ r.val → s.main.refEn r.val = true →
    (bitsOf v.toNat 10 1 = 0 → bitsOf v.toNat 0 4 = s.main.refKind r.val → bitsOf v.toNat 4 6 = s.main.refSel r.val →
      Does (.refSrcWrite r .src v) s (s.main.set (F.REF_SRC_EN r.val) 0)) ∧
    (bitsOf v.toNat 10 1 = 1 ∨ bitsOf v.toNat 0 4 ≠ s.main.refKind r.val ∨ bitsOf v.toNat 4 6 ≠ s.main.refSel r.val →
      Does (.refSrcWrite r .src v) s (s.main.set (F.REF_STAT_CFGREF r.val) 1)) ∧
    Does (.refSrcWrite r .scale v) s (s.main.set (F.REF_STAT_CFGREF r.val) 1) ∧ Does (.refSrcWrite r .win v) s (s.main.set (F.REF_STAT_CFGREF r.val) 1)) ∧
  (∀ (s : State) (r : Fin 49) (v : Word), 2 ≤ r.val → s.main.refEn r.val = false →
    Does (.refSrcWrite r .scale v) s ((s.main.set (F.REF_SCALE_NUM r.val) (bitsOf v.toNat 0 32)).set (F.REF_SCALE_DEN r.val) (bitsOf v.toNat 32 32)) ∧
    (bitsOf v.toNat 6 2 ≠ 3 → Does (.refSrcWrite r .win v) s ((((s.main.set (F.REF_WIN_SHIFT r.val) (bitsOf v.toNat 0 6)).set
      (F.REF_WIN_DIR r.val) (bitsOf v.toNat 6 2)).set (F.REF_WIN_PAVG r.val) (bitsOf v.toNat 8 2)).set (F.REF_WIN_REVHYST r.val) (bitsOf v.toNat 16 8)))) ∧
  (∀ (s : State) (r : Fin 49) (v : Word), 1 ≤ r.val →
    let p := sgn 64 v.toNat
    let w := p / (2 ^ s.main.refShift r.val : Nat)
    (s.main.refEn r.val = false → Does (.refPresetWrite r v) s (s.main.putRef { s.main.refSt r.val with pos := p, rem := 0, lastWin := w, farWin := w })) ∧
    (s.main.refEn r.val = true → Does (.refPresetWrite r v) s (s.main.set (F.REF_STAT_PRESETREF r.val) 1))) ∧
  (∀ (s : State) (r : Fin 49) (v : Word), 1 ≤ r.val →
    let n := s.main.set (F.REF_VEL_VEL r.val) v.toNat
    let vel := sgn 64 v.toNat
    let st := n.refSt r.val
    (vel = 0 → Does (.refVelWrite r v) s n) ∧
    (n.refKind r.val ≠ 8 → vel ≠ 0 → Does (.refVelWrite r v) s (n.putRef { st with vneg := some (decide (vel < 0)) })) ∧
    (n.refKind r.val = 8 → vel ≠ 0 → st.vneg ≠ some (decide (0 < vel)) →
      Does (.refVelWrite r v) s (n.putRef { st with vneg := some (decide (vel < 0)), dir := decide (0 < vel) })) ∧
    (n.refKind r.val = 8 → vel ≠ 0 → st.vneg = some (decide (0 < vel)) →
      Does (.refVelWrite r v) s ((n.putRef { st with vneg := some (decide (vel < 0)), dir := decide (0 < vel) }).bump (F.REF_STAT_REVERSALS r.val)))) ∧
  (∀ (s : State) (r : Fin 49) (v : Word), 1 ≤ r.val →
    let n := s.main.set (F.REF_SAMPLET_TIME r.val) v.toNat
    let new := sgn 64 (n.get (F.REF_SAMPLE_VALUE r.val))
    (n.refKind r.val ≠ 9 → Does (.refSampletWrite r v) s n) ∧
    (n.refKind r.val = 9 → n.refEn r.val = true →
      Does (.refSampletWrite r v) s (n.refSample r.val ((n.refSt r.val).x + unwrapDiff (2 ^ 64) new (n.refSt r.val).src) new v.toNat))) ∧
  (∀ (s : State) (r : Fin 49), s.main.refEn r.val = true → s.main.refKind r.val = 2 ∨ s.main.refKind r.val = 7 → (s.main.refSt r.val).stand = false →
    let still := s.main.refStill (s.main.refSt r.val) s.main.now
    (still = true → Does (.referenceStandstill r) s (s.main.putRef { s.main.refSt r.val with stand := true, edges := 0, periods := [], lastAdv := none })) ∧
    (still = false → Does (.referenceStandstill r) s s.main)) ∧
  (∀ (m : Main) (st : RefSt) (x : Int), x ≠ st.far → beyond (m.refUp st) x st.far = false → m.get (F.REF_WIN_REVHYST st.r) < (x - st.far).natAbs →
    m.refFollow st x = (m.putRef { st with x := x, far := x, dir := !st.dir, pos := m.refE st x }).bump (F.REF_STAT_REVERSALS st.r)) ∧
  (∀ (m : Main) (r : Nat) (x : Int) (ts : Nat), beyond (m.refUp (m.refSt r)) x (m.refSt r).far = true →
    (m.refSt r).stand = true ∨ m.refStill (m.refSt r) ts = false →
    let st := m.refSt r
    m.refEdge r x ts = (m.putRef { st with
      x := x, far := x, pos := m.refE st x, edges := st.edges + 1, steps := Nat.min 2 (st.steps + 1), lastEdge := ts, lastAdv := some ts,
      stand := decide (st.steps + 1 < 2), periods := match st.lastAdv with
        | some t => ((ts - t) :: st.periods).take 8
        | none => st.periods }).refInterp r) ∧
  (∀ (range new old : Int), 0 < range → (unwrapDiff range new old - (new - old)) % range = 0 ∧ -range < 2 * unwrapDiff range new old ∧
    2 * unwrapDiff range new old ≤ range)

/-- R221, R223 to R226, R229, R578: changeover. ARM starts staging unless the slot is staging or armed; a descriptor that is not aligned or does not lie wholly in one memory aborts it
with DESC_FAULT, and a COUNT of 0 arms it. When staging is done the first invalid entry aborts it, else it is ARMED, or commits or aborts at once if its
trigger holds already. The crossing of the trigger commits it, after every slot of a lower number that is due; ABORT and TMO abort it. A commit applies its swaps, of routes, placement, owners
and RUN, in the field die's own units, and records itself in STAT, with LATE where the condition held already. The designate's entries become pending, or are late where their condition holds. -/
def Obligations.Changeover : Prop :=
  (∀ (s : State) (k : Fin 4),
    let st := s.main.get (F.CHG_STAT_STATE k.val)
    let n := s.main.chgBegin k.val
    let base := n.get (F.CHG_DESC_BASE k.val)
    let c := Nat.min 1024 (n.get (F.CHG_DESC_COUNT k.val))
    (st = 1 ∨ st = 2 → Does (.chgArm k) s s.main) ∧
    (st ≠ 1 → st ≠ 2 → base % 16 ≠ 0 ∨ (c ≠ 0 ∧ inFsram base (16 * c) = false ∧ n.inScratch base (16 * c) = false) →
      Does (.chgArm k) s (n.chgAbort k.val 8 0)) ∧
    (st ≠ 1 → st ≠ 2 → base % 16 = 0 → c = 0 → Does (.chgArm k) s (n.chgArmed k.val)) ∧
    (st ≠ 1 → st ≠ 2 → base % 16 = 0 → c ≠ 0 → inFsram base (16 * c) = true ∨ n.inScratch base (16 * c) = true →
      let r := n.chgRead c base 0
      Does (.chgArm k) s (r.2.2.putChg { r.2.2.chg k.val with entries := r.1, bad := r.2.1 }))) ∧
  (∀ (s : State) (k : Fin 4), s.main.get (F.CHG_STAT_STATE k.val) = 1 →
    let es := (s.main.chg k.val).entries
    (∀ err i, s.main.chgFirstErr k.val es [] es 0 = some (err, i) → Does (.chgStagingDone k) s (s.main.chgAbort k.val err i)) ∧
    (∀ i, s.main.chgFirstErr k.val es [] es 0 = none → (s.main.chg k.val).bad = some i → Does (.chgStagingDone k) s (s.main.chgAbort k.val 8 i)) ∧
    (s.main.chgFirstErr k.val es [] es 0 = none → (s.main.chg k.val).bad = none → Does (.chgStagingDone k) s (s.main.chgArmed k.val))) ∧
  (∀ (m : Main) (k : Nat), k < 4 →
    let w := m.chgWindow k
    let st := m.get (F.CHG_TRIG_STAMP k)
    let n := (m.set (F.CHG_STAT_STATE k) 2).putChg { m.chg k with armedAt := m.now, seen := stampSign st w }
    (stampHolds (m.refRule (m.chgRef k)) st w none = false → m.chgArmed k = n) ∧
    (stampHolds (m.refRule (m.chgRef k)) st w none = true → m.flag (F.CHG_CTL_LATEACT k) = true → m.chgArmed k = n.chgAbort k 5 0) ∧
    (stampHolds (m.refRule (m.chgRef k)) st w none = true → m.flag (F.CHG_CTL_LATEACT k) = false → m.chgArmed k = n.chgCommit k true)) ∧
  (∀ (s : State) (k : Fin 4), s.main.get (F.CHG_STAT_STATE k.val) = 2 →
    let hit := s.main.refEn (s.main.chgRef k.val) && stampHolds (s.main.refRule (s.main.chgRef k.val)) (s.main.get (F.CHG_TRIG_STAMP k.val))
      (s.main.chgWindow k.val) (some (s.main.chg k.val).seen)
    let tmo := s.main.get (F.CHG_CTL_TMO k.val)
    (hit = true → (∀ j, j < k.val → s.main.chgDue j = false) → Does (.chgCommit k) s (s.main.chgCommit k.val false)) ∧
    (hit = false ∨ (∃ j, j < k.val ∧ s.main.chgDue j = true) → Does (.chgCommit k) s s.main) ∧
    Does (.chgAbort k) s (s.main.chgAbort k.val 7 0) ∧
    (tmo ≠ 0 → (s.main.chg k.val).armedAt + tmo * 1000 ≤ s.main.now → Does (.chgTimeout k) s (s.main.chgAbort k.val 6 0)) ∧
    (tmo = 0 ∨ s.main.now < (s.main.chg k.val).armedAt + tmo * 1000 → Does (.chgTimeout k) s s.main)) ∧
  (∀ (m : Main) (k err idx : Nat), k < 4 → err < 16 → idx < 1024 →
    (m.chgAbort k err idx).get (F.CHG_STAT_STATE k) = 4 ∧ (m.chgAbort k err idx).get (F.CHG_STAT_ERR k) = err ∧
    (m.chgAbort k err idx).get (F.CHG_STAT_ERRIDX k) = idx ∧ (∀ o ∈ (m.chgAbort k err idx).ref.outs, o.slot ≠ some k)) ∧
  (∀ (m : Main) (k : Nat) (late : Bool), k < 4 → (m.chgCommit k late).get (F.CHG_STAT_STATE k) = 3 ∧
    ((m.chg k).entries = [] → (∀ o ∈ m.ref.outs, o.slot ≠ some k) → (m.chgCommit k late).get (F.CHG_CTIME_TIME k) = m.now % 2 ^ 64)) ∧
  (∀ (m : Main) (k : Nat), k < 4 → (m.chgCommit k true).get (F.CHG_STAT_LATE k) = 1) ∧
  (∀ (m : Main) (e : ChgEntry), e.kind = 4 → m.swap e = if m.dead e.target then m else m.runChange e.target e.value) ∧
  (∀ (m : Main) (k : Nat) (late : Bool) (e : ChgEntry), k < 4 → (m.chg k).entries = [e] → (∀ o ∈ m.ref.outs, o.slot ≠ some k) →
    let n := m.chgCommit k late
    let t := e.target
    let v := e.value
    (e.kind = 1 → t < 1024 → n.get (F.EVT_ROUTE_CTX t) = bitsOf v 0 8 ∧ n.get (F.EVT_ROUTE_IA t) = bitsOf v 8 20 ∧ n.get (F.EVT_ROUTE_PORT t) = bitsOf v 28 2 ∧
      n.get (F.EVT_ROUTE_EN t) = bitsOf v 30 1 ∧ n.get (F.EVT_ROUTE_FRAME t) = bitsOf v 32 24) ∧
    (e.kind = 2 → t < 65536 → v < 2 ^ 20 → n.master t = v ∧ n.place 0 (t / 256) (t % 256) = v) ∧
    (e.kind = 3 → chanOk t = true → n.get (F.OUTSCHED_OWN_CTX t) = v % 256 ∧ (n.flag (F.OUTSCHED_OWN_OWNED t) = true ↔ bitsOf v 8 1 = 0) ∧
      (m.get (F.OUTSCHED_OWN_CTX t) ≠ v % 256 → ∀ o ∈ n.ref.outs, o.ch = t → o.slot ≠ none)) ∧
    (e.kind = 4 → t < 256 → m.run t = 1 ∨ m.run t = 2 → v = 1 ∨ v = 2 → n.run t = v)) ∧
  (∀ (m : Main) (o : OutEntry),
    let w := m.outWindow o.ch o.ref
    let holds := stampHolds (m.refRule o.ref) o.stamp w none
    (holds = true → m.mode ≠ 11 → m.designateCommit o = (m.setOuts (m.ref.outs.erase o)).outLate o.ch o.value) ∧
    (holds = false → m.designateCommit o = m.setOuts (m.ref.outs.erase o ++ [{ o with slot := none, seen := some (stampSign o.stamp w) }]))) ∧
  (∀ (m : Main) (k : Nat) (es others : List ChgEntry) (e : ChgEntry), m.chgErr k es e others = none →
    1 ≤ e.kind ∧ e.kind ≤ 4 ∧ chgTargetOk e = true ∧ m.chgValueOk e = true ∧ ∀ x ∈ others, ¬ (x.kind = e.kind ∧ x.target = e.target))

/-- R26, R27, R206 to R208, R210, R213, R226, R228: the reference bus and the weirs. The field die sends every position, direction and commit count with a rising number, once a changeover that is due has committed. A good frame that is the
expected one replaces what the tuft holds and ends a hold, brings in the placement of a slot whose commit count has changed, and then the weir is evaluated; a bad one changes no position and is counted, and from
the third in a row releases are held. A token whose condition holds leaves the weir, late at its first evaluation with WSEL 63, and otherwise
with its WSEL; one whose time is over leaves with WSEL 62 or is parked. What a tuft holds of a block that has moved goes on as one token per
operand. -/
def Obligations.BusAndWeirs : Prop :=
  (∀ (s : State), s.main.chgsDue = true → Does .refbusFrameSend s s.main) ∧
  (∀ (s : State), s.main.chgsDue = false → Does .refbusFrameSend s (Main.set { s.main with ref := { s.main.ref with frame :=
    { seq := (s.main.ref.frame.seq + 1) % 2 ^ 16, pos := (List.range 48).map (fun i => s.main.refPos (i + 1)),
      dirn := (List.range 48).map (fun i => (s.main.refSt (i + 1)).dir), counts := s.main.ref.commits } } } F.REFBUS_BUS_SEQ
    ((s.main.ref.frame.seq + 1) % 2 ^ 16))) ∧
  (∀ (s : State) (die tuft : Fin 8), s.main.compute die.val = true → s.main.dieLive die.val = true →
    let b := s.main.bus die tuft
    let f := s.main.ref.frame
    (b.seq = none ∨ b.seq = some f.seq → (∀ k, k < 4 → f.counts.getD k 0 = b.counts.getD k 0) →
      Does (.refbusFrameReceive die tuft true) s ((s.main.putBus { b with bad := 0, hold := false, seq := some ((f.seq + 1) % 2 ^ 16), pos := f.pos,
                                                                          dirn := f.dirn, counts := f.counts }).weirEval die tuft)) ∧
    (∀ k, k < 4 → b.seq = none ∨ b.seq = some f.seq → f.counts.getD k 0 ≠ b.counts.getD k 0 →
      (∀ j, j < 4 → j ≠ k → f.counts.getD j 0 = b.counts.getD j 0) → (∀ i, (s.main.chg k).moved = [i] →
        let n := s.main.putBus { b with bad := 0, hold := false, seq := some ((f.seq + 1) % 2 ^ 16), pos := f.pos, dirn := f.dirn, counts := f.counts }
        Does (.refbusFrameReceive die tuft true) s (((n.copyPlace i [die.val]).handOver die tuft i).weirEval die tuft))) ∧
    (b.seq ≠ none → b.seq ≠ some f.seq → b.bad + 1 < 3 → Does (.refbusFrameReceive die tuft true) s
      ((s.main.putBus { b with seq := some ((f.seq + 1) % 2 ^ 16), bad := b.bad + 1, hold := false }).raiseEvent 10 die.val die.val tuft.val false)) ∧
    (3 ≤ b.bad + 1 → Does (.refbusFrameReceive die tuft false) s
      (((s.main.putBus { b with seq := b.seq.map (fun n => (n + 1) % 2 ^ 16), bad := b.bad + 1, hold := true }).bump
        (F.TUFT_WEIRREL_HOLDS die.val tuft.val)).raiseEvent 10 die.val die.val tuft.val true))) ∧
  (∀ (m : Main) (w : WeirTok), m.tuft.weir = [w] → m.weirHolds w = true →
    let n := Main.arrive { m with tuft := { m.tuft with weir := [] } } w.die w.tuft
    m.weirEval w.die w.tuft =
      if w.seen = none then (n { w.tok with wsel := 63, released := true }).bump (F.TUFT_WEIROCC_LATES w.die.val w.tuft.val)
      else (n { w.tok with released := true }).bump (F.TUFT_WEIRREL_RELEASED w.die.val w.tuft.val)) ∧
  (∀ (m : Main) (w : WeirTok) (b : Bool), m.tuft.weir = [w] → m.weirHolds w = false → w.seen = some b → m.weirEval w.die w.tuft = m) ∧
  (∀ (m : Main) (v w : WeirTok), m.tuft.weir = [v, w] → v.die = w.die → v.tuft = w.tuft → v.tok.wsel = w.tok.wsel → m.weirHolds v = true →
    m.weirHolds w = true → stampBefore (m.travelUp w.tok.wsel.toNat) w.tok.stamp.toNat v.tok.stamp.toNat = true →
    m.weirEval w.die w.tuft = (Main.releaseCrossed { m with tuft := { m.tuft with weir := [] } } w).releaseCrossed v) ∧
  (∀ (s : State) (w : WeirTok), s.main.tuft.weir.find? (fun x => x.die == w.die && x.tuft == w.tuft && x.tok == w.tok) = some w →
    let r := w.tok.wsel.toNat
    let n := Main.bump { s.main with tuft := { s.main.tuft with weir := s.main.tuft.weir.erase w } } (F.TUFT_WEIRREL_TIMEOUTS w.die.val w.tuft.val)
    (s.main.get (F.REF_WEIR_TMO r) ≠ 0 → w.entered + s.main.get (F.REF_WEIR_TMO r) * 1000 ≤ s.main.now → (s.main.bus w.die w.tuft).hold = false →
      s.main.weirHolds w = false → n.flag (F.REF_WEIR_TMOACT r) = false →
      Does (.weirTimeout w.die w.tuft w.tok) s (n.arrive w.die w.tuft { w.tok with wsel := 62, released := true })) ∧
    (s.main.get (F.REF_WEIR_TMO r) ≠ 0 → w.entered + s.main.get (F.REF_WEIR_TMO r) * 1000 ≤ s.main.now → (s.main.bus w.die w.tuft).hold = false →
      s.main.weirHolds w = false → n.flag (F.REF_WEIR_TMOACT r) = true →
      Does (.weirTimeout w.die w.tuft w.tok) s (n.parkTok w.tok fcWeirTimeout r w.die w.tuft false)) ∧
    (s.main.get (F.REF_WEIR_TMO r) = 0 ∨ s.main.weirHolds w = true → Does (.weirTimeout w.die w.tuft w.tok) s s.main)) ∧
  (∀ (e : MsEntry) (t : Token), t ∈ e.tokens → (t.ctx, t.frame, t.ia, t.side) = (e.ctx, e.frame, e.ia, e.side) ∧ t.wsel = 0 ∧
    ((t.port = 0 ∧ e.left = some ⟨t.value, t.typ⟩) ∨ (t.port = 1 ∧ e.right = some ⟨t.value, t.typ⟩) ∨ (t.port = 3 ∧ e.third = some ⟨t.value, t.typ⟩))) ∧
  (∀ (f : Firing) (t : Token), t ∈ f.tokens → (t.ctx, t.frame, t.ia, t.side) = (f.ctx, f.frame, f.ia, f.side) ∧ t.wsel = 0 ∧
    (((t.port = 0 ∨ t.port = 2) ∧ f.pres.getLsbD 0 = true ∧ f.left = ⟨t.value, t.typ⟩) ∨ (t.port = 1 ∧ f.pres.getLsbD 1 = true ∧ f.right = ⟨t.value, t.typ⟩) ∨
      (t.port = 3 ∧ f.pres.getLsbD 2 = true ∧ f.third = ⟨t.value, t.typ⟩)))

/-- R151 to R153, R335 to R342: SLACQ and SLREL on an enabled sluice. A claim of a free sluice is granted at once and tells whether it was abandoned; one by the holder is a
repeat; with timeout 0 any other is refused, and with another timeout it waits in the pool, or is parked when the pool is full. SLREL by the holder frees the sluice and grants the next waiter; by
another identity it is refused. The waiter whose time has passed is told so. -/
def Obligations.SluiceOperations : Prop :=
  (∀ (s : State) (f : Firing) (n o tmo : Nat), Executes s.main f .slacq → s.main.outstanding f.die f.tuft < 64 →
    let m := s.main.requested f
    let ident := f.ctx.toNat * 256 + o
    sluiceWord f.right.value.toNat = some (n, o, tmo) → m.isPaired f = false → m.live (.sluice n) = true →
    (m.slHeld n = false → Does (.slacq f) s
      (((m.slTake n ident).set (F.SLUICE_HOLDER_ABANDONED n) 0).answerBoth f (sluiceVal n ident 0 (m.flag (F.SLUICE_HOLDER_ABANDONED n)) 0))) ∧
    (m.slHeld n = true → m.holder n = ident → Does (.slacq f) s ((m.bump (F.SLUICE_STAT_GRANTS n)).answerBoth f (sluiceVal n ident 2 false 0))) ∧
    (m.slHeld n = true → m.holder n ≠ ident → tmo = 0 → Does (.slacq f) s (m.answerBoth f (sluiceVal n (m.holder n) 3 false 0))) ∧
    (m.slHeld n = true → m.holder n ≠ ident → tmo ≠ 0 → m.waiters.length < 2048 → f.replay = none →
      let w : Waiter := { sluice := n, origin := o, f := f, joined := m.now, deadline := if tmo = 0xFFFFFF then none else some (m.now + tmo * 1000) }
      Does (.slacq f) s (Main.set { m with waiters := m.waiters ++ [w] } F.SLUICE_POOL_MINFREE
        (Nat.min (m.get F.SLUICE_POOL_MINFREE) (2048 - (m.waiters.length + 1))))) ∧
    (m.slHeld n = true → m.holder n ≠ ident → tmo ≠ 0 → 2048 ≤ m.waiters.length →
      Does (.slacq f) s ((m.bump F.SLUICE_POOL_POOLFULL).parkOp f fcSluicePoolfull n f.right.value.toNat))) ∧
  (∀ (s : State) (f : Firing) (n o tmo : Nat), Executes s.main f .slrel → s.main.outstanding f.die f.tuft < 64 →
    let m := s.main.requested f
    sluiceWord f.right.value.toNat = some (n, o, tmo) → m.isPaired f = false → m.live (.sluice n) = true →
    (m.slHeld n = true → m.holder n = f.ctx.toNat * 256 + o → Does (.slrel f) s ((m.slFree n false).answerBoth f (opBool true))) ∧
    (m.slHeld n = false ∨ m.holder n ≠ f.ctx.toNat * 256 + o → Does (.slrel f) s (m.opFault f fcSluiceNotHeld n f.right.value.toNat))) ∧
  (∀ (s : State) (i : Fin 2048) (w : Waiter) (t : Nat), s.main.waiters[i.val]? = some w → w.deadline = some t →
    (t ≤ s.main.now → Does (.sluiceWaitTimeout i) s ((Main.bump { s.main with waiters := s.main.waiters.erase w } (F.SLUICE_STAT_TIMEOUTS w.sluice)).answerBoth
      w.f (sluiceVal w.sluice (s.main.holder w.sluice) 4 false ((s.main.now - w.joined) / 1000)))) ∧
    (s.main.now < t → Does (.sluiceWaitTimeout i) s s.main)) ∧
  (∀ (n h r t : Nat) (a : Bool), n < 1024 → h < 65536 → r < 16 →
    let v := (sluiceVal n h r a t).value.toNat
    bitsOf v 0 10 = n ∧ bitsOf v 16 16 = h ∧ bitsOf v 32 4 = r ∧ bitsOf v 36 1 = b2n a ∧ bitsOf v 40 24 = Nat.min t 0xFFFFFF) ∧
  (∀ (x : Nat) (p : Nat × Nat × Nat), sluiceWord x = some p → p.1 < 1024 ∧ p.2.1 < 0xF0 ∧ p.2.2 < 2 ^ 24)

/-- R336, R337, R339, R342, R344: mutual exclusion. No claim of another identity takes a sluice that is held: the holder stays until it releases the sluice or FORCE does. A register
claim with the identity of its path takes a free sluice and never waits; one with another identity, or of a disabled sluice, only sets BADCLAIM. A release frees the
sluice of its own identity; FORCE from contexts 0 and 255, with their identity, frees it abandoned, and any other only sets BADCLAIM. A freed sluice goes to
the waiter of the highest wait priority, the oldest among equals. -/
def Obligations.SluiceExclusion : Prop :=
  (∀ (s t : State) (p : Path) (n : Fin 1024) (v : Word) (k : Fin 1024), s.main.slHeld k.val = true → exec (.sluiceClaimWrite p n v) s = .next t →
    t.main.slHeld k.val = true ∧ t.main.holder k.val = s.main.holder k.val) ∧
  (∀ (s : State) (p : Path) (n : Fin 1024) (v : Word), s.main.asleep = false → 2 ≤ s.main.pathLevel p → v.toNat % 2 ^ 16 = p.identity → s.main.live (.sluice n.val) = true →
    (s.main.slHeld n.val = false → Does (.sluiceClaimWrite p n v) s (Main.extAnswer (Main.slTake (s.main.touch p) n.val p.identity) p 0 [])) ∧
    (s.main.slHeld n.val = true → s.main.holder n.val = p.identity → Does (.sluiceClaimWrite p n v) s (Main.extAnswer (Main.bump (s.main.touch p) (F.SLUICE_STAT_GRANTS n.val)) p 0 [])) ∧
    (s.main.slHeld n.val = true → s.main.holder n.val ≠ p.identity → Does (.sluiceClaimWrite p n v) s ((s.main.touch p).extAnswer p 0 []))) ∧
  (∀ (s : State) (p : Path) (n : Fin 1024) (v : Word), s.main.asleep = false → 2 ≤ s.main.pathLevel p → v.toNat % 2 ^ 16 ≠ p.identity ∨ s.main.live (.sluice n.val) = false →
    Does (.sluiceClaimWrite p n v) s (Main.extAnswer (Main.set (s.main.touch p) (F.SLUICE_STAT_BADCLAIM n.val) 1) p 0 [])) ∧
  (∀ (s : State) (p : Path) (n : Fin 1024) (v : Word), s.main.asleep = false → 2 ≤ s.main.pathLevel p → v.toNat / 2 ^ 16 % 2 = 0 →
    (v.toNat % 2 ^ 16 = p.identity → s.main.slHeld n.val = true → s.main.holder n.val = p.identity →
      Does (.sluiceReleaseWrite p n v) s (Main.extAnswer (Main.slFree (s.main.touch p) n.val false) p 0 [])) ∧
    (v.toNat % 2 ^ 16 ≠ p.identity ∨ s.main.slHeld n.val = false ∨ s.main.holder n.val ≠ p.identity →
      Does (.sluiceReleaseWrite p n v) s (Main.extAnswer (Main.set (s.main.touch p) (F.SLUICE_STAT_BADCLAIM n.val) 1) p 0 []))) ∧
  (∀ (s : State) (p : Path) (n : Fin 1024) (v : Word), s.main.asleep = false → 2 ≤ s.main.pathLevel p → v.toNat / 2 ^ 16 % 2 = 1 →
    (v.toNat % 2 ^ 16 = p.identity → p = .ctx0 ∨ p = .ctx255 → s.main.slHeld n.val = true →
      Does (.sluiceReleaseWrite p n v) s (Main.extAnswer (Main.slFree (s.main.touch p) n.val true) p 0 [])) ∧
    (v.toNat % 2 ^ 16 = p.identity → p = .ctx0 ∨ p = .ctx255 → s.main.slHeld n.val = false → Does (.sluiceReleaseWrite p n v) s ((s.main.touch p).extAnswer p 0 [])) ∧
    (v.toNat % 2 ^ 16 ≠ p.identity ∨ (p ≠ .ctx0 ∧ p ≠ .ctx255) → Does (.sluiceReleaseWrite p n v) s (Main.extAnswer (Main.set (s.main.touch p) (F.SLUICE_STAT_BADCLAIM n.val) 1) p 0 []))) ∧
  (∀ (s : State) (p : Path) (n : Fin 1024) (v : Word), s.main.asleep = false → s.main.pathLevel p < 2 →
    Does (.sluiceClaimWrite p n v) s ((s.main.touch p).extAnswer p 2 []) ∧ Does (.sluiceReleaseWrite p n v) s ((s.main.touch p).extAnswer p 2 [])) ∧
  (∀ (m : Main) (n : Nat) (w : Waiter), m.bestWaiter n = some w → w ∈ m.waiters ∧ w.sluice = n ∧
    ∀ x ∈ m.waiters, x.sluice = n → m.waitPrio x ≤ m.waitPrio w) ∧
  (∀ (m : Main) (n : Nat), n < 1024 → (∀ w ∈ m.waiters, w.sluice ≠ n) → (m.slFree n false).slHeld n = false) ∧
  (∀ (m : Main) (n i : Nat), n < 1024 → i < 65536 → (m.slTake n i).slHeld n = true ∧ (m.slTake n i).holder n = i)

/-- R154, R155, R279 to R286, R291: flumes. FLISSUE translates the descriptor's address, reads it and starts the flume that it names; a busy flume parks it with FLUME_BUSY, and
a descriptor of length 0 answers FLUMEDONE 0 at once. FLUME_ELEMENT moves one element, counts its bytes and goes on to the next; a fault parks the flume there. Where source and destination overlap
in one address space and R282 names the order, the destination receives the original source bytes.
FLUME_DESCRIPTOR_READ brings the next descriptor of a chain into force. RESUME goes on with a parked flume, or with CANCEL ends it, as KILL does: it sends FLUMEDONE and is
idle.
Whether the read of a descriptor has waited at port B is free (log 197). -/
def Obligations.Flumes : Prop :=
  (∀ (s : State) (f : Firing) (d i : Nat) (e : TlbEntry) (v : Nat) (k : Main), Executes s.main f .flissue → s.main.outstanding f.die f.tuft < 64 →
    let m := s.main.executed f
    let va := f.left.value.toNat % 2 ^ 48
    f.left.isAddress = true → flumeId f.right.value.toNat = some (d, i) → m.reaches f.die.val d = true →
    f.i.flags.getLsbD 0 = false → m.live (.flume d i) = true → m.xlateOn f.ctx.toNat = true → m.tlbFind (m.xlateOf f) va = some e →
    protDetail f.ctx.toNat .load (e.paOf va) e.r e.w = 0 → e.is_ = false → e.paOf va % 64 = 0 →
    (m.freeWait f.die.val false (e.paOf va)).loadPhys (ctxId f.ctx.toNat f.die.val) (e.paOf va) 64 = (.ok v, k) → descValid f.ctx.toNat (wordAt v) = true →
    let desc := FlumeDesc.ofWords (wordAt v)
    (desc.len = 0 → Does (.flissue f) s (k.both f (opnd tyFlume 0))) ∧
    (desc.len ≠ 0 → k.flume d i = none → f.replay = none →
      let n := ((((((((k.set (F.FLUME_STAT_STATE d i) 1).set (F.FLUME_STAT_CTX d i) f.ctx.toNat).set (F.FLUME_STAT_SIDE d i) (b2n f.side)).set
        (F.FLUME_STAT_CODE d i) 0).set (F.FLUME_CUR_ADDR d i) va).set (F.FLUME_CUR_PHYS d i) 0).set (F.FLUME_PROG_BYTES d i) 0).set
        (F.FLUME_PROG_LOST d i) 0)
      Does (.flissue f) s (n.flBegin { die := d, idx := i, ret := f.ret, part := n.isPartner f, desc := none, handle := 0, prio := f.prio } desc)) ∧
    (desc.len ≠ 0 → (k.flume d i).isSome = true → Does (.flissue f) s (k.parkOp f fcFlumeBusy (flId d i) (flId d i)))) ∧
  (∀ (s : State) (die : Fin 8) (idx : Fin 32) (x : FlumeSt) (e : FlumeDesc) (lost : BitVec 8) (waits : (Bool × Bool) × Bool),
    s.main.flume die.val idx.val = some x → x.desc = some e → x.handle = 0 → s.main.mode ≠ 11 → s.main.asleep = false → s.main.live (.flume die.val idx.val) = true →
    (∀ y ∈ s.main.flumes, y.die = x.die → s.main.eff x.ret.ctx.toNat < s.main.eff y.ret.ctx.toNat → s.main.flReady y = false) →
    let row := s.main.get (F.FLUME_POS_ROW die.val idx.val)
    let off := s.main.get (F.FLUME_POS_OFFSET die.val idx.val)
    let da := rowAddr e.dst row e.dstride e.dphys
    let n := elemLen da off e.len
    (∀ (v : Nat) (ps : List (Nat × Nat)) (m1 m2 m3 : Main), s.main.elemValue x e row off da n waits.1 = .ok v m1 →
      m1.flAddrs x e.dphys true 16 (pieces 9 (da + off) n) = .ok ps m2 → (∀ p ∈ ps, m2.heldAhead p.1 (.element die.val idx.val) = false) → m2.flProbe x v ps = .ok () m3 →
      let y := m2.flSave x e (da + off) ps
      let k := Main.putFlume ((ps.take 1).foldl (fun m p => m.portWait p.1 waits.2) (m2.unhold (.element die.val idx.val))) y
      Does (.flumeElement die idx ⟨lost, waits⟩) s (((k.flWrite y lost v ps).bumpBy (F.FLUME_PROG_BYTES die.val idx.val) n).flAdvance y e row off n)) ∧
    (∀ (c det : Nat) (m1 : Main), s.main.elemValue x e row off da n waits.1 = .fault c det m1 →
      Does (.flumeElement die idx ⟨lost, waits⟩) s (m1.flPark x c det)) ∧
    (∀ (pa : Nat), s.main.elemValue x e row off da n waits.1 = .wait pa → Does (.flumeElement die idx ⟨lost, waits⟩) s (s.main.waitAt pa (.element die.val idx.val)))) ∧
  (∀ (s : State) (die : Fin 8) (idx : Fin 32) (x y : FlumeSt) (e : FlumeDesc) (io : ElemIo), s.main.flume die.val idx.val = some x → x.desc = some e →
    s.main.live (.flume die.val idx.val) = true → y ∈ s.main.flumes → y.die = x.die → s.main.eff x.ret.ctx.toNat < s.main.eff y.ret.ctx.toNat → s.main.flReady y = true →
    Does (.flumeElement die idx io) s s.main) ∧
  (∀ (m : Main) (x : FlumeSt) (e : FlumeDesc) (a now v : Nat), (m.srcByte x e a now).2.mem = m.mem ∧
    (x.saved.find? (fun s => s.1 == a) = none → m.srcByte x e a now = (now, m)) ∧
    (e.sphys = e.dphys → e.keeps = true → x.saved.find? (fun s => s.1 == a) = some (a, v) → m.srcByte x e a now = (v, m))) ∧
  (∀ e : FlumeDesc, e.keeps = true ↔ (e.dst ≤ e.src ∧ e.descend = false) ∨ (e.src ≤ e.dst ∧ e.descend = true)) ∧
  (∀ (s : State) (die : Fin 8) (idx : Fin 32) (x : FlumeSt) (v pa : Nat) (m1 m2 : Main), s.main.flume die.val idx.val = some x → x.desc = none → x.handle = 0 →
    s.main.mode ≠ 11 → s.main.asleep = false → s.main.live (.flume die.val idx.val) = true → m1.heldAhead pa (.element die.val idx.val) = false →
    s.main.flAddr x (s.main.get (F.FLUME_CUR_ADDR die.val idx.val)) (s.main.flag (F.FLUME_CUR_PHYS die.val idx.val)) false 0 = .ok pa m1 →
    (m1.freeWait die.val true pa).loadPhys x.id pa 64 = (.ok v, m2) →
    let m2 := m2.unhold (.element die.val idx.val)
    (descValid x.ret.ctx.toNat (wordAt v) = true → Does (.flumeDescriptorRead die idx) s (m2.flBegin x (FlumeDesc.ofWords (wordAt v)))) ∧
    (descValid x.ret.ctx.toNat (wordAt v) = false → Does (.flumeDescriptorRead die idx) s (m2.flPark x fcFlumeDesc 0))) ∧
  (∀ (s : State) (f : Firing) (p : ParkSlot) (d : Fin 8) (i : Nat) (x : FlumeSt), Executes s.main f .resume → s.main.outstanding f.die f.tuft < 64 →
    let m := s.main.executed f
    m.slotOf f.ctx.toNat f.left.handle = some p → p.work = .flume d i → m.flume d.val i = some x →
    (f.i.flags.getLsbD 0 = true → Does (.resume f) s ((m.flCancel x).both f (rpstat 4 f.left.handle))) ∧
    (f.i.flags.getLsbD 0 = false → (m.unpark p).live (.flume d.val i) = true →
      Does (.resume f) s (((((m.unpark p).putFlume { x with handle := 0 }).set (F.FLUME_STAT_STATE d.val i) 1).set (F.FLUME_STAT_CODE d.val i) 0).both f
        (rpstat 0 f.left.handle)))) ∧
  (∀ (s : State) (f : Firing), Executes s.main f .resume → s.main.outstanding f.die f.tuft < 64 → (s.main.executed f).slotOf f.ctx.toNat f.left.handle = none →
    Does (.resume f) s ((s.main.executed f).both f (rpstat 1 f.left.handle))) ∧
  (∀ (s : State) (die : Fin 8) (idx : Fin 32), (∀ x, s.main.flume die.val idx.val = some x → Does (.flumeKill die idx) s (s.main.flCancel x)) ∧
    (s.main.flume die.val idx.val = none → Does (.flumeKill die idx) s s.main)) ∧
  (∀ (m : Main) (x : FlumeSt), (∀ p ∈ m.req.park.slots, p.work ≠ .flume (fin8 x.die) x.idx) →
    let o := opnd tyFlume (m.get (F.FLUME_PROG_BYTES x.die x.idx) + m.get (F.FLUME_PROG_LOST x.die x.idx) * 2 ^ 40)
    m.flCancel x = (m.sendRet (flRet x) (some o) (some o)).flIdle x.die x.idx) ∧
  (∀ (m : Main) (x : FlumeSt) (e : FlumeDesc), e.len ≠ 0 → e.descend = false →
    m.flBegin x e = ((m.set (F.FLUME_POS_ROW x.die x.idx) 0).set (F.FLUME_POS_OFFSET x.die x.idx) 0).putFlume { x with desc := some e, saved := [] }) ∧
  (∀ (m : Main) (d i : Nat), (m.flIdle d i).flume d i = none) ∧
  (∀ (da off len : Nat), off < len → 0 < elemLen da off len ∧ elemLen da off len ≤ 64 ∧ off + elemLen da off len ≤ len ∧
    ((da + off) / 64 = (da + off + elemLen da off len - 1) / 64) ∧ (off + elemLen da off len < len → (da + off + elemLen da off len) % 64 = 0))

/-- R76, R125, R347 to R355, R357: how a fault is taken. In a context that does work and has a parking area and a handler, the operands of a faulting operation fill a free
slot, a record goes to the fault ring, and one FAULT token (FPTRAP for a trapped FP operation) with the code, the handle and the detail goes to the handler at its
priority. Without a parking area or a free slot the context becomes BROKEN; work of a FREE or BROKEN context is discarded. -/
def Obligations.TakingAFault : Prop :=
  (∀ (m k n : Main) (i : FaultInfo) (w : Work) (h : BitVec 32), m.dead i.ctx = false → m.flag (F.CTXTAB_PARK_EN i.ctx) = true →
    m.fillSlot i w = some (true, h, k) → k.writeRing i h = (true, n) → n.flag (F.CTXTAB_HANDLER_EN i.ctx) = true → breaksCause i.code i.detail = none →
    16 < n.parkFree i.ctx → (m.park i w false).2 = n.send (n.faultToken i h) ∧ (m.park i w false).1 = h) ∧
  (∀ (m : Main) (i : FaultInfo) (w : Work) (q : Bool), m.dead i.ctx = true → (m.park i w q).2 = m.discard i.die.val) ∧
  (∀ (m : Main) (i : FaultInfo) (w : Work) (q : Bool), m.dead i.ctx = false → m.flag (F.CTXTAB_PARK_EN i.ctx) = false → breaksCause i.code i.detail = none →
    (m.park i w q).2 = m.breakCtx i.ctx causeUnhandled (bitsOf i.detail 0 3)) ∧
  (∀ (m : Main) (i : FaultInfo) (w : Work) (q : Bool), m.dead i.ctx = false → m.flag (F.CTXTAB_PARK_EN i.ctx) = true → m.freeSlot i.ctx = none →
    (m.park i w q).2 = m.breakCtx i.ctx causeParkFull 0) ∧
  (∀ (m : Main) (i : FaultInfo) (h : BitVec 32), i.code < 2 ^ 16 → i.detail < 2 ^ 16 →
    let t := m.faultToken i h
    t.value.extractLsb' 0 16 = BitVec.ofNat 16 i.code ∧ t.value.extractLsb' 16 32 = h ∧ t.value.extractLsb' 48 16 = BitVec.ofNat 16 i.detail ∧
    t.ia = BitVec.ofNat 20 (m.get (F.CTXTAB_HANDLER_IA i.ctx)) ∧ t.port = 2 ∧ t.typ = (if i.code = fcFpSubnormal then 8 else 7) ∧
    t.ctx = BitVec.ofNat 8 i.ctx ∧ t.frame = i.frame ∧ t.side = i.side ∧ t.prio = BitVec.ofNat 4 (m.get (F.CTXTAB_HANDLER_HPRIO i.ctx))) ∧
  (∀ (m k : Main) (i : FaultInfo) (w : Work) (h : BitVec 32) (b : Bool), m.fillSlot i w = some (b, h, k) →
    ∃ x idx, m.freeSlot i.ctx = some idx ∧ k.req.park.slots = m.req.park.slots ++ [x] ∧ x.idx = idx ∧ x.code = i.code ∧ x.work = w ∧
      h = mkHandle x.gen i.ctx idx ∧ 64 ≤ idx) ∧
  (∀ (m : Main) (c cause die : Nat), c < 256 → cause < 16 → m.run c = 1 ∨ m.run c = 2 → (m.breakCtx c cause die).run c = 3 ∧
    (m.breakCtx c cause die).get (F.CTXTAB_STATE_CAUSE c) = cause)

/-- R157 to R159, R212, R359, R360: resolving parked work. REPLAY sends a parked token to its router again, and makes a parked operation ready again with the instruction that its
place holds now. REPLAYV and REPLAYV2 complete it with their values, PARKDROP discards it, and a handle that names no slot of the
context is answered BAD_HANDLE. RAISE sends a software fault to the context's own handler, SIGNAL raises a doorbell event. -/
def Obligations.ParkedWork : Prop :=
  (∀ (s : State) (f : Firing) (p : ParkSlot) (ecc : Ecc),
    let m := s.main.executed f
    let h := f.left.handle
    let r : Replay := { handle := h, by_ := f.ret }
    s.main.outstanding f.die f.tuft < 64 → m.slotOf f.ctx.toNat h = some p →
    (Executes s.main f .replay → ∀ t, p.work = .token t → Does (.replay f ecc) s ((m.unpark p).send { t with replay := some { r with code := p.code } })) ∧
    (Executes s.main f .replay → ∀ g k ps opc, p.work = .operation g → (m.unpark p).again g ecc = .ready k ps opc → presOf ps = k.pres →
      Does (.replay f ecc) s ((m.unpark p).addReady { k with replay := some { r with code := p.code } })) ∧
    (Executes s.main f .replay → ∀ g c d, p.work = .operation g → (m.unpark p).again g ecc = .fault c d →
      Does (.replay f ecc) s ((m.unpark p).refault { g with replay := some { r with code := p.code } } c d)) ∧
    (Executes s.main f .replay → ∀ g k ps opc, p.work = .operation g → (m.unpark p).again g ecc = .ready k ps opc → presOf ps ≠ k.pres →
      Does (.replay f ecc) s ((m.unpark p).refault { g with replay := some { r with code := p.code } } fcBadPort (opc * 4))) ∧
    (Executes s.main f .replayv → ∀ t, p.work = .token t →
      Does (.replayv f ecc) s (((m.unpark p).send { t with value := f.right.value, typ := f.right.typ, wsel := 0, stamp := 0 }).both f (rpstat 0 h))) ∧
    (Executes s.main f .replayv → ∀ g k ps opc, p.work = .operation g → (m.unpark p).again g ecc = .ready k ps opc → (m.unpark p).run k.ctx.toNat ≠ 2 →
      Does (.replayv f ecc) s ((m.unpark p).supply { k with replay := some { r with value := some (f.right, f.right) } } (f.right, f.right))) ∧
    (Executes s.main f .replayv2 → ∀ g k ps opc, p.work = .operation g → (m.unpark p).again g ecc = .ready k ps opc → (m.unpark p).run k.ctx.toNat ≠ 2 →
      Does (.replayv2 f ecc) s ((m.unpark p).supply { k with replay := some { r with value := some (f.right, f.third) } } (f.right, f.third))) ∧
    (Executes s.main f .parkdrop → ∀ t, p.work = .token t → Does (.parkdrop f) s (((m.unpark p).dropTrap h).both f (rpstat 3 h))) ∧
    (Executes s.main f .parkdrop → ∀ g, p.work = .operation g →
      Does (.parkdrop f) s ((((m.unpark p).dropTrap h).reply { g.ret with once := true } none none).both f (rpstat 3 h))) ∧
    (Executes s.main f .parkdrop → ∀ d i x, p.work = .flume d i → m.flume d.val i = some x →
      Does (.parkdrop f) s ((m.flCancel x).both f (rpstat 3 h)))) ∧
  (∀ (s : State) (f : Firing) (ecc : Ecc), s.main.outstanding f.die f.tuft < 64 → (s.main.executed f).slotOf f.ctx.toNat f.left.handle = none →
    let t := (s.main.executed f).both f (rpstat 1 f.left.handle)
    (Executes s.main f .replay → Does (.replay f ecc) s t) ∧ (Executes s.main f .replayv → Does (.replayv f ecc) s t) ∧
    (Executes s.main f .replayv2 → Does (.replayv2 f ecc) s t) ∧ (Executes s.main f .parkdrop → Does (.parkdrop f) s t)) ∧
  (∀ (m : Main) (ctx : Nat) (h : BitVec 32) (p : ParkSlot), m.slotOf ctx h = some p →
    p ∈ m.req.park.slots ∧ (ctx = 0 ∨ ctx = p.ctx.toNat) ∧ mkHandle p.gen p.ctx.toNat p.idx = h) ∧
  (∀ (s : State) (f : Firing), Executes s.main f .raise → f.replay = none →
    (0x8000 ≤ f.right.value.toNat % 2 ^ 16 → Does (.raise f) s
      ((s.main.executed f).faultOnly (f.info (f.right.value.toNat % 2 ^ 16) (f.left.value.toNat % 2 ^ 16) 0))) ∧
    (f.right.value.toNat % 2 ^ 16 < 0x8000 → Does (.raise f) s ((s.main.executed f).badOperand f 1))) ∧
  (∀ (s : State) (f : Firing), Executes s.main f .signal → s.main.outstanding f.die f.tuft < 64 → f.right.value.toNat < 32 → (s.main.requested f).isPaired f = false →
    Does (.signal f) s (((s.main.requested f).event (992 + f.right.value.toNat) (f.left.value.toNat % 2 ^ 32)).answerBoth f (opBool true)))

/-- R127, R247, R250: effect-once requests of a block with two copies. The copy that comes first is performed and remembered in the comparator; the other one is never performed: it
gets the first one's answer, and a difference of operands is counted as a MISMATCH when CMPEN is 1. While CMPEN is 1, a full comparator, or one at which a
request of a higher PRIO or an older one of the same PRIO waits (R242), makes a request wait.
PAIR_WINDOW_EXPIRY marks an entry whose window has passed and counts CMPTMO.
R243 to R245: the deadlock detector. At a tick each context that is not FREE is judged: its quiet count rises when it is ACTIVE and throughout the tick it had a waiting token, nothing
fired or ready, and no weir token, sluice wait or flume completion; otherwise it restarts at 0. At DLTMO a deadlock is declared: DECLARED is
set, COUNT rises, WAITSNAP holds the waiting tokens, QUIET restarts, and DLACT suspends the context, breaks it with cause DEADLOCK, or with 0 only reports,
with DLHND to its handler too. -/
def Obligations.EffectOnceAndDeadlock : Prop :=
  ((∀ (m : Main) (f : Firing) (body : Main → Main), m.isPaired f = false → m.once f body = body (m.uncmp f)) ∧
  (∀ (m : Main) (f : Firing) (body : Main → Main), m.isPaired f = true → (∀ e ∈ m.req.cmp, e.isFor f = true → e.first ≠ f.side → e.second ≠ none) → f.replay = none →
    let e : CmpEntry := { ctx := f.ctx, frame := f.frame, ia := f.ia, opc := f.i.opc.toNat, left := f.left, right := f.right, third := f.third, first := f.side,
                          answer := none, second := none, deadline := m.now + m.cmpWindow f.ctx.toNat, expired := false }
    let n := m.uncmp f
    (m.flag (F.CTXTAB_PAIR_CMPEN f.ctx.toNat) = false ∨ (m.req.cmp.length < 1024 ∧ m.cmpBefore f = false) →
      m.once f body = body { n with req := { n.req with cmp := n.req.cmp ++ [e] } }) ∧
    (m.flag (F.CTXTAB_PAIR_CMPEN f.ctx.toNat) = true → 1024 ≤ m.req.cmp.length ∨ m.cmpBefore f = true → f ∉ m.req.cmpWait →
      m.once f body = Main.bump { m with req := { m.req with cmpWait := m.req.cmpWait ++ [f] } } (F.CTXTAB_PAIR_STALLS f.ctx.toNat)) ∧
    (m.flag (F.CTXTAB_PAIR_CMPEN f.ctx.toNat) = true → 1024 ≤ m.req.cmp.length ∨ m.cmpBefore f = true → f ∈ m.req.cmpWait → m.once f body = m)) ∧
  (∀ (m : Main) (f : Firing) (body : Main → Main) (e : CmpEntry), m.isPaired f = true →
    m.req.cmp.find? (fun e => e.isFor f && e.first != f.side && e.second.isNone) = some e → f.replay = none →
    let bad := m.flag (F.CTXTAB_PAIR_CMPEN f.ctx.toNat) && !(e.left == f.left && e.right == f.right && e.third == f.third)
    let k := m.uncmp f
    let n := if bad then (k.bump (F.CTXTAB_PAIR_MISMATCH f.ctx.toNat)).raiseSrc 27 0 0 f.ctx.toNat else k
    (∀ a : Answer, e.answer = some a → m.once f body = (n.putCmp e []).sendRet f.ret a.first a.second) ∧
    (e.answer = none → m.once f body = n.putCmp e [{ e with second := some f.ret }])) ∧
  (∀ (m : Main) (f : Firing), m.cmpBefore f = true ↔ (∃ g ∈ m.req.cmpWait, f.prio < g.prio) ∨ ∃ g ∈ m.req.cmpWait.takeWhile (· != f), g.prio = f.prio) ∧
  (∀ (s : State) (e : CmpEntry), s.main.req.cmp = [e] → e.second = none → e.expired = false →
    let d := plDie (s.main.place 0 e.ctx.toNat (e.ia.extractLsb' 12 8).toNat) (!e.first)
    (s.main.flag (F.CTXTAB_PAIR_CMPEN e.ctx.toNat) = true → e.deadline ≤ s.main.now → Does (.pairWindowExpiry e.ctx e.frame e.ia) s
      ((Main.bump { s.main with req := { s.main.req with cmp := [{ e with expired := true }] } } (F.CTXTAB_PAIR_CMPTMO e.ctx.toNat)).raiseSrc 28 0 d e.ctx.toNat)) ∧
    (s.main.flag (F.CTXTAB_PAIR_CMPEN e.ctx.toNat) = false ∨ s.main.now < e.deadline → Does (.pairWindowExpiry e.ctx e.frame e.ia) s s.main))) ∧
  ((∀ (s : State), (∀ c, c < 256 → s.main.run c = 0) → Does .deadlockTick s s.main) ∧
  (∀ (s : State) (c : BitVec 8), (∀ d, d < 256 → (s.main.run d = 0 ↔ d ≠ c.toNat)) →
    (∀ d, d < 256 → d ≠ c.toNat → (s.main.tickCtx c).run d = 0) → Does .deadlockTick s (s.main.tickCtx c)) ∧
  (∀ (m : Main) (c : BitVec 8),
    let t := (m.observe c).tickOf c
    let busy := t.fired || m.readyNow c
    let quiet := if m.run c.toNat = 1 ∧ t.noWait = false ∧ busy = false ∧ t.weir = false ∧ t.sluice = false ∧ t.flume = false
      then satAdd 20 (m.get (F.CTXTAB_DLSTAT_QUIET c.toNat)) 1 else 0
    let k := m.tickCtx c
    (m.dltmo c.toNat = 0 ∨ quiet < m.dltmo c.toNat → k.get (F.CTXTAB_DLSTAT_QUIET c.toNat) = quiet ∧
      k.get (F.CTXTAB_DLSTAT_DECLARED c.toNat) = m.get (F.CTXTAB_DLSTAT_DECLARED c.toNat) ∧ k.get (F.CTXTAB_DLSTAT_COUNT c.toNat) = m.get (F.CTXTAB_DLSTAT_COUNT c.toNat)) ∧
    (m.dltmo c.toNat ≠ 0 → m.dltmo c.toNat ≤ quiet → k.get (F.CTXTAB_DLSTAT_QUIET c.toNat) = 0 ∧ k.get (F.CTXTAB_DLSTAT_DECLARED c.toNat) = 1 ∧
      k.get (F.CTXTAB_DLSTAT_COUNT c.toNat) = satAdd 8 (m.get (F.CTXTAB_DLSTAT_COUNT c.toNat)) 1)) ∧
  (∀ (m : Main) (c : Nat), c < 256 → (m.declare c).get (F.CTXTAB_DLSTAT_QUIET c) = 0 ∧ (m.declare c).get (F.CTXTAB_DLSTAT_DECLARED c) = 1 ∧
    (m.declare c).get (F.CTXTAB_DLSTAT_COUNT c) = satAdd 8 (m.get (F.CTXTAB_DLSTAT_COUNT c)) 1 ∧
    (m.declare c).get (F.CTXTAB_DLSTAT_WAITSNAP c) = Nat.min (2 ^ 24 - 1) (m.waitCount c)) ∧
  (∀ (m : Main) (c : Nat), m.get (F.CTXTAB_SCHED_DLACT c) = 0 →
    let n := Nat.min (2 ^ 24 - 1) (m.waitCount c)
    let k := ((((m.set (F.CTXTAB_DLSTAT_DECLARED c) 1).bump (F.CTXTAB_DLSTAT_COUNT c)).set (F.CTXTAB_DLSTAT_WAITSNAP c) n).set
      (F.CTXTAB_DLSTAT_QUIET c) 0).raiseSrc 26 0 0 c
    (m.flag (F.CTXTAB_SCHED_DLHND c) = false ∨ m.flag (F.CTXTAB_HANDLER_EN c) = false → m.declare c = k) ∧
    (m.flag (F.CTXTAB_SCHED_DLHND c) = true → m.flag (F.CTXTAB_HANDLER_EN c) = true → m.declare c = k.faultOnly
      { ctx := c, code := fcDeadlock, detail := n % 2 ^ 16, object := 0, frame := 0, side := false, ia := 0, die := 0, tuft := 0 })) ∧
  (∀ (m : Main) (c : Nat), c < 256 → m.run c = 1 → m.get (F.CTXTAB_SCHED_DLACT c) = 2 → (m.declare c).run c = 3 ∧
    (m.declare c).get (F.CTXTAB_STATE_CAUSE c) = causeDeadlock ∧ (m.declare c).get (F.CTXTAB_DLSTAT_QUIET c) = 0) ∧
  (∀ (m : Main) (c : Nat), c < 256 → m.run c = 1 → m.get (F.CTXTAB_SCHED_DLACT c) = 1 → (m.declare c).run c = 2) ∧
  (∀ (m : Main) (c : Nat), let t := m.get (F.CTXTAB_SCHED_DLTMO c)
    m.dltmo c = if t = 0 then 0 else if t < 10 then 10 else if 1000000 < t then 1000000 else t))

/-- R312, R365 to R367: the unit state table. A write changes each bit that differs: a disable, and an enable whose configuration is valid, are accepted, set BUSY and are sent to the
unit; any other enable is refused and recorded. UST_APPLY_DONE applies the accepted changes in order and clears BUSY. A scrub pass counts itself, and forces a
unit whose own enable differs from the table to the table's state. -/
def Obligations.UnitStateTable : Prop :=
  (∀ (s : State) (r : UstReg) (v : Word), (∀ b, b < 64 → ∀ u, r.unit_ b = some u → s.main.ustOn u = (bitsOf v.toNat b 1 == 1)) →
    Does (.ustWrite r v) s s.main) ∧
  (∀ (s : State) (r : UstReg) (v : Word) (b : Nat) (u : UnitId), b < 64 → r.unit_ b = some u →
    (∀ c, c < 64 → c ≠ b → ∀ w, r.unit_ c = some w → s.main.ustOn w = (bitsOf v.toNat c 1 == 1)) →
    Does (.ustWrite r v) s (s.main.ustBit u (bitsOf v.toNat b 1 == 1))) ∧
  (∀ (m : Main) (u : UnitId), m.pop u.die = true →
    let go := fun (on : Bool) => ({ (m.ustPut u on).set F.UST_STAT_BUSY 1 with ust := { m.ust with changes := m.ust.changes ++ [(u, on)] } } : Main)
    (m.ustOn u = false → m.enableOk u = true → m.ustBit u true = go true) ∧ (m.ustOn u = true → m.ustBit u false = go false) ∧
    (m.ustOn u = false → m.enableOk u = false → m.ustBit u true = m.enableRefused u)) ∧
  (∀ (s : State), Does .ustApplyDone s
    (s.main.ust.changes.foldl Main.unitApply (Main.set { s.main with ust := { s.main.ust with changes := [] } } F.UST_STAT_BUSY 0))) ∧
  (∀ (m : Main) (u : UnitId), (m.live u = false → m.unitApply (u, true) = { m with ust := { m.ust with live := m.ust.live ++ [u] } }) ∧
    (m.live u = true → m.unitApply (u, true) = m) ∧ (m.live u = false → m.unitApply (u, false) = m) ∧
    (m.live u = true → m.unitApply (u, false) = m.unitOff u)) ∧
  (∀ (s : State), (∀ u ∈ s.main.ustUnits, s.main.live u = true) → (∀ u ∈ s.main.ust.live, u ∈ s.main.ustUnits) →
    Does .ustScrub s (s.main.bump F.UST_STAT_PASSES)) ∧
  (∀ (s : State) (u : UnitId), s.main.ustUnits = [] → s.main.ust.live = [u] → s.main.ust.changes = [] →
    Does .ustScrub s ((s.main.ustForce u).bump F.UST_STAT_PASSES)) ∧
  (∀ (m : Main) (d i : Nat), m.rnEnableOk d i = true → m.rnCap d i ≠ 0 ∧ m.rnBase d i + m.rnCap d i ≤ rnStore d ∧
    ¬ ((m.rnProd d i).1 = 1 ∧ (m.rnCons d i).1 = 1) ∧
    (∀ j ∈ m.ustRuns d, j ≠ i → m.rnBase d i + m.rnCap d i ≤ m.rnBase d j ∨ m.rnBase d j + m.rnCap d j ≤ m.rnBase d i))

/-- R22, R324 to R332: culverts. A flit whose CRC and SEQ are good is passed on, and its acknowledgement frees the sender's buffer; one with a bad CRC is
counted and asks for a replay. A flit that carries tokens on a virtual channel other than 0 is not sent. A link goes down when its clock is lost or its replays are spent: both ends show RESYNC and count it. RESYNC_COMPLETE starts a
training, whose end brings the link UP, or DEGRADED at half width. Without an alternative path each end gives up its buffer and counts the tokens lost, and its partner expects what it sends next. The bit order of the CRC is the model's choice (log 103). -/
def Obligations.Culverts : Prop :=
  (∀ (s : State) (d p : Fin 8) (f : Flit) (a pa : Nat) (ack : Bool), s.main.hw.part.partnerPort d.val p.val = some (a, pa) → (a, pa) ≠ (d.val, p.val) →
    s.main.linkState d.val p.val a pa = 2 ∨ s.main.linkState d.val p.val a pa = 3 →
    let e := s.main.culvEnd a pa
    let r := s.main.culvEnd d.val p.val
    e.replaying = false → e.buf.length < 64 → f.payload.length = 64 → f.vcOk = true → e.seq < 256 → e.seq = r.rx →
    let n := (s.main.putEnd { e with seq := (e.seq + 1) % 256, buf := e.buf ++ [(e.seq, f)] }).atEnd a (fun m => m.bump (F.CULV_TXFLITS_COUNT a pa))
    Does (.culvertFlitReceive d p (some f) 0 [] ack) s (n.flitGood d.val p.val a pa e.seq ((e.rx + 63) % 64) ack)) ∧
  (∀ (s : State) (d p : Fin 8) (f : Flit) (a pa : Nat) (ack : Bool) (w : BitVec 32) (bs : List (BitVec 8)),
    s.main.hw.part.partnerPort d.val p.val = some (a, pa) → s.main.linkState d.val p.val a pa = 2 ∨ s.main.linkState d.val p.val a pa = 3 →
    let e := s.main.culvEnd a pa
    e.replaying = false → e.buf.length < 64 → f.payload.length = 64 → f.vcOk = true →
    let n := (s.main.putEnd { e with seq := (e.seq + 1) % 256, buf := e.buf ++ [(e.seq, f)] }).atEnd a (fun m => m.bump (F.CULV_TXFLITS_COUNT a pa))
    let word := f.word e.seq ((n.culvEnd a pa).rx + 63) ^^^ w
    flitCrc (List.zipWith (fun x y => x ^^^ y) f.payload (bs ++ List.replicate 64 0)) (word.setWidth 16) ≠ word.extractLsb' 16 16 →
    Does (.culvertFlitReceive d p (some f) w bs ack) s (((n.putEnd { n.culvEnd a pa with asked := true }).atEnd d.val
      (fun m => m.bump (F.CULV_ERR_CRCERR d.val p.val))).linkEvent 21 d.val p.val a false)) ∧
  (∀ (s : State) (d p : Fin 8) (f : Flit) (w : BitVec 32) (bs : List (BitVec 8)) (ack : Bool), f.toks ≠ [] → f.vc ≠ 0 →
    Does (.culvertFlitReceive d p (some f) w bs ack) s s.main) ∧
  (∀ (s : State) (d p : Fin 8) (a pa : Nat), s.main.hw.part.partnerPort d.val p.val = some (a, pa) →
    (s.main.linkState d.val p.val a pa = 2 ∨ s.main.linkState d.val p.val a pa = 3 → Does (.linkDown d p true) s (s.main.linkDeclare d.val p.val a pa)) ∧
    (s.main.linkState d.val p.val a pa ≠ 2 → s.main.linkState d.val p.val a pa ≠ 3 → ∀ b, Does (.linkDown d p b) s s.main) ∧
    (s.main.linkState d.val p.val a pa = 5 → s.main.altUp d.val a = true → Does (.resyncComplete d p) s
      (((s.main.linkResend d.val p.val a pa).linkResend a pa d.val p.val).linkSet d.val p.val a pa 1)) ∧
    (s.main.linkState d.val p.val a pa = 1 →
      let n := fun (r : Training) => (s.main.trainEnd d.val p.val r).trainEnd a pa r
      Does (.linkTrainingDone d p .full) s ((n .full).linkSet d.val p.val a pa 2) ∧
      Does (.linkTrainingDone d p .half) s ((((n .half).linkSet d.val p.val a pa 3).linkEvent 22 d.val p.val a false).linkEvent 22 a pa d.val false) ∧
      (((n .fail).culvEnd d.val p.val).declared = false → Does (.linkTrainingDone d p .fail) s ((n .fail).linkDeclare d.val p.val a pa)) ∧
      (((n .fail).culvEnd d.val p.val).declared = true → 3 ≤ ((n .fail).culvEnd d.val p.val).trains →
        Does (.linkTrainingDone d p .fail) s ((((n .fail).linkSet d.val p.val a pa 4).linkEvent 23 d.val p.val a true).linkEvent 23 a pa d.val true))) ∧
    (s.main.altUp d.val a = false →
      let st := s.main.linkState d.val p.val a pa
      let e := s.main.culvEnd d.val p.val
      let toks := (e.buf.map (fun x => x.2.toks)).flatten
      let lost := if a = 0 then d.val else a
      let k := s.main.putEnd { e with buf := [], fails := 0, asked := false, replaying := false }
      let n := (k.putEnd { k.culvEnd a pa with rx := e.seq, unacked := 0 }).atEnd d.val (fun m => m.bumpBy (F.CULV_LOST_LOSTTOK d.val p.val) toks.length)
      let g := Main.linkSet { n with tok := { n.tok with inflight := toks.foldl (fun l t => l.erase t) n.tok.inflight } } d.val p.val a pa 4
      (st = 5 → Does (.partnerUnreachable d p) s (g.raiseSrc 24 0 lost lost)) ∧ (st = 4 → e.buf ≠ [] → Does (.partnerUnreachable d p) s g) ∧
      (st ≠ 5 → st ≠ 4 ∨ e.buf = [] → Does (.partnerUnreachable d p) s s.main))) ∧
  (∀ (s : State) (d p : Fin 8) (a pa : Nat) (v : Word), s.main.hw.part.partnerPort d.val p.val = some (a, pa) → d.val ≤ 5 → s.main.dieLive d.val = true →
    let n := s.main.set (F.CULV_CTL_REPLIM d.val p.val) (bitsOf v.toNat 8 8)
    (bitsOf v.toNat 0 1 = 1 → n.linkState d.val p.val a pa ∈ [2, 3, 4] → Does (.culvRetrain d p v) s (n.linkTrain d.val p.val a pa)) ∧
    (bitsOf v.toNat 0 1 = 0 → Does (.culvRetrain d p v) s n)) ∧
  (∀ (m : Main) (d p a pa st : Nat), m.hw.part.partnerPort d p = some (a, pa) → p < 8 → st < 8 → d ≤ 5 → (m.linkSet d p a pa st).get (F.CULV_STAT_STATE d p) = st) ∧
  (∀ (q : Part) (d p a pa : Nat), d < 8 → p < 8 → q.partnerPort d p = some (a, pa) → q.partnerPort a pa = some (d, p) ∧ a ≠ d) ∧
  flitCrc [0x31, 0x32, 0x33, 0x34, 0x35, 0x36, 0x37] 0x3938 = 0x29B1

/-- R259 to R261, R264, R265, R269, R290, R292, R82: banks and memory controllers. A write of OWN starts a handover: the new owner stands and DONE is 0 until the drain ends; KIND 5 to 7
leaves it as it was. A request of another power state is pending until its change is done; a bank in RET or OFF shows WAKING meanwhile, and entry into OFF loses the
contents. An access that waits at a bank in RET with AUTOWAKE wakes it; an OFF that is pending then takes effect after that. A bank admits the accesses of its owner, the loads of every context with
SHRD, and no other. INJ arms an error, and the patrol scrub reads the next word. -/
def Obligations.BanksAndControllers : Prop :=
  (∀ (s : State) (d : Fin 8) (b : Fin 64) (v : Word), s.main.compute d.val = true → s.main.dieLive d.val = true →
    (5 ≤ bitsOf v.toNat 0 3 → Does (.bankOwnWrite d b v) s s.main) ∧
    (bitsOf v.toNat 0 3 < 5 → s.main.drOn d.val b.val = none → Does (.bankOwnWrite d b v) s
      ((((s.main.set (F.BANK_OWN_KIND d.val b.val) (bitsOf v.toNat 0 3)).set (F.BANK_OWN_ID d.val b.val) (bitsOf v.toNat 8 8)).set
        (F.BANK_OWN_SHRD d.val b.val) (bitsOf v.toNat 16 1)).set (F.BANK_OWN_DONE d.val b.val) 0)) ∧
    Does (.bankHandoverDone d b) s (s.main.set (F.BANK_OWN_DONE d.val b.val) 1)) ∧
  (∀ (s : State) (d : Fin 8) (b : Fin 64) (v : Word), s.main.compute d.val = true → s.main.dieLive d.val = true → s.main.drOn d.val b.val = none →
    bitsOf v.toNat 5 1 = 0 → bitsOf v.toNat 0 2 < 3 →
    let req := bitsOf v.toNat 0 2
    let n := (s.main.set (F.BANK_PWR_AUTOWAKE d.val b.val) (bitsOf v.toNat 4 1)).set (F.BANK_PWR_REQ d.val b.val) req
    let k : Main := { n with mem := { n.mem with change := nmIns n.mem.change (64 * d.val + b.val) req } }
    (n.get (F.BANK_PWR_STATE d.val b.val) = 0 → req ≠ 0 → Does (.bankPwrWrite d b v) s k) ∧
    (n.get (F.BANK_PWR_STATE d.val b.val) = 1 ∨ n.get (F.BANK_PWR_STATE d.val b.val) = 2 → req = 0 →
      Does (.bankPwrWrite d b v) s (k.set (F.BANK_PWR_STATE d.val b.val) 3))) ∧
  (∀ (s : State) (d : Fin 8) (b : Fin 64) (req : Nat), s.main.compute d.val = true → s.main.dieLive d.val = true →
    s.main.mem.change.find? (fun p => p.1 == 64 * d.val + b.val) = some (64 * d.val + b.val, req) →
    let n : Main := { s.main with mem := { s.main.mem with change := nmDel s.main.mem.change (64 * d.val + b.val) } }
    (s.main.get (F.BANK_PWR_STATE d.val b.val) = 3 → req = 0 → Does (.bankPowerChangeDone d b) s (n.set (F.BANK_PWR_STATE d.val b.val) 0)) ∧
    (s.main.get (F.BANK_PWR_STATE d.val b.val) = 0 → s.main.drOn d.val b.val = none → req = 2 →
      Does (.bankPowerChangeDone d b) s ((n.set (F.BANK_PWR_STATE d.val b.val) 2).bankLose (64 * d.val + b.val))) ∧
    (s.main.get (F.BANK_PWR_STATE d.val b.val) = 0 → s.main.drOn d.val b.val = none → req = 1 → s.main.flag (F.BANK_DIE_RETBLK d.val) = false →
      Does (.bankPowerChangeDone d b) s (n.set (F.BANK_PWR_STATE d.val b.val) 1)) ∧
    (s.main.get (F.BANK_PWR_STATE d.val b.val) = 0 → req = 1 → s.main.flag (F.BANK_DIE_RETBLK d.val) = true → Does (.bankPowerChangeDone d b) s s.main)) ∧
  (∀ (s : State) (d t : Fin 8) (v : Word), s.main.compute d.val = true → s.main.dieLive d.val = true → bitsOf v.toNat 0 1 = 1 → bitsOf v.toNat 1 1 = 0 →
    Does (.msctlInject d t v) s { s.main with tuft := { s.main.tuft with inj := nmIns s.main.tuft.inj (8 * d.val + t.val) 1 } }) ∧
  (∀ (s : State) (d : Fin 8) (v : Word), 6 ≤ d.val → s.main.pop d.val = true → s.main.dieLive d.val = true → bitsOf v.toNat 1 1 = 1 →
    Does (.memctlInject d v) s { s.main with mem := { s.main.mem with inj := nmIns s.main.mem.inj d.val 2 } }) ∧
  (∀ (s : State) (d : Fin 8), 6 ≤ d.val → s.main.pop d.val = true → s.main.dieLive d.val = true → s.main.flag (F.MEMCTL_SCRUB_EN d.val) = true →
    s.main.flag (F.MEMCTL_STAT_READY d.val) = true →
    let k := nmGet s.main.mem.scrub d.val 0
    let wa := (d.val - 6) * 0x100000000 + 8 * k
    let seen := if s.main.wordUe wa then s.main.countUe wa 1 else if s.main.mem.ce.contains wa then s.main.countCe wa true else s.main
    k + 1 < 2 ^ 29 → Does (.patrolScrubRead d) s { seen with mem := { seen.mem with scrub := nmPut seen.mem.scrub d.val (k + 1) 0 } }) ∧
  (∀ (m : Main) (d b : Nat) (id : AccId) (write : Bool), m.admits d b id write = true → m.drHas d b = false ∧
    ((m.get (F.BANK_OWN_KIND d b) = 1 ∧ id.external = false ∧ m.get (F.BANK_OWN_ID d b) = id.ctx) ∨
     (m.get (F.BANK_OWN_KIND d b) = 2 ∧ ∃ n, id.flume = some n ∧ m.get (F.BANK_OWN_ID d b) = n / 64 * 32 + n % 32) ∨
     (m.get (F.BANK_OWN_KIND d b) = 4 ∧ id.external = false ∧ id.die ≠ d ∧ m.get (F.BANK_OWN_ID d b) % 8 = id.die) ∨
     (m.flag (F.BANK_OWN_SHRD d b) = true ∧ write = false ∧ id.load = true))) ∧
  (∀ (m : Main) (pa d b o a : Nat), regionOf pa = .scratch d b o a →
    (m.get (F.BANK_PWR_STATE d b) = 1 → m.flag (F.BANK_PWR_AUTOWAKE d b) = true →
      (nmGet m.mem.change (64 * d + b) 0 ≠ 2 →
        m.wakeFor pa = Main.set { m with mem := { m.mem with change := nmIns m.mem.change (64 * d + b) 0 } } (F.BANK_PWR_STATE d b) 3) ∧
      (nmGet m.mem.change (64 * d + b) 0 = 2 → m.wakeFor pa = m.set (F.BANK_PWR_STATE d b) 3)) ∧
    (m.get (F.BANK_PWR_STATE d b) ≠ 1 ∨ m.flag (F.BANK_PWR_AUTOWAKE d b) = false → m.wakeFor pa = m))

/-- R293, R294, R297, R299 to R303, R306, R309: the dredges. START begins a run unless one is running; a COUNT of 0 is DONE at once, and a run that R293 to R301 forbid ends with its error. A preserving
run takes each strip through copy-aside, the elements of its algorithm and the restore, and then the next strip after GAP; failures, which its reads alone find, are recorded and set FAILED. STOP
ends it after the strip, or a destructive run at once; a change of its bank's power cuts the test of the strip short, and a run that is to end takes no further strip. An access to an URGENT bank makes it yield. A repair switches the bank to a spare.
How far a run that is broken off has come is free (log 208), and a stop during a repair waits for it (log 97). -/
def Obligations.Dredges : Prop :=
  (∀ (s : State) (d : Fin 6), d.val = 0 ∨ (s.main.compute d.val = true ∧ s.main.dieLive d.val = true) →
    let st := s.main.get (F.DREDGE_STAT_STATE d.val)
    let n := ((((s.main.set (F.DREDGE_STAT_EMPTY d.val) 0).set (F.DREDGE_STAT_FAILED d.val) 0).set (F.DREDGE_STAT_REPAIRED d.val) 0).set
      (F.DREDGE_STAT_ERR d.val) 0).set (F.DREDGE_STAT_DONE d.val) 0
    (st = 1 ∨ st = 2 → Does (.dredgeStart d) s s.main) ∧
    (st ≠ 1 → st ≠ 2 → n.get (F.DREDGE_RANGE_COUNT d.val) = 0 → Does (.dredgeStart d) s ((n.set (F.DREDGE_STAT_EMPTY d.val) 1).drEnd d.val 0)) ∧
    (st ≠ 1 → st ≠ 2 → n.get (F.DREDGE_RANGE_COUNT d.val) ≠ 0 → n.drCheck d.val ≠ 0 → Does (.dredgeStart d) s (n.drEnd d.val (n.drCheck d.val))) ∧
    (st ≠ 1 → st ≠ 2 → n.get (F.DREDGE_RANGE_COUNT d.val) ≠ 0 → n.drCheck d.val = 0 →
      let destr := n.flag (F.DREDGE_CTL_DESTR d.val)
      let x : DredgeSt := { die := d.val, alg := n.get (F.DREDGE_CTL_ALG d.val), destr := destr, dram := d.val != 0 && n.flag (F.DREDGE_CTL_DRAM d.val),
                            boot := false, bank := n.get (F.DREDGE_RANGE_BANK d.val), first := n.get (F.DREDGE_RANGE_FIRST d.val),
                            count := n.get (F.DREDGE_RANGE_COUNT d.val), phase := if destr then .elem 0 else .copy, cur := 0, tries := 0, next := 1,
                            again := [], ending := none, repair := [] }
      Does (.dredgeStart d) s (((n.putDr x).set (F.DREDGE_STAT_STATE d.val) 1).set (F.DREDGE_CTL_START d.val) 1))) ∧
  (∀ (s : State) (d : Fin 6) (x : DredgeSt) (fs : List DrFail), s.main.dredges.find? (fun y => y.die == d.val) = some x →
    s.main.get (F.DREDGE_STAT_STATE d.val) = 1 → x.destr = false →
    (x.phase = .copy → Does (.dredgeElement d fs) s (s.main.drKeep x 0)) ∧
    (∀ k, x.phase = .elem k →
      let r := s.main.drFailures x k fs
      Does (.dredgeElement d fs) s (r.2.drKeep r.1 (k + 1))) ∧
    (x.phase = .restore → Does (.dredgeElement d fs) s
      ((s.main.set (F.DREDGE_STAT_DONE d.val) (s.main.get (F.DREDGE_STAT_DONE d.val) + b2n (!x.cut))).drMoveOn { x with tries := 0, cut := false } none))) ∧
  (∀ (m : Main) (x : DredgeSt) (k : Nat), let cut := decide (x.ending = some 4 ∧ k < drElems x.alg)
    m.drKeep x k = m.putDr { x with phase := if cut = true ∨ drElems x.alg ≤ k then .restore else .elem k, cut := cut }) ∧
  (∀ (s : State) (d : Fin 6) (x : DredgeSt) (fs : List DrFail) (k : Nat), s.main.dredges.find? (fun y => y.die == d.val) = some x →
    s.main.get (F.DREDGE_STAT_STATE d.val) = 1 → x.destr = true → x.phase = .elem k →
    (x.ending.isSome = true → Does (.dredgeElement d fs) s s.main) ∧
    (x.ending = none →
      let r := s.main.drFailures x k fs
      Does (.dredgeElement d fs) s (r.2.drDestr r.1 k))) ∧
  (∀ (m : Main) (x : DredgeSt) (k : Nat), x.repair = [] → x.alg ≠ 2 → k + 1 < drElems x.alg →
    m.drDestr x k = m.putDr { x with repair := [], phase := .elem (k + 1) }) ∧
  (∀ (m : Main) (x : DredgeSt) (k : Nat) (fs : List DrFail), (∀ f ∈ fs, drReads x.alg k f.op.toNat = false) → m.drFailures x k fs = (x, m)) ∧
  (∀ (m : Main) (x : DredgeSt), x.ending = none → x.repair = [] → x.again = [] →
    (x.next < x.count → m.get (F.DREDGE_CTL_GAP x.die) = 0 →
      m.drMoveOn x none = m.putDr { x with cur := x.next, tries := 0, next := x.next + 1, phase := .copy }) ∧
    (x.next < x.count → m.get (F.DREDGE_CTL_GAP x.die) ≠ 0 →
      m.drMoveOn x none = m.putDr { x with cur := x.next, tries := 0, next := x.next + 1, phase := .gap (m.now + m.get (F.DREDGE_CTL_GAP x.die) * 1000) }) ∧
    (x.count ≤ x.next → m.drMoveOn x none = m.drEnd x.die 0)) ∧
  (∀ (s : State) (d : Fin 6) (x : DredgeSt) (t : Nat), s.main.dredges.find? (fun y => y.die == d.val) = some x →
    (∀ e, x.ending = some e → x.phase = .gap t → Does (.dredgeGapExpiry d) s (s.main.drEnd d.val e)) ∧
    (∀ e k, k ≠ 0 → x.ending = some e → x.phase = .pause k t → Does (.dredgePauseExpiry d) s ((s.main.drLeave x (k - 1) (2 ^ 30)).drEnd d.val e)) ∧
    (x.ending = none → x.phase = .gap t → t ≤ s.main.now → Does (.dredgeGapExpiry d) s (s.main.putDr { x with phase := .copy })) ∧
    (x.ending = none → x.phase = .gap t → s.main.now < t → Does (.dredgeGapExpiry d) s s.main) ∧
    (∀ k, x.ending = none → x.phase = .pause k t → t ≤ s.main.now → Does (.dredgePauseExpiry d) s (s.main.putDr { x with phase := .elem k })) ∧
    (∀ k, x.ending = none → x.phase = .pause k t → s.main.now < t → Does (.dredgePauseExpiry d) s s.main)) ∧
  (∀ (s : State) (d : Fin 6) (x : DredgeSt) (fs : List DrFail), s.main.dredges.find? (fun y => y.die == d.val) = some x → x.destr = false → x.dram = false → d.val ≠ 0 →
    x.bank < 64 → (x.phase = .copy ∨ ∃ k, x.phase = .elem k) → s.main.get (F.DREDGE_STAT_STATE d.val) = 1 → s.main.flag (F.BANK_CFG_URGENT d.val x.bank) = true →
    let r := (s.main.bump (F.DREDGE_STAT_YIELDS d.val)).drPartial x fs
    (r.1.tries + 1 < 8 → Does (.dredgeYield ⟨d, fs⟩) s (r.2.drMoveOn r.1 (some (r.1.cur, r.1.tries + 1)))) ∧
    (r.1.tries + 1 = 8 → Does (.dredgeYield ⟨d, fs⟩) s ((r.2.bump (F.DREDGE_STAT_SKIPPED d.val)).drMoveOn { r.1 with tries := 0 } none))) ∧
  (∀ (m : Main) (x : DredgeSt) (fs : List DrFail), (x.phase = .copy → m.drPartial x fs = (x, m)) ∧
    (∀ k, x.phase = .elem k → m.drPartial x fs = m.drFailures x k fs)) ∧
  (∀ (s : State) (d : Fin 6) (x : DredgeSt) (b sp : Nat), s.main.dredges.find? (fun y => y.die == d.val) = some x →
    s.main.get (F.DREDGE_STAT_STATE d.val) = 2 → x.repair = [b] → s.main.freeSpare d.val = some sp → x.destr = false →
    Does (.dredgeRepair d) s (((s.main.repairBank d.val b sp).set (F.DREDGE_STAT_STATE d.val) 1).drMoveOn { x with repair := [], tries := 0, later := none } x.later)) ∧
  (∀ (s : State) (d : Fin 6) (x : DredgeSt) (p : DrPart), s.main.dredges.find? (fun y => y.die == d.val) = some x → x.ending = none →
    (s.main.get (F.DREDGE_STAT_STATE d.val) ≠ 2 →
      (x.destr = false → x.phase = .copy ∨ x.phase = .restore ∨ (∃ k, x.phase = .elem k) → Does (.dredgeStop d p true) s (s.main.putDr { x with ending := some 7 })) ∧
      (∀ t, x.phase = .gap t → Does (.dredgeStop d p true) s (s.main.drEnd d.val 7)) ∧
      (∀ k, x.destr = true → x.phase = .elem k → Does (.dredgeStop d p true) s
        (((s.main.drFailures { x with ending := some 7 } k p.fs).2.drLeave { x with ending := some 7 } k p.lines).drEnd d.val 7))) ∧
    (s.main.get (F.DREDGE_STAT_STATE d.val) = 2 → Does (.dredgeStop d p true) s (s.main.putDr { x with ending := some 7 })) ∧
    Does (.dredgeStop d p false) s s.main) ∧
  (∀ (m : Main) (d err : Nat), m.dredges.any (fun x => x.die == d && x.boot) = false →
    (m.drEnd d err).dredges.any (fun x => x.die == d) = false)

/-- R372 to R380: the axis ports. A CFG write with a legal MODE, of a port that no enabled reference follows, is taken whole; one with a reserved MODE leaves MODE and sets
CFGERR, and one that would change what a step means to an enabled reference leaves MODE, QMULT and DIRINV and sets CFGERR. PRESET sets CNT. Accepted edges step CNT and the raw count together as the mode
says, or are a quadrature error; a step that reaches or passes CMP raises cause 1. An index captures CNT and its time, raises its event, and zeroes CNT as IDXMODE says. A lost receiver is reported, and counting
resumes from the levels seen when its signal returns; until then the references that the port feeds stand. Each SINCOS sample is checked and, unless COARSE, moves CNT to 4,096 × periods + phi; an SSI frame, which a trigger of the port's
period or of its timer starts, is discarded or moves CNT by the modular difference.
The SSI clock's enable and a counter under a stimulus are the model's readings (log 248, 250). -/
def Obligations.AxisPorts : Prop :=
  (∀ (s : State) (n : Fin 64) (v : Word), bitsOf v.toNat 0 4 < 7 → (bitsOf v.toNat 0 4 = 4 → n.val < 32) → bitsOf v.toNat 4 2 ≠ 3 → bitsOf v.toNat 14 2 ≠ 3 →
    s.main.refsOn [2, 3, 4] n.val = [] → bitsOf v.toNat 17 3 = s.main.get (F.AXIS_CFG_INV n.val) → bitsOf v.toNat 0 4 = s.main.get (F.AXIS_CFG_MODE n.val) →
    let x := s.main.axis n.val
    let clk := decide (bitsOf v.toNat 0 4 = 5) && (clkMode s.main.mode || x.clk)
    let m := ((((((((s.main.set (F.AXIS_CFG_MODE n.val) (bitsOf v.toNat 0 4)).set (F.AXIS_CFG_QMULT n.val) (bitsOf v.toNat 4 2)).set
        (F.AXIS_CFG_DIRINV n.val) (bitsOf v.toNat 23 1)).set (F.AXIS_CFG_FILT n.val) (bitsOf v.toNat 6 8)).set (F.AXIS_CFG_IDXQUAL n.val) (bitsOf v.toNat 16 1)).set
        (F.AXIS_CFG_IDXMODE n.val) (bitsOf v.toNat 14 2)).set (F.AXIS_CFG_INV n.val) (bitsOf v.toNat 17 3)).set (F.AXIS_CFG_TERM n.val) (bitsOf v.toNat 20 3))
    Does (.axisCfgWrite n v) s (((if bitsOf v.toNat 0 4 = 5 ∧ clk = false then m.set (F.AXIS_DAC_OEREF n.val) 1 else m).putAxis { x with clk := clk }).hallShow n.val)) ∧
  (∀ (s : State) (n : Fin 64) (v : Word), s.main.get (F.AXIS_CFG_MODE n.val) < 16 → s.main.get (F.AXIS_CFG_QMULT n.val) < 4 → s.main.get (F.AXIS_CFG_DIRINV n.val) < 2 →
    ∃ m, Does (.axisCfgWrite n v) s m ∧ m.get (F.AXIS_CFG_FILT n.val) = bitsOf v.toNat 6 8 ∧ m.get (F.AXIS_CFG_TERM n.val) = bitsOf v.toNat 20 3 ∧
      m.get (F.AXIS_CNT_CNT n.val) = s.main.get (F.AXIS_CNT_CNT n.val) ∧
      (7 ≤ bitsOf v.toNat 0 4 ∨ (bitsOf v.toNat 0 4 = 4 ∧ 32 ≤ n.val) →
        m.get (F.AXIS_CFG_MODE n.val) = s.main.get (F.AXIS_CFG_MODE n.val) ∧ m.get (F.AXIS_STAT_CFGERR n.val) = 1) ∧
      (s.main.refsOn [2, 3, 4] n.val ≠ [] →
        m.get (F.AXIS_CFG_MODE n.val) = s.main.get (F.AXIS_CFG_MODE n.val) ∧ m.get (F.AXIS_CFG_QMULT n.val) = s.main.get (F.AXIS_CFG_QMULT n.val) ∧
        m.get (F.AXIS_CFG_DIRINV n.val) = s.main.get (F.AXIS_CFG_DIRINV n.val))) ∧
  (∀ (s : State) (n : Fin 64) (v : Word), Does (.axisPresetWrite n v) s (s.main.putCnt n.val v.toNat)) ∧
  (∀ (s : State) (n : Fin 64) (a b z : Bool) (ts : Nat), s.main.mode ≠ 10 → (s.main.axis n.val).lost = 0 → s.main.surv.deaf = [] →
    let x := s.main.axis n.val
    let k := s.main.putAxis { x with a := a, b := b, z := z }
    (s.main.get (F.AXIS_CFG_MODE n.val) = 1 → z = x.z →
      (∀ d, quadStep x.a x.b a b = some d →
        (s.main.get (F.AXIS_CFG_QMULT n.val) = 0 → Does (.axisEdge n a b z ts) s (k.axisStep n.val (s.main.axisSign n.val d) ts)) ∧
        (s.main.get (F.AXIS_CFG_QMULT n.val) = 1 → Does (.axisEdge n a b z ts) s (k.axisStep n.val (s.main.axisSign n.val (if a = x.a then 0 else d)) ts)) ∧
        (s.main.get (F.AXIS_CFG_QMULT n.val) = 2 →
          Does (.axisEdge n a b z ts) s (k.axisStep n.val (s.main.axisSign n.val (if a = true ∧ x.a = false then d else 0)) ts))) ∧
      (quadStep x.a x.b a b = none → Does (.axisEdge n a b z ts) s (k.axisQerr n.val))) ∧
    (s.main.get (F.AXIS_CFG_MODE n.val) = 2 → z = x.z →
      Does (.axisEdge n a b z ts) s (k.axisStep n.val (s.main.axisSign n.val (if a && !x.a then (if b then 1 else -1) else 0)) ts)) ∧
    (s.main.get (F.AXIS_CFG_MODE n.val) = 3 → z = x.z →
      Does (.axisEdge n a b z ts) s (k.axisStep n.val (s.main.axisSign n.val ((if a && !x.a then 1 else 0) - (if b && !x.b then 1 else 0))) ts)) ∧
    (s.main.get (F.AXIS_CFG_MODE n.val) = 6 →
      let h0 := b2n x.a + 2 * b2n x.b + 4 * b2n x.z
      let h1 := b2n a + 2 * b2n b + 4 * b2n z
      let m := k.set (F.AXIS_STAT_HALL n.val) h1
      h0 ≠ h1 → (∀ d, hallStep h0 h1 = some d → Does (.axisEdge n a b z ts) s (m.axisStep n.val (s.main.axisSign n.val d) ts)) ∧
        (hallStep h0 h1 = none → Does (.axisEdge n a b z ts) s (m.axisQerr n.val)))) ∧
  (∀ (a b a' b' : Bool), (quadStep a b a' b' = none ↔ a ≠ a' ∧ b ≠ b') ∧ (quadStep a b a' b' = some 1 → quadStep a' b' a b = some (-1))) ∧
  quadStep false false true false = some 1 ∧
  (hallStep 1 3 = some 1 ∧ hallStep 3 2 = some 1 ∧ hallStep 2 6 = some 1 ∧ hallStep 6 4 = some 1 ∧ hallStep 4 5 = some 1 ∧ hallStep 5 1 = some 1) ∧
  (∀ h, hallStep 0 h = none ∧ hallStep 7 h = none ∧ hallStep h 0 = none ∧ hallStep h 7 = none) ∧
  (∀ (m : Main) (n ts : Nat) (d : Int), n < 64 → d ≠ 0 → m.survPort n = false →
    let old := sgn 64 (m.get (F.AXIS_CNT_CNT n))
    let k := (m.putCnt n (uns 64 (old + d))).putAxis { m.axis n with raw := (m.axis n).raw + d }
    let cmp := sgn 64 (m.get (F.AXIS_CMP_VALUE n))
    ((old < cmp ∧ cmp ≤ old + d) ∨ (old + d ≤ cmp ∧ cmp < old) → bitsOf (m.get (F.AXIS_EVT_CAUSEEN n)) 0 1 = 1 → m.refsOn [2] n = [] →
      m.axisStep n d ts = k.event (320 + n) (1 + k.get (F.AXIS_CNT_CNT n) % 2 ^ 24 * 256)) ∧
    (bitsOf (m.get (F.AXIS_EVT_CAUSEEN n)) 0 1 = 0 →
      m.axisStep n d ts = (m.refsLive 2 n).foldl (fun k r => k.refEdge r ((m.axis n).raw + d) ts) k)) ∧
  (∀ (m : Main) (n ts : Nat) (d : Int), m.survPort n = true → m.axisStep n d ts = m) ∧
  (∀ (m : Main) (n kind : Nat), 2 ≤ kind → kind ≤ 4 →
    (m.flag (F.AXIS_STAT_LOS n) = true ∨ m.survPort n = true → m.refsLive kind n = []) ∧
    (m.flag (F.AXIS_STAT_LOS n) = false → m.survPort n = false → m.refsLive kind n = m.refsOn [kind] n)) ∧
  (∀ (m : Main) (n : Nat), n < 64 → (bitsOf (m.get (F.AXIS_EVT_CAUSEEN n)) 1 1 = 0 → m.axisQerr n = m.bump (F.AXIS_STAT_QERR n))) ∧
  (∀ (s : State) (n : Fin 64) (ts : Nat), s.main.mode ≠ 10 → (s.main.axis n.val).lost = 0 → s.main.surv.deaf = [] → (s.main.axis n.val).z = false →
    let md := s.main.get (F.AXIS_CFG_MODE n.val)
    let x := s.main.axis n.val
    let cnt := s.main.get (F.AXIS_CNT_CNT n.val)
    let k := (((s.main.set (F.AXIS_IDXCAP_CNT n.val) cnt).set (F.AXIS_IDXTIME_TIME n.val) ts).bump (F.AXIS_STAT_IDXCOUNT n.val)).event (256 + n.val) cnt
    1 ≤ md → md ≤ 3 →
    (s.main.flag (F.AXIS_CFG_IDXQUAL n.val) = false ∨ (x.a = true ∧ x.b = true) →
      (s.main.get (F.AXIS_CFG_IDXMODE n.val) = 0 → Does (.axisIndex n ts) s (k.putAxis { x with z := true })) ∧
      (s.main.get (F.AXIS_CFG_IDXMODE n.val) = 1 →
        Does (.axisIndex n ts) s (((k.putCnt n.val 0).set (F.AXIS_CFG_IDXMODE n.val) 0).putAxis { x with z := true })) ∧
      (s.main.get (F.AXIS_CFG_IDXMODE n.val) = 2 → Does (.axisIndex n ts) s ((k.putCnt n.val 0).putAxis { x with z := true }))) ∧
    (s.main.flag (F.AXIS_CFG_IDXQUAL n.val) = true → x.a = false ∨ x.b = false → Does (.axisIndex n ts) s (s.main.putAxis { x with z := true }))) ∧
  (∀ (s : State) (n : Fin 64) (rx : Fin 3),
    let x := s.main.axis n.val
    let k := s.main.putAxis { x with lost := x.lost + 2 ^ rx.val }
    (bitsOf x.lost rx.val 1 = 1 → Does (.axisLossOfSignal n rx) s s.main) ∧
    (bitsOf x.lost rx.val 1 = 0 → bitsOf (losMask (k.get (F.AXIS_CFG_MODE n.val))) rx.val 1 = 1 → Does (.axisLossOfSignal n rx) s
      (((((k.set (F.AXIS_STAT_LOSTPOS n.val) 1).set (F.AXIS_STAT_LOS n.val) 1).axisCause n.val 3).raiseSrc 31 0 0 (n.val + rx.val * 64)).refsStand [2, 3, 4] n.val)) ∧
    (bitsOf x.lost rx.val 1 = 0 → bitsOf (losMask (k.get (F.AXIS_CFG_MODE n.val))) rx.val 1 = 0 → Does (.axisLossOfSignal n rx) s k)) ∧
  losMask 1 = 7 ∧ losMask 4 = 7 ∧ losMask 5 = 1 ∧ losMask 6 = 0 ∧
  (∀ (s : State) (n : Fin 64) (level : Bool),
    let x := s.main.axis n.val
    (x.lost = 1 → bitsOf (losMask (s.main.get (F.AXIS_CFG_MODE n))) 0 1 = 1 →
      let y : AxisSt := { x with lost := 0, a := level, quarters := alignQuarters x.quarters level x.b }
      Does (.axisSignalReturn n 0 level) s ((s.main.putAxis y).set (F.AXIS_STAT_LOS n.val) 0)) ∧
    (x.lost = 1 → bitsOf (losMask (s.main.get (F.AXIS_CFG_MODE n))) 0 1 = 0 →
      let y : AxisSt := { x with lost := 0, quarters := alignQuarters x.quarters x.a x.b }
      Does (.axisSignalReturn n 0 level) s ((s.main.putAxis y).set (F.AXIS_STAT_LOS n.val) 0)) ∧
    (∀ rx : Fin 3, bitsOf x.lost rx.val 1 = 0 → Does (.axisSignalReturn n rx level) s s.main)) ∧
  (∀ (s : State) (n : Fin 32) (sn cs : BitVec 16) (fast : Bool), s.main.mode ≠ 10 → s.main.get (F.AXIS_CFG_MODE n.val) = 4 → (s.main.axis n.val).lost = 0 →
    let amp := (sn.toInt * sn.toInt + cs.toInt * cs.toInt).toNat
    let lo := s.main.get (F.AXIS_SCAMP_AMIN n.val)
    let hi := s.main.get (F.AXIS_SCAMP_AMAX n.val)
    let y := (sn.toInt - sgn 16 (s.main.get (F.AXIS_SCCAL_SOFF n.val))) * 32768
    let x := (cs.toInt - sgn 16 (s.main.get (F.AXIS_SCCAL_COFF n.val))) * s.main.get (F.AXIS_SCCAL_CGAIN n.val)
    let st := s.main.axis n.val
    let k := s.main.set (F.AXIS_STAT_COARSE n.val) (b2n fast)
    let pos := mergePhi st.quarters (phiOf y x)
    let moved := if fast then k else (k.putAxis { st with quarters := pos / 1024, sc := pos }).axisStep n.val (k.axisSign n.val (pos - st.sc)) s.main.now
    (y ≠ 0 ∨ x ≠ 0) → moved.refsOn [3] n.val = [] →
    (lo * lo ≤ amp → amp ≤ hi * hi → Does (.sincosSample n sn cs fast) s moved) ∧
    (amp < lo * lo ∨ hi * hi < amp → let k := ((moved.set (F.AXIS_STAT_AMP n.val) 1).axisCause n.val 6).raiseSrc 32 0 0 n.val
      k.refsOn [3] n.val = [] → Does (.sincosSample n sn cs fast) s k)) ∧
  (∀ (q : Int) (phi : Nat), phi < 4096 → mergePhi q phi % 4096 = phi ∧ 1024 * q + 512 - 2048 ≤ mergePhi q phi ∧ mergePhi q phi < 1024 * q + 512 + 2048) ∧
  (∀ (y x : Int), phiOf y x < 4096 ∧ (0 < x → 0 ≤ y → phiOf y x < 1024) ∧ (0 < y → phiOf y 0 = 1024) ∧ (x < 0 → phiOf 0 x = 2048) ∧ (y < 0 → phiOf y 0 = 3072)) ∧
  (∀ (s : State) (n : Fin 64), s.main.mode ≠ 10 →
    let per := 1000 * s.main.get (F.AXIS_SSI_PER n.val)
    let x := s.main.axis n.val
    let last := match x.ssiLast with
      | some t => s.main.now - (s.main.now - t) % per
      | none => s.main.now
    (s.main.get (F.AXIS_CFG_MODE n.val) = 5 → x.clk = true → s.main.flag (F.AXIS_SSI_TRIGSRC n.val) = false → per ≠ 0 → (∀ t, x.ssiLast = some t → t + per ≤ s.main.now) →
      Does (.ssiTrigger n) s ((s.main.putAxis { x with ssiLast := some last }).ssiStart n.val)) ∧
    (s.main.get (F.AXIS_CFG_MODE n.val) ≠ 5 ∨ x.clk = false ∨ s.main.flag (F.AXIS_SSI_TRIGSRC n.val) = true ∨ per = 0 ∨ (∃ t, x.ssiLast = some t ∧ s.main.now < t + per) →
      Does (.ssiTrigger n) s s.main)) ∧
  (∀ (m : Main) (n : Nat), let x := m.axis n
    (x.clk = false → m.ssiStart n = m) ∧
    (x.clk = true → x.ssi.isSome = true ∨ m.now < x.ssiFree → m.ssiStart n = m.bump (F.AXIS_SSIVAL_SKIPS n)) ∧
    (x.clk = true → x.ssi = none → x.ssiFree ≤ m.now → m.ssiStart n = m.putAxis { x with ssi := some { start := m.now } })) ∧
  (∀ (m : Main) (t n : Nat), n < 64 →
    (∀ k, k < 64 → ((m.get (F.AXIS_CFG_MODE k) = 5 ∧ m.flag (F.AXIS_SSI_TRIGSRC k) = true ∧ m.get (F.AXIS_SSI_TIM k) = t) ↔ k = n)) →
    m.ssiExpiry t = m.ssiStart n) ∧
  (∀ (s : State) (n : Fin 64) (low : Bool) (w : BitVec 32) (e : BitVec 3) (f : SsiFrame), (s.main.axis n.val).ssi = some f →
    s.main.now < f.start + s.main.ssiTime n.val → Does (.ssiFrameComplete n low w e) s s.main) ∧
  (∀ (s : State) (n : Fin 64) (low : Bool) (w : BitVec 32) (e : BitVec 3) (f : SsiFrame), s.main.mode ≠ 10 → (s.main.axis n.val).ssi = some f →
    f.start + s.main.ssiTime n.val ≤ s.main.now →
    let x := s.main.axis n.val
    let k := s.main.putAxis { x with ssi := none, ssiFree := f.start + s.main.ssiTime n.val + 1000 * Nat.max 1 (s.main.get (F.AXIS_SSI_TM n.val)) }
    let ex := s.main.get (F.AXIS_SSI_EXTRA n.val)
    let bits := Nat.max 8 (Nat.min 32 (s.main.get (F.AXIS_SSI_BITS n.val)))
    let g := if s.main.flag (F.AXIS_SSI_GRAY n.val) then grayToBin (w.toNat % 2 ^ bits) else w.toNat % 2 ^ bits
    let m := (k.set (F.AXIS_SSIVAL_WORD n.val) g).set (F.AXIS_SSIVAL_EXTRA n.val) (e.toNat % 2 ^ ex)
    let d : Int := match x.ssiWord with
      | some o => unwrapDiff (2 ^ bits) g o
      | none => g
    let done := ((if s.main.survPort n.val = true then m else m.putAxis { m.axis n.val with ssiWord := some g }).axisStep n.val d f.start).axisCause n.val 4
    (low = true ∨ (ex ≠ 0 ∧ bitsOf e.toNat (ex - 1) 1 = s.main.get (F.AXIS_SSI_ERRLVL n.val)) →
      Does (.ssiFrameComplete n low w e) s ((k.axisCause n.val 5).raiseSrc 32 0 0 n.val)) ∧
    (low = false → ex = 0 ∨ bitsOf e.toNat (ex - 1) 1 ≠ s.main.get (F.AXIS_SSI_ERRLVL n.val) → ex < 3 → done.refsOn [4] n.val = [] →
      Does (.ssiFrameComplete n low w e) s done)) ∧
  (∀ (r : Nat) (a b : Nat), 0 < r → a < r → b < r → let d := unwrapDiff r a b
    (d - (a - b)) % r = 0 ∧ -(r : Int) < 2 * d ∧ 2 * d ≤ r)

/-- R381, R382, R391 to R394, R396, R398, R400, R401: resolvers, analog inputs, GPIO, timers, the enables and the gate. A resolver angle below LOSLIM is a loss, and the first one after a hold sets RESTART. A mains crossing
gives the period. A filtered edge of a GPIO shows in IN and raises its event as EDGE selects; a direct write of OUT leaves the bits of owned channels. An enable is refused, with OEREF, where the mode or the gate
refuses it, and a write of 0 always clears it; the gate drops every enabled gated output that it closes for. An enabled pin shows its latch or its timer, the lower-numbered of two that name it. A timer expires and triggers the SSI ports that name it, a
STEP timer emits a pulse toward 0 and turns its DIRPIN when the sign of PEND changes. Whether a crossing outside 40 to 70 Hz is accepted is no rule: the model's free value (log 209).
A pin of the main domains without power (mode 0) or without VSAFE is at high impedance, ALIVE_OUT and the open drains apart (R572). -/
def Obligations.AnalogAndPins : Prop :=
  (∀ (s : State) (i : Fin 16) (a l : BitVec 16),
    let x := s.main
    let hold := fun (m : Main) (h : Bool) => ({ m with port := { m.port with ress := m.port.ress.filter (fun y => y.i != i.val) ++ [{ i := i.val, held := h, start := ((m.port.ress.find? (fun y => y.i == i.val)).map (fun y => y.start)).getD 0 }] } } : Main)
    let k := x.set (F.ANA_RES_VAL_AMPL i.val) l.toNat
    (x.flag (F.ANA_RES_CFG_EN i.val) = false → Does (.resolverAngle i a l) s x) ∧
    (x.flag (F.ANA_RES_CFG_EN i.val) = true → l.toNat < x.get (F.ANA_RES_CFG_LOSLIM i.val) → x.flag (F.ANA_RES_VAL_LOS i.val) = false →
      Does (.resolverAngle i a l) s ((hold ((k.set (F.ANA_RES_VAL_LOS i.val) 1).raiseSrc 33 0 0 i.val) true).refsStand [5] i.val)) ∧
    (x.flag (F.ANA_RES_CFG_EN i.val) = true → l.toNat < x.get (F.ANA_RES_CFG_LOSLIM i.val) → x.flag (F.ANA_RES_VAL_LOS i.val) = true →
      Does (.resolverAngle i a l) s ((hold k true).refsStand [5] i.val)) ∧
    (x.flag (F.ANA_RES_CFG_EN i.val) = true → x.get (F.ANA_RES_CFG_LOSLIM i.val) ≤ l.toNat → x.refsOn [5] i.val = [] →
      (∀ y, x.port.ress.find? (fun y => y.i == i.val) = some y → y.held = false →
        Does (.resolverAngle i a l) s ((hold (k.set (F.ANA_RES_VAL_LOS i.val) 0) false).set (F.ANA_RES_VAL_ANGLE i.val) a.toNat)) ∧
      (x.port.ress.find? (fun y => y.i == i.val) = none ∨ (∃ y, x.port.ress.find? (fun y => y.i == i.val) = some y ∧ y.held = true) →
        Does (.resolverAngle i a l) s (((hold (k.set (F.ANA_RES_VAL_LOS i.val) 0) false).set (F.ANA_RES_VAL_RESTART i.val) 1).set
          (F.ANA_RES_VAL_ANGLE i.val) a.toNat)))) ∧
  (∀ (s : State) (j : Fin 16) (xs : List (BitVec 16)) (clip : Bool) (mean : BitVec 16), s.main.flag (F.ANA_IN_CFG_EN j.val) = true →
    xs.length = s.main.get (F.ANA_IN_CFG_AVG j.val) + 1 → (xs.map BitVec.toInt).foldl (· + ·) 0 = mean.toInt * xs.length →
    Does (.analogSampleGroup j xs clip) s (if clip then (s.main.set (F.ANA_IN_VAL_CODE j.val) mean.toNat).set (F.ANA_IN_VAL_OVR j.val) 1
      else s.main.set (F.ANA_IN_VAL_CODE j.val) mean.toNat)) ∧
  (∀ (s : State) (j : Fin 16) (t : Nat), s.main.flag (F.ANA_IN_CFG_EN j.val) = true → s.main.flag (F.ANA_IN_CFG_MAINS j.val) = true → s.main.refsOn [7] j.val = [] →
    let saw := fun (m : Main) => ({ m with port := { m.port with mains := m.port.mains.filter (fun x => x.j != j.val) ++ [{ j := j.val, last := t }] } } : Main)
    (∀ t0, s.main.mainsLast j.val = some t0 → t0 ≤ t → 1000000000 ≤ 70 * (t - t0) → 40 * (t - t0) ≤ 1000000000 →
      Does (.mainsCrossing j t) s (saw (s.main.set (F.ANA_IN_VAL_PERIOD j.val) (t - t0)))) ∧
    (∀ t0, s.main.mainsLast j.val = some t0 → t0 + 50000000 ≤ t →
      Does (.mainsCrossing j t) s (saw (s.main.set (F.ANA_IN_VAL_PERIOD j.val) 0))) ∧
    (s.main.mainsLast j.val = none → Does (.mainsCrossing j t) s (saw (s.main.set (F.ANA_IN_VAL_PERIOD j.val) 0)))) ∧
  (∀ (m : Main) (j t : Nat), m.mainsLast j = some t → (m.now < t + 50000000 → m.mainsPeriod j = m.get (F.ANA_IN_VAL_PERIOD j)) ∧
    (t + 50000000 ≤ m.now → m.mainsPeriod j = 0)) ∧
  (∀ (s : State) (n : Fin 448) (level : Bool),
    let w := s.main.get (F.GPIO_IN_LEVEL (n.val / 64))
    let was := bitsOf w (n.val % 64) 1
    let k := s.main.set (F.GPIO_IN_LEVEL (n.val / 64)) (if level then w + 2 ^ (n.val % 64) else w - 2 ^ (n.val % 64))
    let e := s.main.get (F.GPIO_CFG_EDGE n.val)
    (was = b2n level → Does (.gpioEdge n level) s s.main) ∧
    (was ≠ b2n level → n.val < 256 → bitsOf e (if level then 0 else 1) 1 = 1 → Does (.gpioEdge n level) s (k.event n.val (if level then 3 else 0))) ∧
    (was ≠ b2n level → 256 ≤ n.val ∨ bitsOf e (if level then 0 else 1) 1 = 0 → Does (.gpioEdge n level) s k)) ∧
  (∀ (m : Main) (n inv : Nat), n < 448 → inv < 2 → inv ≠ m.get (F.GPIO_CFG_INV n) → let k := m.gpioInvert n inv
    k.get (F.GPIO_CFG_INV n) = inv ∧ bitsOf (k.get (F.GPIO_IN_LEVEL (n / 64))) (n % 64) 1 = 1 - bitsOf (m.get (F.GPIO_IN_LEVEL (n / 64))) (n % 64) 1) ∧
  (∀ (m : Main) (n : Nat), (m.flag (F.GPIO_CFG_OE n) = false → m.gpioPin n = none) ∧
    (m.flag (F.GPIO_CFG_OE n) = true → m.flag (F.GPIO_CFG_SRC n) = false → m.flag (F.GPIO_CFG_OD n) = false ∨ m.gpioLatch n = false → m.gpioPin n = some (m.gpioLatch n)) ∧
    (m.flag (F.GPIO_CFG_SRC n) = false → m.flag (F.GPIO_CFG_OD n) = true → m.gpioLatch n = true → m.gpioPin n = none)) ∧
  (∀ (m : Main) (n t : Nat), n < 448 → t < 64 → m.flag (F.GPIO_CFG_OE n) = true → m.flag (F.GPIO_CFG_SRC n) = true → m.flag (F.GPIO_CFG_OD n) = false →
    m.get (F.TIMER_CFG_MODE t) ≠ 0 → m.get (F.TIMER_CFG_PIN t) = n → (∀ u, u < t → m.get (F.TIMER_CFG_MODE u) = 0 ∨ m.get (F.TIMER_CFG_PIN u) ≠ n) →
    m.gpioPin n = some (m.timerOut t)) ∧
  (∀ (m : Main) (t u : Nat), u < t → m.get (F.TIMER_CFG_MODE u) ≠ 0 → m.get (F.TIMER_CFG_PIN u) = m.get (F.TIMER_CFG_PIN t) → m.get (F.TIMER_CFG_PIN t) < 448 →
    m.pinConf t = true ∧ (∀ n d, m.pinTimer n ≠ some (t, d))) ∧
  (∀ (m : Main) (t : Nat) (d : Int), t < 64 → -2 ^ 31 ≤ m.timerPend t + d → m.timerPend t + d < 2 ^ 31 →
    let k := (m.set (F.TIMER_STEP_PEND t) (uns 32 (m.timerPend t + d))).timerDir t
    (m.timerPend t ≠ 0 → m.timerPend t + d = 0 → m.timerSteps t d = k.event (448 + t) (k.get (F.TIMER_POS_POS t))) ∧
    (m.timerPend t = 0 ∨ m.timerPend t + d ≠ 0 → m.timerSteps t d = k)) ∧
  (∀ (m : Main) (t : Nat), let x := m.timer t
    (m.timerPend t = 0 ∨ (0 < m.timerPend t ∧ x.up = true) ∨ (m.timerPend t < 0 ∧ x.up = false) → m.timerDir t = m) ∧
    ((0 < m.timerPend t ∧ x.up = false) ∨ (m.timerPend t < 0 ∧ x.up = true) → x.turn ≤ m.now → x.pulseEnd ≤ m.now →
      m.timerDir t = m.putTimer { x with up := !x.up, turn := m.now, ready := Nat.max x.ready (m.now + m.get (F.TIMER_STEP_DIRSU t)) })) ∧
  (∀ (s : State) (k : Fin 7) (v : Word), ∃ m, Does (.gpioOutWrite k v) s m ∧
    (∀ b, b < 64 → bitsOf (m.get (F.GPIO_OUT_LATCH k.val)) b 1 =
      if s.main.flag (F.OUTSCHED_OWN_OWNED (0x200 + 64 * k.val + b)) then bitsOf (s.main.get (F.GPIO_OUT_LATCH k.val)) b 1 else bitsOf v.toNat b 1) ∧
    ((∀ b, b < 64 → s.main.flag (F.OUTSCHED_OWN_OWNED (0x200 + 64 * k.val + b)) = false) → m = s.main.set (F.GPIO_OUT_LATCH k.val) v.toNat)) ∧
  (∀ (s : State) (o : OutSel),
    (s.main.enabled o = true → Does (.outputEnableWrite o false) s (s.main.putEnable o 0) ∧ Does (.outputEnableWrite o true) s s.main) ∧
    (s.main.enabled o = false → Does (.outputEnableWrite o false) s s.main ∧
      (s.main.modeAllows s.main.mode o = true → s.main.gated o = false ∨ s.main.gateOpen o = true → Does (.outputEnableWrite o true) s (s.main.putEnable o 1)) ∧
      (s.main.modeAllows s.main.mode o = false ∨ (s.main.gated o = true ∧ s.main.gateOpen o = false) →
        Does (.outputEnableWrite o true) s (s.main.oeRef o)))) ∧
  (∀ (m : Main) (mode : Nat) (o : OutSel), (m.modeAllows mode o = true ↔
    if m.gated o then mode = 3 ∨ mode = 4 ∨ mode = 5 ∨ mode = 6 ∨ mode = 8 ∨ mode = 9 else 3 ≤ mode)) ∧
  (∀ (m : Main) (d k g : Nat) (o : OutSel), m.gated o = true → (m.setGates d k g).gateOpen o = false → (m.setGates d k g).enabled o = false) ∧
  (∀ (m : Main) (n : Fin 64), m.gateDrop (.dac n) = ((m.set (F.AXIS_DAC_OE n.val) 0).set (F.AXIS_DAC_GATEDROP n.val) 1).bump (F.AXIS_DAC_GATEDROPS n.val)) ∧
  (∀ (s : State) (t : Fin 64), s.main.mode ≠ 10 →
    let x := s.main.timer t.val
    let per := s.main.get (F.TIMER_PER_PER t.val)
    let fire := fun (m : Main) =>
      ((m.bump (F.TIMER_STAT_EXPIRIES t.val)).event (448 + t.val) ((m.bump (F.TIMER_STAT_EXPIRIES t.val)).get (F.TIMER_STAT_EXPIRIES t.val))).ssiExpiry t.val
    (s.main.get (F.TIMER_CFG_MODE t.val) = 1 → per ≠ 0 → x.start + per ≤ s.main.now →
      (x.newPer = none → Does (.timerExpiry t) s (fire (s.main.putTimer { x with start := x.start + per, newPer := none, pulseEnd := s.main.now + s.main.get (F.TIMER_PER_WIDTH t.val) }))) ∧
      (∀ p, x.newPer = some p → let k := s.main.set (F.TIMER_PER_PER t.val) p
        Does (.timerExpiry t) s (fire (k.putTimer { x with start := x.start + per, newPer := none, pulseEnd := s.main.now + s.main.get (F.TIMER_PER_WIDTH t.val) })))) ∧
    (s.main.get (F.TIMER_CFG_MODE t.val) = 2 → x.run = true → x.start + x.wait ≤ s.main.now →
      Does (.timerExpiry t) s (fire (s.main.putTimer { x with run := false, pulseEnd := s.main.now + s.main.get (F.TIMER_PER_WIDTH t.val) }))) ∧
    (s.main.get (F.TIMER_CFG_MODE t.val) = 4 → per ≠ 0 → x.start + per ≤ s.main.now → x.newWidth = none → Does (.timerExpiry t) s
      (s.main.putTimer { x with start := x.start + per, newWidth := none, pulseEnd := x.start + per + s.main.get (F.TIMER_PER_WIDTH t.val) })) ∧
    (∀ w, s.main.get (F.TIMER_CFG_MODE t.val) = 4 → per ≠ 0 → x.start + per ≤ s.main.now → x.newWidth = some w → Does (.timerExpiry t) s
      ((s.main.set (F.TIMER_PER_WIDTH t.val) w).putTimer { x with start := x.start + per, newWidth := none, pulseEnd := x.start + per + w % 2 ^ 32 })) ∧
    (s.main.get (F.TIMER_CFG_MODE t.val) = 1 ∨ s.main.get (F.TIMER_CFG_MODE t.val) = 4 → per = 0 ∨ s.main.now < x.start + per → Does (.timerExpiry t) s s.main) ∧
    (s.main.get (F.TIMER_CFG_MODE t.val) = 2 → x.run = false ∨ s.main.now < x.start + x.wait → Does (.timerExpiry t) s s.main) ∧
    (s.main.get (F.TIMER_CFG_MODE t.val) = 0 ∨ s.main.get (F.TIMER_CFG_MODE t.val) = 3 → Does (.timerExpiry t) s s.main)) ∧
  (∀ (s : State) (t : Fin 64), s.main.mode ≠ 10 → s.main.get (F.TIMER_CFG_MODE t.val) = 3 →
    let x := s.main.timer t.val
    let p := s.main.timerPend t.val
    let d : Int := if 0 < p then 1 else -1
    let k := ((s.main.set (F.TIMER_STEP_PEND t.val) (uns 32 (p - d))).set (F.TIMER_POS_POS t.val) (uns 64 (sgn 64 (s.main.get (F.TIMER_POS_POS t.val)) + d))).putTimer
      { x with pulseEnd := s.main.now + Nat.max 100 (Nat.min (Nat.max 250 (s.main.get (F.TIMER_PER_PER t.val)) - 50) (s.main.get (F.TIMER_PER_WIDTH t.val))),
               ready := s.main.now + Nat.max 250 (s.main.get (F.TIMER_PER_PER t.val)) }
    (p ≠ 0 → x.ready ≤ s.main.now → s.main.stepDriven t.val = true →
      (p ≠ 1 → p ≠ -1 → Does (.timerStepPulse t) s k) ∧
      (p = 1 ∨ p = -1 → Does (.timerStepPulse t) s (k.event (448 + t.val) (k.get (F.TIMER_POS_POS t.val))))) ∧
    (p = 0 ∨ s.main.now < x.ready ∨ s.main.stepDriven t.val = false → Does (.timerStepPulse t) s s.main)) ∧
  (∀ (s : State) (x : PinName), s.isl.on = false → s.pin x = if x = .openDrain then .released else .highZ) ∧
  (∀ (s : State), s.isl.on = true →
    (∀ n, s.main.flag (F.GPIO_CFG_OE n.val) = false → s.pin (.gpio n) = .highZ) ∧
    (∀ k ph low, s.main.flag (F.MOTOR_CTL_OE k.val) = false → (s.main.motor k.val).drv = false → s.pin (.motor k ph low) = .highZ) ∧
    (∀ n, s.main.live (.iface (0x20 + n.val)) = false → s.pin (.uartTxd n) = .highZ ∧ s.pin (.uartDe n) = .highZ) ∧
    (∀ c, s.main.live (.iface (0x10 + c.val)) = false → s.pin (.canTx c) = .highZ) ∧
    (s.main.mode = 0 → s.pin .emmc = .highZ ∧ s.pin .xspi = .highZ ∧ s.pin .pcieTx = .highZ ∧ s.pin .usb = .highZ) ∧
    (s.main.mode ≠ 0 → s.main.flag F.PCIE_LINK_UP = false → s.pin .pcieTx = .idle) ∧
    s.pin .aliveOut = .level s.main.coll.alive ∧ s.pin .safeAlive = .level s.isl.safeAlive ∧
    (∀ d, (s.isl.ch d.val).sto = true → s.pin (.sto d) = .level false) ∧
    (∀ d, (s.isl.ch d.val).sto = false → s.pin (.sto d) = .wave))

/-- R383 to R389, R395 to R397: the DACs, the motor ports and the tape ports. A held DAC write starts 1 µs after the start before it. A carrier zero counts a period, loads what its LOAD selects and has been
written at least 20 ns before, and raises its event; the word loaded is the shadow's; with LOAD 3 words load in the next step. A phase follows its ideal signal, on while c(t) ≥ CMP, and its two pins its
sides and POL. That the signal goes off where the falling c(t) meets CMP is the model's reading of R390's example (log 211). A complete group of samples updates IVAL and commits its packet; a sample beyond OCLIM trips the port: every phase
OFF, READY clear, OCTRIP set. A tape character becomes a word of its runnel, and one that finds no room is lost; a word of the runnel is sent as the holes of its ENC entry.
A rise of RUN during a character, and RDY in READ, are the model's (log 249). -/
def Obligations.DrivesAndTapes : Prop :=
  (∀ (s : State) (n : Fin 64) (code t : Nat), s.main.dac n.val = { n := n.val, start := some t, held := some code } →
    (t + 1000 ≤ s.main.now → Does (.dacDeferredStart n) s ((s.main.set (F.AXIS_DAC_CODE n.val) code).putDac { n := n.val, start := some s.main.now, held := none })) ∧
    (s.main.now < t + 1000 → Does (.dacDeferredStart n) s s.main)) ∧
  (∀ (m : Main) (n v : Nat) (d : DacSt), n < 64 → m.dac n = d →
    (d.start = none ∨ (∃ t, d.start = some t ∧ t + 1000 ≤ m.now) → m.applyOut n v = (m.set (F.AXIS_DAC_CODE n) (v % 2 ^ 18)).putDac { n := n, start := some m.now, held := none }) ∧
    (∀ t, d.start = some t → m.now < t + 1000 → d.held = none → m.applyOut n v = m.putDac { d with held := some (v % 2 ^ 18) }) ∧
    (∀ t c, d.start = some t → m.now < t + 1000 → d.held = some c →
      m.applyOut n v = (m.bump (F.AXIS_DAC_DEFERS n)).putDac { d with held := some (v % 2 ^ 18) })) ∧
  (∀ (s : State) (k : Fin 16), s.main.get (F.MOTOR_ADC_SAMPLE k.val) = 3 →
    let x := s.main.motor k.val
    let zero := s.main.putMotor { x with periods := x.periods + 1, zero := s.main.now - s.main.carrierTime k.val, topped := false,
                                         follow := x.follow || s.main.flag (F.MOTOR_CTL_OE k.val) }
    (s.main.pointDue k.val false = true → s.main.get (F.MOTOR_CFG_LOAD k.val) = 1 → s.main.get (F.MOTOR_ADC_PEVT k.val) = 1 →
      Does (.motorCarrierPoint k false) s (zero.event (432 + k.val) ((x.periods + 1) % 65536 * 65536))) ∧
    (s.main.pointDue k.val false = true → s.main.get (F.MOTOR_CFG_LOAD k.val) = 0 → s.main.get (F.MOTOR_ADC_PEVT k.val) = 0 → Does (.motorCarrierPoint k false) s (zero.motorLoadPoint k.val)) ∧
    (s.main.pointDue k.val true = true → s.main.get (F.MOTOR_CFG_LOAD k.val) = 0 → s.main.get (F.MOTOR_ADC_PEVT k.val) ≤ 1 →
      Does (.motorCarrierPoint k true) s (s.main.putMotor { x with topped := true })) ∧
    (∀ top, s.main.pointDue k.val top = false → Does (.motorCarrierPoint k top) s s.main)) ∧
  (∀ (s : State) (k : Fin 16), s.main.get (F.MOTOR_ADC_SAMPLE k.val) = 0 → s.main.pointDue k.val false = true →
    s.main.get (F.MOTOR_CFG_LOAD k.val) = 1 → s.main.get (F.MOTOR_ADC_PEVT k.val) = 0 →
    let x := s.main.motor k.val
    let y := { x with periods := x.periods + 1, zero := s.main.now - s.main.carrierTime k.val, topped := false,
                      follow := x.follow || s.main.flag (F.MOTOR_CTL_OE k.val) }
    (x.group = true → Does (.motorCarrierPoint k false) s ((s.main.putMotor y).bump (F.MOTOR_STAT_SKIPS k.val))) ∧
    (x.group = false → Does (.motorCarrierPoint k false) s
      ((s.main.putMotor y).putMotor { y with group := true, samples := [], first := y.zero + s.main.get (F.MOTOR_ADC_DELAY k.val) }))) ∧
  (∀ (m : Main) (k : Nat), let x := m.motor k
    (m.flag (F.MOTOR_CFG_ALIGN k) = true → m.pointDue k true = false ∧ (m.pointDue k false = true ↔ x.zero + m.motorPeriod k ≤ m.now)) ∧
    (m.flag (F.MOTOR_CFG_ALIGN k) = false →
      (m.pointDue k true = true ↔ x.topped = false ∧ x.zero + m.motorPeriod k / 2 ≤ m.now) ∧
      (m.pointDue k false = true ↔ x.topped = true ∧ x.zero + m.motorPeriod k ≤ m.now))) ∧
  (∀ (m : Main) (k ph : Nat), let c := m.motorCmp k ph
    m.carrierTime k < m.motorPeriod k ∧ 1000 ≤ m.motorPeriod k ∧ m.motorPeriod k ≤ 1000000 ∧
    (m.flag (F.MOTOR_CFG_ALIGN k) = true → m.carrier k = m.carrierTime k ∧ (m.idealOn k ph = true ↔ c ≤ m.carrier k)) ∧
    (m.flag (F.MOTOR_CFG_ALIGN k) = false → m.motorPeriod k % 2 = 0 ∧ 2 * m.carrier k ≤ m.motorPeriod k ∧
      (c < m.carrier k → m.idealOn k ph = true) ∧ (m.carrier k < c → m.idealOn k ph = false) ∧
      (c = m.carrier k → 2 * c < m.motorPeriod k → (m.idealOn k ph = true ↔ m.carrierTime k = c)))) ∧
  (∀ (m : Main) (k : Nat), k < 16 → (∀ j, j < 16 → (m.get (F.MOTOR_CFG_LOAD j) = 3 ↔ j = k)) → m.flag (F.MOTOR_CFG_TRIPLE k) = false →
    m.motorsNow = m.motorLoad k ((m.motor k).written.map (fun p => p.1))) ∧
  (∀ (m : Main) (k : Nat), k < 16 →
    let due := ((m.motor k).written.filter (fun p => decide (p.2 + 20 ≤ m.now))).map (fun p => p.1)
    (m.flag (F.MOTOR_CFG_TRIPLE k) = false → m.motorLoadPoint k = m.motorLoad k due) ∧
    (m.flag (F.MOTOR_CFG_TRIPLE k) = true → m.flag (F.MOTOR_SHADOW_READY k) = false → m.motorLoadPoint k = m) ∧
    (m.flag (F.MOTOR_CFG_TRIPLE k) = true → m.flag (F.MOTOR_SHADOW_READY k) = true → due.contains 3 = true →
      m.motorLoadPoint k = (m.motorLoad k due).set (F.MOTOR_SHADOW_READY k) 0)) ∧
  (∀ (m : Main) (k w : Nat), k < 16 → w < 3 → m.get (F.MOTOR_CMP_ACTIVE k) < 2 ^ 60 →
    bitsOf ((m.motorLoad k [w]).get (F.MOTOR_CMP_ACTIVE k)) (20 * w) 20 = bitsOf (m.get (F.MOTOR_SHADOW_PENDING k)) (20 * w) 20 ∧
    (m.motorLoad k [w]).get (F.MOTOR_CTL_MODES k) = m.get (F.MOTOR_CTL_MODES k)) ∧
  (∀ (s : State) (k : Fin 16) (ph : Fin 3) (on : Bool) (p : PhaseSt), (s.main.motor k.val).phases[ph.val]? = some p →
    let x := s.main.motor k.val
    let len := s.main.idealLength k.val ph.val on
    let dead := s.main.get (F.MOTOR_PER_DEAD k.val)
    let q : PhaseSt := { p with on := on, since := s.main.now, short := len.any (fun len => decide (len ≤ dead ∨ len - dead < s.main.get (F.MOTOR_PER_MINPW k.val))) }
    (p.on = on ∨ s.main.idealOn k.val ph.val ≠ on → Does (.idealSignalChange k ph on) s s.main) ∧
    (p.on ≠ on → s.main.idealOn k.val ph.val = on → Does (.idealSignalChange k ph on) s (s.main.putMotor { x with phases := x.phases.set ph.val q }))) ∧
  (∀ (m : Main) (k ph : Nat), let c := m.motorCmp k ph
    let t := m.carrierTime k
    let per := m.motorPeriod k
    (∀ on, c = 0 → m.idealLength k ph on = none) ∧
    (0 < c → m.flag (F.MOTOR_CFG_ALIGN k) = true → (∀ on, per ≤ c → m.idealLength k ph on = none) ∧
      (c < per → m.idealLength k ph true = some (per - t) ∧ (t < c → m.idealLength k ph false = some (c - t)))) ∧
    (0 < c → m.flag (F.MOTOR_CFG_ALIGN k) = false → (∀ on, per ≤ 2 * c → m.idealLength k ph on = none) ∧
      (2 * c < per → m.idealLength k ph true = some (per - c - t) ∧ (t < c → m.idealLength k ph false = some (c - t)) ∧
        (c ≤ t → m.idealLength k ph false = some (per - t + c))))) ∧
  (∀ (m : Main) (k ph : Nat), ¬ ((m.phaseSides k ph).1 = true ∧ (m.phaseSides k ph).2 = true) ∧ ¬ ((m.windSides k ph).1 = true ∧ (m.windSides k ph).2 = true)) ∧
  (∀ (m : Main) (k ph : Nat), (m.flag (F.MOTOR_CTL_OE k) = false → (m.motor k).drv = false → m.motorPins k ph = none) ∧
    (m.flag (F.MOTOR_CTL_OE k) = false → (m.motor k).drv = true → ∃ hi lo, m.motorPins k ph = some (hi, lo) ∧
      (hi = (m.windSides k ph).1 ↔ bitsOf (m.get (F.MOTOR_CFG_POL k)) (2 * ph) 1 = 0) ∧
      (lo = (m.windSides k ph).2 ↔ bitsOf (m.get (F.MOTOR_CFG_POL k)) (2 * ph + 1) 1 = 0)) ∧
    (m.flag (F.MOTOR_CTL_OE k) = true → ∃ hi lo, m.motorPins k ph = some (hi, lo) ∧
      (hi = (m.phaseSides k ph).1 ↔ bitsOf (m.get (F.MOTOR_CFG_POL k)) (2 * ph) 1 = 0) ∧
      (lo = (m.phaseSides k ph).2 ↔ bitsOf (m.get (F.MOTOR_CFG_POL k)) (2 * ph + 1) 1 = 0))) ∧
  (∀ (s : State) (k : Fin 16) (iu iv iw : BitVec 16) (io : RnIo), let x := s.main.motor k.val
    x.group = false ∨ s.main.now < x.first + 200 * x.samples.length → Does (.motorAdcSample k iu iv iw io) s s.main) ∧
  (∀ (s : State) (k : Fin 16) (iu iv iw : BitVec 16) (io : RnIo), (s.main.motor k.val).group = true →
    (s.main.motor k.val).first + 200 * (s.main.motor k.val).samples.length ≤ s.main.now →
    let lim := s.main.get (F.MOTOR_ADC_OCLIM k.val)
    let over_ := lim ≠ 0 ∧ (lim < iu.toInt.natAbs ∨ lim < iv.toInt.natAbs ∨ lim < iw.toInt.natAbs)
    let go := fun (m : Main) =>
      let x := m.motor k.val
      let y := { x with samples := x.samples ++ [(iu.toInt, iv.toInt, iw.toInt)] }
      if y.samples.length < 2 ^ m.get (F.MOTOR_ADC_OVS k.val) then m.putMotor y else m.motorGroup k.val y io
    (¬ over_ → Does (.motorAdcSample k iu iv iw io) s (go s.main)) ∧ (over_ → Does (.motorAdcSample k iu iv iw io) s (go (s.main.motorTrip k.val)))) ∧
  (∀ (m : Main) (k : Nat), k < 16 → let t := m.motorTrip k
    t.get (F.MOTOR_CTL_MODES k) = 0x15 ∧ t.get (F.MOTOR_SHADOW_READY k) = 0 ∧ t.get (F.MOTOR_CTL_OCTRIP k) = 1 ∧
    t.get (F.MOTOR_CMP_ACTIVE k) = m.get (F.MOTOR_CMP_ACTIVE k) ∧ (∀ ph, t.phaseSides k ph = (false, false))) ∧
  (∀ (m : Main) (k : Nat) (x : MotorSt) (u v w : BitVec 16) (io : RnIo), k < 16 → x.samples = [(u.toInt, v.toInt, w.toInt)] → m.unitRx (0x50 + k) = none →
    m.motorGroup k x io = ((m.set (F.MOTOR_IVAL_CUR k) (u.toNat + v.toNat * 2 ^ 16 + w.toNat * 2 ^ 32)).set (F.MOTOR_IVAL_SEQ k)
      ((m.get (F.MOTOR_IVAL_SEQ k) + 1) % 2 ^ 16)).putMotor { x with group := false, samples := [] }) ∧
  (∀ (s : State) (p : Fin 2) (h : BitVec 8) (rdy : Bool) (io : RnIo),
    let k := s.main.putTape { s.main.tape p.val with rdy := rdy }
    let par := parityError (s.main.flag (F.TAPE_CFG_CODE p.val)) h.toNat
    let c := k.bump (F.TAPE_STAT_CHARS p.val)
    let n := if par then c.bump (F.TAPE_STAT_PARERR p.val) else c
    let eob := s.main.flag (F.TAPE_DEC_EOB p.val h.toNat)
    let word := h.toNat + s.main.get (F.TAPE_DEC_CODE p.val h.toNat) * 2 ^ 8 + b2n par * 2 ^ 16 + b2n (!s.main.flag (F.TAPE_DEC_VALID p.val h.toNat)) * 2 ^ 17 +
      b2n eob * 2 ^ 18
    let skip := s.main.flag (F.TAPE_DEC_SKIP p.val h.toNat) = true ∧ s.main.flag (F.TAPE_CFG_RAW p.val) = false
    (s.main.get (F.TAPE_CFG_MODE p.val) ≠ 1 → Does (.tapeCharacterCapture p h rdy io) s k) ∧
    (s.main.get (F.TAPE_CFG_MODE p.val) = 1 → par = false ∨ s.main.flag (F.TAPE_CFG_STOPERR p.val) = false →
      (skip → Does (.tapeCharacterCapture p h rdy io) s n) ∧
      (¬ skip → n.unitRx (0x60 + p.val) = none → Does (.tapeCharacterCapture p h rdy io) s (n.bump (F.TAPE_STAT_LOST p.val))) ∧
      (∀ i, ¬ skip → n.unitRx (0x60 + p.val) = some i →
        let r := n.rnUnitWord i word (!s.main.flag (F.TAPE_CFG_BLOCK p.val) || eob) io
        (r.1 = true → Does (.tapeCharacterCapture p h rdy io) s r.2) ∧
        (r.1 = false → Does (.tapeCharacterCapture p h rdy io) s (r.2.bump (F.TAPE_STAT_LOST p.val)))))) ∧
  (∀ h, h < 256 → (parityError false h = true ↔ ones8 h % 2 = 1) ∧ (parityError true h = true ↔ h ≠ 0 ∧ ones8 h % 2 = 0)) ∧
  (∀ (s : State) (p : Fin 2) (io : RnIo) (i : Nat) (o : Opnd) (b1 : _) (b2 : _) (b3 : _) (m : Main),
    let k := s.main.set (F.TAPE_STAT_RUNIN p.val) 1
    s.main.get (F.TAPE_CFG_MODE p.val) = 2 → s.main.flag (F.TAPE_CTL_GO p.val) = true → s.main.flag (F.TAPE_CFG_RUNMODE p.val) = false →
    (s.main.tape p.val).want = false →
    (s.main.tape p.val).holes = none ∨ (∃ h t, (s.main.tape p.val).holes = some (h, t) ∧ t + s.main.tapePace p.val ≤ s.main.now) →
    k.unitTxRn (0x60 + p.val) 0 = some i → k.live (.runnel 0 i) = true → (k.rnSeeCommits 0 i io.lag).rnTake 0 i io.ecc = .word o b1 b2 b3 m →
    let c := o.value.toNat % 256
    (o.typ = tyEmpty → Does (.tapeCharacterSend p true io) s m) ∧
    (o.typ ≠ tyEmpty → m.flag (F.TAPE_CFG_RAW p.val) = false → m.flag (F.TAPE_ENC_VALID p.val c) = true → Does (.tapeCharacterSend p true io) s
      ((m.putTape { m.tape p.val with holes := some (m.get (F.TAPE_ENC_HOLES p.val c), m.now) }).bump (F.TAPE_STAT_CHARS p.val))) ∧
    (o.typ ≠ tyEmpty → m.flag (F.TAPE_CFG_RAW p.val) = false → m.flag (F.TAPE_ENC_VALID p.val c) = false →
      Does (.tapeCharacterSend p true io) s (m.bump (F.TAPE_STAT_BADCHAR p.val)))) ∧
  (∀ (s : State) (p : Fin 2) (run : Bool) (io : RnIo), s.main.get (F.TAPE_CFG_MODE p.val) = 1 →
    Does (.tapeCharacterSend p run io) s (s.main.putTape { s.main.tape p.val with rdy := run })) ∧
  (∀ (s : State) (p : Fin 2) (io : RnIo), s.main.get (F.TAPE_CFG_MODE p.val) ≠ 1 → (s.main.tape p.val).want = false →
    Does (.tapeCharacterSend p false io) s (s.main.set (F.TAPE_STAT_RUNIN p.val) 0) ∧
    (s.main.flag (F.TAPE_CFG_RUNMODE p.val) = true → s.main.flag (F.TAPE_STAT_RUNIN p.val) = true →
      Does (.tapeCharacterSend p true io) s (s.main.set (F.TAPE_STAT_RUNIN p.val) 1)) ∧
    (s.main.flag (F.TAPE_CFG_RUNMODE p.val) = true → s.main.flag (F.TAPE_STAT_RUNIN p.val) = false → s.main.tapeBusy p.val = true →
      Does (.tapeCharacterSend p true io) s ((s.main.set (F.TAPE_STAT_RUNIN p.val) 1).putTape { s.main.tape p.val with want := true }))) ∧
  (∀ (m : Main) (p : Nat), (m.tapeRdy p = some true ↔ m.get (F.TAPE_CFG_MODE p) = 2 ∧ m.flag (F.TAPE_CTL_GO p) = true) ∧
    (m.tapeRdy p = none ↔ m.get (F.TAPE_CFG_MODE p) ≠ 2 ∨ m.flag (F.TAPE_CTL_GO p) = false) ∧
    (m.tapeRun p = none ↔ m.get (F.TAPE_CFG_MODE p) ≠ 1 ∨ m.flag (F.TAPE_CTL_GO p) = false) ∧
    (m.tapeRun p = some true ↔ m.get (F.TAPE_CFG_MODE p) = 1 ∧ m.flag (F.TAPE_CTL_GO p) = true ∧ (m.tape p).rdy = true ∧
      ∃ i, m.unitRx (0x60 + p) = some i ∧ m.rnRoomFor (m.rn 0 i) (m.get (F.TAPE_CFG_STOPMARGIN p)) = true)) ∧
  (∀ (m : Main) (p h t : Nat), (m.tape p).holes = some (h, t) → m.get (F.TAPE_CFG_MODE p) = 2 → m.flag (F.TAPE_CTL_GO p) = true →
    let set_ := 1000 * m.get (F.TAPE_CFG_SETUP p)
    let spw := 1000 * m.get (F.TAPE_CFG_SPW p)
    (m.now < t + set_ + spw → m.tapeHoles p = some (h, decide (t + set_ ≤ m.now))) ∧ (t + set_ + spw ≤ m.now → m.tapeHoles p = some (0, false))) ∧
  (∀ (m : Main) (p : Nat), m.get (F.TAPE_CFG_MODE p) ≠ 2 ∨ m.flag (F.TAPE_CTL_GO p) = false → m.tapeHoles p = none) ∧
  (∀ (s : State) (p : Fin 2), ∃ m, Does (.tapeLoadtab p) s m ∧
    (∀ c, c < 256 → let e := if s.main.flag (F.TAPE_CFG_CODE p.val) then eiaDec c else isoDec c
      m.get (F.TAPE_DEC_CODE p.val c) = bitsOf e 0 8 ∧ m.get (F.TAPE_DEC_SKIP p.val c) = bitsOf e 8 1 ∧ m.get (F.TAPE_DEC_EOB p.val c) = bitsOf e 9 1 ∧
      m.get (F.TAPE_DEC_VALID p.val c) = bitsOf e 10 1))

/-- R410, R412, R413, R416 to R425: Ethernet, wall time, CAN and the UARTs. A received frame or message is discarded and counted, or becomes the packet of R412; one that finds no room is counted and reported. A unit consumes a
packet whose word count does not match its word 0 without effect and counts it. The head frame of the highest class that asks for something is served once the medium is free and any
list that is due is in force; an express frame or a hold cuts a preemptable one, which resumes. A transmit timestamp enters the queue of 16, and a latched
gate control list is adopted at its time. Only contexts 0 and 255 step wall time, and only forward. The CAN error state follows its counters; the offered frame is the eligible one with the lowest ID. A UART's
characters start back to back, after DE's guard. The least fragment, the gap and the mCRC are the model's (log 76), as is what becomes of an FD frame with FD 0 (log 205).
Holds and preemptable frames follow log 245. -/
def Obligations.Networks : Prop :=
  (∀ (s : State) (p : Fin 7) (bs : List (BitVec 8)) (fcs : Bool) (t : Nat) (io : RnIo),
    let x := bs.map BitVec.toNat
    let m := s.main
    let ws := (ethPacket x (t + if p.val ≤ 3 then m.get (F.ETH_LAT_RXLAT p.val) else 0)).map (opnd tyInt)
    let lost := fun (m : Main) => (m.bump (F.ETH_STAT_RXDROP p.val)).event (512 + p.val) 3
    (m.live (.iface p.val) = false → Does (.ethFrameReceive p bs fcs t io) s m) ∧
    (m.live (.iface p.val) = true →
      (fcs = false ∨ bs.length + 4 < 64 ∨ m.get (F.ETH_CFG_MAXLEN p.val) < bs.length + 4 → Does (.ethFrameReceive p bs fcs t io) s (m.bump (F.ETH_STAT_RXERR p.val))) ∧
      (fcs = true → 64 ≤ bs.length + 4 → bs.length + 4 ≤ m.get (F.ETH_CFG_MAXLEN p.val) → m.flag (F.ETH_CFG_PAUSEEN p.val) = true → isPause x = true →
        Does (.ethFrameReceive p bs fcs t io) s (m.putEth { m.eth p.val with pause := m.now + be16 x 16 * 512 * m.ethBit p.val })) ∧
      (fcs = true → 64 ≤ bs.length + 4 → bs.length + 4 ≤ m.get (F.ETH_CFG_MAXLEN p.val) → m.flag (F.ETH_CFG_PAUSEEN p.val) = false ∨ isPause x = false →
        (m.ethTakes p.val (x.take 6) = false → Does (.ethFrameReceive p bs fcs t io) s m) ∧
        (m.ethTakes p.val (x.take 6) = true →
          (m.unitRx p.val = none → Does (.ethFrameReceive p bs fcs t io) s (lost m)) ∧
          (∀ i, m.unitRx p.val = some i →
            ((m.rnUnitCommit i ws io).1 = true → Does (.ethFrameReceive p bs fcs t io) s (m.rnUnitCommit i ws io).2) ∧
            ((m.rnUnitCommit i ws io).1 = false → Does (.ethFrameReceive p bs fcs t io) s (lost (m.rnUnitCommit i ws io).2))))))) ∧
  (∀ (m : Main) (p : Nat) (dst : List Nat), m.flag (F.ETH_CFG_PROMISC p) = true ∨ dst = List.replicate 6 0xFF ∨ packBytes dst = [m.get (F.ETH_MAC_ADDR p)] →
    m.ethTakes p dst = true) ∧
  (∀ (m : Main) (i : Nat) (ws : List Opnd) (io : RnIo), (m.rnUnitCommit i ws io).1 = true → m.live (.runnel 0 i) = true ∧ (m.rn 0 i).occ + ws.length ≤ m.rnCap 0 i) ∧
  (∀ (s : State) (p : Fin 7) (late : Bool) (rd : RnRd), rd.ecc.contains .uncorrectable = false →
    let k := (s.main.unitSees p.val rd.lag).gclDue p.val
    let x := k.eth p.val
    (k.now < x.busy → (x.tx = none → Does (.ethFrameTransmit p late rd) s k) ∧ (∀ t, x.tx = some t → Does (.ethFrameTransmit p late rd) s (k.ethPreempt p.val t late))) ∧
    (x.busy ≤ k.now → k.ethActs p.val late = [] →
      (x.paused = none → Does (.ethFrameTransmit p late rd) s k) ∧
      (∀ t, x.paused = some t → (x.hold = true → Does (.ethFrameTransmit p late rd) s k) ∧
        (x.hold = false → Does (.ethFrameTransmit p late rd) s ((k.putEth { x with paused := none }).ethStart p.val t)))) ∧
    (∀ q i ws a l, x.busy ≤ k.now → k.ethActs p.val late = (q, i, ws, a) :: l → x.paused = none ∨ a ≠ .send ∨ k.preemptable p.val q = false →
      let n := k.unitTake i rd.ecc
      (a = .bad → Does (.ethFrameTransmit p late rd) s (n.bump (F.ETH_STAT_TXERR p.val))) ∧
      (a = .tooLong → Does (.ethFrameTransmit p late rd) s (n.bump (F.ETH_CNT_TOOLONG p.val))) ∧
      (a = .late → Does (.ethFrameTransmit p late rd) s (n.bump (F.ETH_CNT_LATE p.val))) ∧
      (a = .send → Does (.ethFrameTransmit p late rd) s
        (n.ethSend p.val q ws (k.ethLate p.val q i (k.ethDur p.val (bitsOf (ws.getD 0 0) 0 16)) (ws.getD 1 0) late))))) ∧
  (∀ (m : Main) (p : Nat), ((m.eth p).latched = none → m.gating p = false → m.gclDue p = m) ∧
    (∀ g t, (m.eth p).latched = some (g, t) → t ≤ m.now → ((m.gclDue p).eth p).oper = g ∧ ((m.gclDue p).eth p).latched = none)) ∧
  (∀ (m : Main) (p : Nat) (late : Bool), ∀ a ∈ m.ethActs p late, a.2.2.2 ≠ .wait ∧ m.unitTxRn p a.1 = some a.2.1 ∧ m.unitHead a.2.1 = some a.2.2.1 ∧
    ∀ b ∈ m.ethActs p late, (m.ethActs p late).idxOf a < (m.ethActs p late).idxOf b → b.1 < a.1) ∧
  (∀ (m : Main) (p q i : Nat) (ws : List Nat) (late : Bool), m.ethAct p q i ws late = .send →
    let len := bitsOf (ws.getD 0 0) 0 16
    ws.length = 2 + wordsFor len ∧ 14 ≤ len ∧ len + 4 ≤ m.get (F.ETH_CFG_MAXLEN p) ∧ ws.getD 1 0 ≤ m.now ∧ (m.eth p).pause ≤ m.now ∧
    m.ethHeld p q = false ∧ (∀ r, m.gateLeft p q m.now = some r → 0 < r ∧ (m.ethDur p len ≤ r ∨ (m.preemptable p q = true ∧ m.holdAt p m.now = false))) ∧
    (m.ethLate p q i (m.ethDur p len) (ws.getD 1 0) late = false ∨ m.flag (F.ETH_CFG_LATEPOL p) = false)) ∧
  (∀ (m : Main) (p q : Nat), m.ethHeld p q = true ↔ m.preemptable p q = true ∧ (m.eth p).hold = true) ∧
  (∀ (m : Main) (p q dur : Nat), (∀ t, m.gateMax p q = some t → t < dur → m.preemptable p q = false → m.ethTooLong p q dur = true) ∧
    (∀ t, m.gateMax p q = some t → dur ≤ t → m.ethTooLong p q dur = false) ∧ (m.gateMax p q = none → m.ethTooLong p q dur = false)) ∧
  (∀ (m : Main) (p q dur g d : Nat), m.gating p = true → let o := (m.eth p).oper
    (gclSegs o.entries o.cycle)[(o.entryAt m.now).1]? = some (g, d) → bitsOf g q 1 = 0 → m.ethFits p q dur m.now = false) ∧
  (∀ (m : Main) (i launch : Nat) (late : Bool), (m.lateFor i launch late = true → launch ≠ 0 ∧ launch < m.now) ∧
    (∀ x l, (m.rn 0 i).pkts = x :: l → launch ≠ 0 → launch < x.since → launch < m.now → m.lateFor i launch late = true) ∧
    (∀ x l, (m.rn 0 i).pkts = x :: l → x.since ≤ launch → late = false ∨ 1000 * x.at_ + m.commitBound 0 i ≤ 1000 * launch → m.lateFor i launch late = false)) ∧
  (∀ (m : Main) (p q : Nat) (ws : List Nat), bitsOf (ws.getD 0 0) 16 1 = 0 → m.ethSend p q ws false =
    m.putEth { m.eth p with tx := some { ws := ws, cls := q, pre := m.preemptable p q, done := 0, start := m.now }, wire := ws,
                            busy := m.now + (8 + frameBytes ws + 12) * 8 * m.ethBit p }) ∧
  (∀ (m : Main) (p : Nat) (t : EthTx) (late : Bool), let x := m.eth p
    (t.pre = false → m.ethPreempt p t late = m) ∧
    (x.hold = false → (∀ a ∈ m.ethActs p late, a.2.2.2 = .send → m.preemptable p a.1 = true) → m.ethPreempt p t late = m) ∧
    (∀ k, m.ethCut p t = some k → x.hold = true ∨ (∃ a ∈ m.ethActs p late, a.2.2.2 = .send ∧ m.preemptable p a.1 = false) →
      m.ethPreempt p t late = m.putEth { x with tx := none, paused := some { t with done := k }, busy := m.now + 16 * 8 * m.ethBit p })) ∧
  (∀ (m : Main) (p tag t : Nat), (m.eth p).txts.length < 16 →
    m.txtsPush p tag t = (m.putEth { m.eth p with txts := (m.eth p).txts ++ [(tag, t)] }).event (512 + p) (2 + tag % 2 ^ 16 * 2 ^ 16)) ∧
  (∀ (m : Main) (p tag t : Nat), p < 7 → (m.eth p).txts.length = 16 → m.txtsPush p tag t =
    ((m.bump (F.ETH_CNT_TSLOST p)).putEth { m.eth p with txts := (m.eth p).txts.drop 1 ++ [(tag, t)] }).event (512 + p) (2 + tag % 2 ^ 16 * 2 ^ 16)) ∧
  (∀ (s : State) (p : Fin 7),
    Does (.txtsRead p) s (s.main.putEth { s.main.eth p.val with txts := (s.main.eth p.val).txts.drop 1 }) ∧
    (s.main.flag (F.ETH_CFG_GATEEN p.val) = false ∨ (s.main.eth p.val).oper.cycle = 0 → Does (.ethGclEntry p) s
      (((s.main.set (F.ETH_GCLOPER_GATES p.val) 0xFF).set (F.ETH_GCLOPER_INDEX p.val) 0).putEth { s.main.eth p.val with hold := false })) ∧
    (s.main.flag (F.ETH_CFG_GATEEN p.val) = true → (s.main.eth p.val).oper.cycle ≠ 0 →
      let g := (s.main.eth p.val).oper
      let k := (segAt (gclSegs g.entries g.cycle) ((s.main.now - g.base) % g.cycle)).1
      ∀ e, g.entries[k]? = some e → Does (.ethGclEntry p) s
        (((s.main.set (F.ETH_GCLOPER_GATES p.val) e.1).set (F.ETH_GCLOPER_INDEX p.val) k).putEth { s.main.eth p.val with hold := e.2.2 })) ∧
    ((s.main.eth p.val).latched = none → Does (.ethGclAdopt p) s s.main) ∧
    (∀ g t, (s.main.eth p.val).latched = some (g, t) →
      (s.main.now < t → Does (.ethGclAdopt p) s s.main) ∧
      (t ≤ s.main.now → Does (.ethGclAdopt p) s (((s.main.set (F.ETH_GCLCTL_CHG p.val) 0).putEth { s.main.eth p.val with latched := none, oper := g, since := s.main.now }).gclFollow p.val))) ∧
    (∃ g t, Does (.ethGclChange p) s ((s.main.set (F.ETH_GCLCTL_CHG p.val) 1).putEth { s.main.eth p.val with latched := some (g, t) }) ∧
      g.base = s.main.get (F.ETH_GCLBASE_BASE p.val) ∧ g.cycle = s.main.get (F.ETH_GCLCTL_CYCLE p.val) ∧
      g.entries.length = (if s.main.get (F.ETH_GCLCTL_LEN p.val) = 0 then 256 else s.main.get (F.ETH_GCLCTL_LEN p.val)) ∧
      (g.cycle = 0 → t = s.main.now + 1) ∧
      (g.cycle ≠ 0 → ∃ n, t = g.base + n * g.cycle ∧ s.main.now ≤ t ∧ s.main.get (F.ETH_GCLCHG_CHGTIME p.val) ≤ t)) ∧
    (∀ ok, (s.main.flag (F.ETH_CFG_VERIFY p.val) = true → Does (.ethVerifyDone p ok) s ((s.main.set (F.ETH_STAT_VERIFIED p.val) (b2n ok)).event (512 + p.val) 4)) ∧
      (s.main.flag (F.ETH_CFG_VERIFY p.val) = false → Does (.ethVerifyDone p ok) s s.main)) ∧
    (∀ sp, (s.main.flag (F.ETH_STAT_LINK p.val) = true → Does (.ethLinkChange p true sp) s s.main ∧
        Does (.ethLinkChange p false sp) s ((s.main.set (F.ETH_STAT_LINK p.val) 0).event (512 + p.val) 1)) ∧
      (s.main.flag (F.ETH_STAT_LINK p.val) = false → Does (.ethLinkChange p false sp) s s.main ∧
        (ethRateOk p.val sp.toNat = true → Does (.ethLinkChange p true sp) s
          (((s.main.set (F.ETH_STAT_LINK p.val) 1).set (F.ETH_STAT_SPEED p.val) sp.toNat).event (512 + p.val) 1))))) ∧
  (∀ (s : State) (v : Word) (d : BitVec 16),
    let k := (((s.main.set F.ETH_MDIO_PHYAD (bitsOf v.toNat 0 5)).set F.ETH_MDIO_REGAD (bitsOf v.toNat 5 5)).set F.ETH_MDIO_CFT (bitsOf v.toNat 10 1)).set
      F.ETH_MDIO_DATA (bitsOf v.toNat 16 16)
    (s.main.comm.mdio ≠ 0 ∨ bitsOf v.toNat 11 2 = 0 → Does (.mdioFrame (.start v)) s k) ∧
    (s.main.comm.mdio = 0 → bitsOf v.toNat 11 2 ≠ 0 → Does (.mdioFrame (.start v)) s
      { k.set F.ETH_MDIO_BUSY 1 with comm := { k.comm with mdio := bitsOf v.toNat 11 2 } }) ∧
    (let n : Main := { s.main.set F.ETH_MDIO_BUSY 0 with comm := { s.main.comm with mdio := 0 } }
     (s.main.comm.mdio = 2 → Does (.mdioFrame (.done d)) s (n.set F.ETH_MDIO_DATA d.toNat)) ∧
     (s.main.comm.mdio = 1 → Does (.mdioFrame (.done d)) s n))) ∧
  (∀ (s : State) (p : Path) (v : Word), s.main.asleep = false →
    (p ≠ .ctx0 → p ≠ .ctx255 → Does (.timeStepWrite p v) s ((s.main.touch p).extAnswer p (if 2 ≤ s.main.pathLevel p then 0 else 2) [])) ∧
    (p = .ctx0 ∨ p = .ctx255 →
      (v.toInt ≤ 0 → Does (.timeStepWrite p v) s ((s.main.set F.TIME_STAT_STEPREF 1).extAnswer p 0 [])) ∧
      (0 < v.toInt → Does (.timeStepWrite p v) s (Main.extAnswer { s.main with wall := { s.main.wall with ns := s.main.wall.ns + v.toNat } } p 0 [])))) ∧
  (∀ (s : State), (s.main.wall.ns / 1000000000 ≤ s.main.wall.sec → Does .wholeSecond s s.main) ∧
    (s.main.wall.sec < s.main.wall.ns / 1000000000 →
      Does .wholeSecond s (Main.event { s.main with wall := { s.main.wall with sec := s.main.wall.sec + 1 } } 545 (s.main.wall.sec + 1)))) ∧
  (∀ (s : State) (c : Fin 4) (f : CanFrame) (sof : Nat) (io : RnIo), s.main.live (.iface (0x10 + c.val)) = true → s.main.get (F.CAN_CFG_MODE c.val) ≠ 0 →
    s.main.get (F.CAN_STAT_STATE c.val) ≠ 2 →
    let own := s.main.flag (F.CAN_CFG_SELFRX c.val)
    let ws := (canWord f :: sof :: packBytes ((f.data.take 64).map BitVec.toNat)).map (opnd tyInt)
    let takes := fun (m : Main) => m.canAccepts c.val f = true ∧ (f.fdf = true → m.flag (F.CAN_CFG_FD c.val) = true)
    (own = false → Does (.canFrameReceive c (.frame f true) sof io) s s.main) ∧
    (own = true → ¬ takes s.main → Does (.canFrameReceive c (.frame f true) sof io) s s.main) ∧
    (∀ i, own = true → takes s.main → s.main.unitRx (0x10 + c.val) = some i →
      ((s.main.rnUnitCommit i ws io).1 = true → Does (.canFrameReceive c (.frame f true) sof io) s (s.main.rnUnitCommit i ws io).2) ∧
      ((s.main.rnUnitCommit i ws io).1 = false → let k := (s.main.rnUnitCommit i ws io).2.bump (F.CAN_STAT_RXDROP c.val)
        Does (.canFrameReceive c (.frame f true) sof io) s (k.event (520 + c.val) (2 + k.get (F.CAN_STAT_STATE c.val) * 16)))) ∧
    Does (.canFrameReceive c .error sof io) s (s.main.canCounts c.val (s.main.get (F.CAN_STAT_REC c.val) + 1) (s.main.get (F.CAN_STAT_TEC c.val))) ∧
    (∀ k : Main, k = s.main.canCounts c.val (s.main.get (F.CAN_STAT_REC c.val) - 1) (s.main.get (F.CAN_STAT_TEC c.val)) →
      s.main.get (F.CAN_STAT_REC c.val) ≤ 127 →
      (¬ takes k → Does (.canFrameReceive c (.frame f false) sof io) s k) ∧
      (∀ i, takes k → k.unitRx (0x10 + c.val) = some i → (k.rnUnitCommit i ws io).1 = true →
        Does (.canFrameReceive c (.frame f false) sof io) s (k.rnUnitCommit i ws io).2))) ∧
  (∀ (m : Main) (c : Nat) (f : CanFrame), (∀ k, k < 32 → m.flag (F.CAN_FLT_EN c k) = false) → m.canAccepts c f = true) ∧
  (∀ (m : Main) (c rec_ tec : Nat), c < 4 → let k := m.canCounts c rec_ tec
    (255 < tec → k.get (F.CAN_STAT_STATE c) = 2) ∧ (tec ≤ 255 → 127 < tec ∨ 127 < rec_ → k.get (F.CAN_STAT_STATE c) = 1) ∧
    (tec ≤ 127 → rec_ ≤ 127 → k.get (F.CAN_STAT_STATE c) = 0)) ∧
  (∀ (s : State) (c : Fin 4) (late : Bool) (rd : RnRd) (i : Nat) (ws : List Nat), s.main.get (F.CAN_CFG_MODE c.val) = 1 ∨ s.main.get (F.CAN_CFG_MODE c.val) = 3 →
    s.main.get (F.CAN_STAT_STATE c.val) ≠ 2 → (s.main.unitSees (0x10 + c.val) rd.lag).canPick c.val = some (i, ws) → rd.ecc.contains .uncorrectable = false → ws ≠ [] →
    let m := s.main.unitSees (0x10 + c.val) rd.lag
    let k := m.unitTake i rd.ecc
    let r := s.main.get (F.CAN_STAT_REC c.val)
    let t := s.main.get (F.CAN_STAT_TEC c.val)
    let well := canWellFormed (s.main.flag (F.CAN_CFG_FD c.val)) ws
    let late_ := m.lateFor i (ws.getD 1 0) late
    (∀ res, well = false → Does (.canFrameTransmit c res late rd) s (k.bump (F.CAN_STAT_TXERR c.val))) ∧
    (∀ res, well = true → late_ = true → s.main.flag (F.CAN_CFG_LATEPOL c.val) = true → Does (.canFrameTransmit c res late rd) s k) ∧
    (well = true → late_ = false ∨ s.main.flag (F.CAN_CFG_LATEPOL c.val) = false →
      Does (.canFrameTransmit c .sent late rd) s ((k.putCan { m.can c.val with wire := ws }).canCounts c.val r (t - 1)) ∧
      (s.main.flag (F.CAN_CFG_ONESHOT c.val) = false → Does (.canFrameTransmit c .lost late rd) s m) ∧
      (s.main.flag (F.CAN_CFG_ONESHOT c.val) = true → Does (.canFrameTransmit c .lost late rd) s k) ∧
      (s.main.flag (F.CAN_CFG_ONESHOT c.val) = false → let n := m.canCounts c.val r (t + 8)
        Does (.canFrameTransmit c .error late rd) s (n.event (520 + c.val) (3 + n.get (F.CAN_STAT_STATE c.val) * 16))))) ∧
  (∀ (m : Main) (c i : Nat) (ws : List Nat), m.canPick c = some (i, ws) → canWellFormed (m.flag (F.CAN_CFG_FD c)) ws = true →
    ws.getD 1 0 ≤ m.now ∧ ∀ k j ws', k < 4 → m.unitTxRn (0x10 + c) k = some j → m.unitHead j = some ws' → ws'.getD 1 0 ≤ m.now →
      ws.getD 0 0 % 2 ^ 29 ≤ ws'.getD 0 0 % 2 ^ 29) ∧
  (∀ ws : List Nat, bitsOf (ws.getD 0 0) 31 1 = 1 → canWellFormed false ws = false) ∧
  (∀ (s : State) (c : Fin 4), s.main.get (F.CAN_STAT_STATE c.val) = 2 →
    (s.main.flag (F.CAN_CFG_AUTOREC c.val) = true → Does (.canBusOffRecovery c) s (s.main.canCounts c.val 0 0)) ∧
    (s.main.flag (F.CAN_CFG_AUTOREC c.val) = false → Does (.canBusOffRecovery c) s s.main)) ∧
  (∀ (m : Main) (n t : Nat), (m.get (F.UART_MSG_IDLE n) = 0 → m.uartIdle n t = false) ∧
    (m.get (F.UART_MSG_IDLE n) ≠ 0 → (m.uartIdle n t = true ↔ (m.uart n).last + m.uartBits n (m.get (F.UART_MSG_IDLE n)) ≤ t))) ∧
  (∀ (s : State) (e : MsgEnd), let n := e.n
    let x := s.main.uart n.val
    let idle := s.main.uartIdle n.val s.main.now
    let done : UartSt := { x with bytes := [], count := 0, flags := 0, dropping := false, bound := 0 }
    (x.count = 0 ∨ (x.bound = 0 ∧ idle = false) → Does (.uartMessageEnd e) s s.main) ∧
    (x.count ≠ 0 → x.bound ≠ 0 ∨ idle = true → x.dropping = true → Does (.uartMessageEnd e) s (s.main.putUart done)) ∧
    (∀ i, x.count ≠ 0 → x.bound ≠ 0 ∨ idle = true → x.dropping = false → s.main.unitRx (0x20 + n.val) = some i →
      Does (.uartMessageEnd e) s ((s.main.rnUnitClose i (uartPacket x (x.bound - 1)) e.ecc).putUart done))) ∧
  (∀ (s : State) (n : Fin 16) (ch : BitVec 8) (t : Nat) (io : RnIo) (i : Nat), s.main.live (.iface (0x20 + n.val)) = true → s.main.get (F.UART_CFG_LINE n.val) ≠ 2 →
    let x := s.main.uart n.val
    x.bound = 0 → x.count = 0 ∨ s.main.uartIdle n.val t = false → x.dropping = false → s.main.unitRx (0x20 + n.val) = some i →
    let b := ch.toNat % if s.main.flag (F.UART_CFG_SEVEN n.val) then 128 else 256
    let bound := if s.main.flag (F.UART_MSG_DELEN n.val) = true ∧ b = s.main.get (F.UART_MSG_DELIM n.val) then 2
      else if Nat.max 1 (s.main.get (F.UART_MSG_MAXLEN n.val)) ≤ x.count + 1 then 3 else 0
    let y : UartSt := { x with first := if x.count = 0 then t else x.first, count := x.count + 1, bytes := x.bytes ++ [b], bound := bound, last := t + s.main.uartBits n.val (s.main.uartChar n.val) }
    let r := s.main.rnUnitHold i (uartPacket y 0) io
    (r.1 = true → Does (.uartCharacterReceive n ch false false false t io) s (r.2.putUart y)) ∧
    (r.1 = false → Does (.uartCharacterReceive n ch false false false t io) s
      ((((r.2.rnUnitCancel i).bump (F.UART_STAT_DROPS n.val)).event (528 + n.val) 2).putUart { y with bytes := [], dropping := true }))) ∧
  (∀ (s : State) (n : Fin 16) (waits : List Nat) (late : Bool) (rd : RnRd) (i : Nat) (ws : List Nat), s.main.unitTxRn (0x20 + n.val) 0 = some i →
    (s.main.unitSees (0x20 + n.val) rd.lag).unitHead i = some ws → rd.ecc.contains .uncorrectable = false → ws ≠ [] →
    let m := s.main.unitSees (0x20 + n.val) rd.lag
    let x := s.main.uart n.val
    let len := bitsOf (ws.getD 0 0) 0 16
    let launch := ws.getD 1 0
    let lead := s.main.uartLead n.val
    let line := s.main.get (F.UART_CFG_LINE n.val)
    let c := s.main.uartBits n.val (s.main.uartChar n.val)
    let k := m.unitTake i rd.ecc
    let bytes := (unpackBytes (ws.drop 2) len).map (fun b => b % if s.main.flag (F.UART_CFG_SEVEN n.val) then 128 else 256)
    (s.main.now < x.txEnd → Does (.uartTransmit n waits late rd) s m) ∧
    (x.txEnd ≤ s.main.now → ws.length ≠ 2 + wordsFor len → Does (.uartTransmit n waits late rd) s (k.bump (F.UART_STAT_TXERR n.val))) ∧
    (x.txEnd ≤ s.main.now → ws.length = 2 + wordsFor len →
      (s.main.now + lead < launch → Does (.uartTransmit n waits late rd) s m) ∧
      (launch ≤ s.main.now + lead → m.lateFor i launch late = true → s.main.flag (F.UART_CFG_LATEPOL n.val) = true → Does (.uartTransmit n waits late rd) s k) ∧
      (launch ≤ s.main.now + lead → m.lateFor i launch late = false ∨ s.main.flag (F.UART_CFG_LATEPOL n.val) = false →
        let t := s.main.now + lead
        (line = 0 → Does (.uartTransmit n waits late rd) s
          (k.putUart { x with starts := (List.range len).map (fun j => t + j * c), txEnd := t + len * c, wire := bytes })) ∧
        (line = 2 → len ≠ 0 → Does (.uartTransmit n waits late rd) s
          (k.putUart { x with starts := (List.range len).map (fun j => t + j * c), txEnd := t + len * c, deEnd := t + len * c + lead, wire := bytes })) ∧
        (∀ w l, line = 1 → len = 1 → waits = w :: l → Does (.uartTransmit n waits late rd) s
          (k.putUart { x with starts := [t + w], txEnd := t + w + c, wire := bytes }))))) ∧
  (∀ (m : Main) (n : Nat), (m.get (F.UART_CFG_LINE n) ≠ 2 → m.uartLead n = 0) ∧ (m.get (F.UART_CFG_LINE n) = 2 → m.uartLead n = m.uartBits n (m.get (F.UART_MSG_DEG n))))

/-- R4, R13, R256, R413, R414, R426 to R432, R552: the host, USB, storage and the service paths. A read of a register that its path may read answers OK with its value and what R13 says a read changes; one that it may not read, NAK_DENIED; a
write likewise. While the field die's core clock is stopped none of this is performed (the model's reading, log 207). A disabled window answers UR. A service command is answered on its path with the status of its access. An access that waits is held in its order (R261). A ring entry, a transfer or a storage command is taken only where the runnels have what it
needs, and is answered as R427 to R429 say.
The form of an access to instruction memory is the model's (log 241). -/
def Obligations.HostAndService : Prop :=
  (∀ (s : State) (p : Path) (pa : BitVec 40) (a : RegAt), let m := s.main.touch p
    s.main.asleep = false → m.regAt pa.toNat = some a → pa.toNat % 8 = 0 →
    (m.mayRead p a.row.name = true → s.main.regsReach pa.toNat = true →
      Does (.readClearAccess p pa) s (((m.regRead a pa.toNat).2.unhold (.outside p)).extAnswer p 0 (leBytes 8 (m.regRead a pa.toNat).1))) ∧
    (m.mayRead p a.row.name = false → p ≠ .ctx0 → p ≠ .ctx255 → Does (.readClearAccess p pa) s ((m.unhold (.outside p)).extAnswer p 2 []))) ∧
  (∀ (s : State) (p : Path) (pa : BitVec 40) (v : Word) (a : RegAt), let m := s.main.touch p
    s.main.asleep = false → m.regAt pa.toNat = some a → pa.toNat % 8 = 0 → a.row.name ≠ .TIME_RATE → a.row.name ≠ .TIME_STEP → a.row.name ≠ .TIME_STAT →
    (m.mayWrite p a.row.name v.toNat = true → s.main.regsReach pa.toNat = true →
      Does (.registerWrite p pa v) s (((m.regWrite false p a pa.toNat v.toNat).unhold (.outside p)).extAnswer p 0 [])) ∧
    (m.mayWrite p a.row.name v.toNat = false → p ≠ .ctx0 → p ≠ .ctx255 → Does (.registerWrite p pa v) s ((m.unhold (.outside p)).extAnswer p 2 []))) ∧
  (∀ (m : Main) (f : Fld) (v i : Nat), m.plainField f .ro v = m ∧ m.plainField f .rw v = m.set f (bitsOf v f.lo f.w) ∧
    (m.get f < 2 ^ f.w → f.w ≤ 64 → i < f.w →
      bitsOf ((m.plainField f .w1c v).get f) i 1 = if bitsOf v (f.lo + i) 1 = 1 then 0 else bitsOf (m.get f) i 1)) ∧
  (∀ (s : State) (d t : Fin 8) (halt : Bool), s.main.asleep = false → s.main.pathLevel .debug < 3 →
    Does (.haltAndResumeOfDispatch d t halt) s ((s.main.touch .debug).extAnswer .debug 2 [])) ∧
  (∀ (s : State) (slot : BitVec 21) (kind w : Fin 4) (wr : Option Word) (waits : Bool), s.main.asleep = false → let m := s.main.touch .debug
    let c := Instr.hostWindowAccess (.imem slot kind) w ⟨wr, waits⟩
    (m.pathLevel .debug < 3 → Does c s (m.extAnswer .debug 2 [])) ∧
    (3 ≤ m.pathLevel .debug → ∀ d t i, locator slot.toNat = some (d, t, i) → m.compute d = true → m.dieLive d = true →
      (wr = none → let x := m.slot (fin8 d) (fin8 t) i
        Does c s (m.extAnswer .debug 0 (leBytes 8 x.2.toNat ++ [x.1.code]))) ∧
      (∀ v, wr = some v → Does c s ((m.setSlot (fin8 d) (fin8 t) i (slotKindOf kind.val) v).extAnswer .debug 0 [])))) ∧
  (∀ (s : State) (d t : Fin 8) (halt : Bool), 3 ≤ s.main.pathLevel .debug → s.main.mode = 9 → s.main.compute d.val = true →
    let k := s.main.touch .debug
    let rest := s.main.tuft.halted.filter (fun x => x != 8 * d.val + t.val)
    Does (.haltAndResumeOfDispatch d t halt) s { k with tuft := { k.tuft with halted := if halt then rest ++ [8 * d.val + t.val] else rest } }) ∧
  (∀ (s : State) (p : Path) (pa : BitVec 40) (v : Word) (w : Fin 4) (wr : Option Word) (pec : Pec) (waits : Bool), s.main.asleep = true →
    Does (.readClearAccess p pa) s s.main ∧ Does (.registerWrite p pa v) s s.main ∧ Does (.hostWindowAccess (.path p pa) w ⟨wr, waits⟩) s s.main ∧
    Does (.svcRead p pa ⟨pec, waits⟩) s s.main ∧ Does (.svcWrite p pa v ⟨pec, waits⟩) s s.main ∧ Does (.svcMode p pec) s s.main) ∧
  (∀ (s : State) (off : BitVec 30) (w : Fin 4) (v : Option Word) (waits : Bool),
    (s.main.flag (F.PCIE_WIN_EN (off.toNat / 2 ^ 27)) = false → Does (.hostWindowAccess (.bar2 off) w ⟨v, waits⟩) s (s.main.extAnswer .host 1 [])) ∧
    (s.main.flag (F.PCIE_WIN_EN (off.toNat / 2 ^ 27)) = true → Does (.hostWindowAccess (.bar2 off) w ⟨v, waits⟩) s
      (s.main.extDo .host (s.main.get (F.PCIE_WIN_BASE (off.toNat / 2 ^ 27)) * 2 ^ 27 + off.toNat % 2 ^ 27) (2 ^ w.val) (v.map BitVec.toNat) waits))) ∧
  (∀ (s : State) (p : Path) (pa : BitVec 40) (w : Fin 4) (v : Option Word) (waits : Bool), p ≠ .ctx0 → p ≠ .ctx255 →
    Does (.hostWindowAccess (.path p pa) w ⟨v, waits⟩) s (s.main.extDo p pa.toNat (2 ^ w.val) (v.map BitVec.toNat) waits)) ∧
  (∀ (m : Main) (p : Path) (pa n x : Nat) (waits : Bool) (k : Main), let t := m.touch p
    m.asleep = false → isRegs pa = false → t.memOpen p pa false = true → aligned pa n (aliasOf pa) = true →
    let id : AccId := { ctx := 256, die := 0, flume := none, external := true, debug := decide (3 ≤ t.pathLevel p) }
    (t.gate id pa false = .wait ∨ (t.gate id pa false = .go ∧ t.heldAhead pa (.outside p) = true) → m.extDo p pa n none waits = m.waitAt pa (.outside p)) ∧
    (t.gate id pa false = .go → t.heldAhead pa (.outside p) = false →
      (t.extOwned pa false = false → (t.portWait pa waits).loadPhys id pa n = (.ok x, k) →
        m.extDo p pa n none waits = (k.unhold (.outside p)).extAnswer p 0 (leBytes n x)) ∧
      (t.extOwned pa false = true → m.extDo p pa n none waits = ((t.countGate id pa 0x44).unhold (.outside p)).extAnswer p 4 []))) ∧
  (∀ (m : Main) (p : Path) (pa n : Nat) (v : Option Nat) (waits : Bool), m.asleep = false → isRegs pa = false → (m.touch p).memOpen p pa v.isSome = false →
    m.extDo p pa n v waits = ((m.touch p).unhold (.outside p)).extAnswer p 2 []) ∧
  (∀ (s : State) (p : Path) (pa : BitVec 40) (v : Word) (pec : Pec) (waits : Bool), p = .i2c ∨ p = .usb ∨ p = .debug → s.main.asleep = false →
    (s.main.pecBad p pec = true → Does (.svcRead p pa ⟨pec, waits⟩) s (s.main.secAnswer p 0x10 6 []) ∧
      Does (.svcWrite p pa v ⟨pec, waits⟩) s (s.main.secAnswer p 0x11 6 []) ∧ Does (.svcMode p pec) s (s.main.secAnswer p 0x12 6 [])) ∧
    (s.main.pecBad p pec = false →
      (∀ st data m, s.main.extAccess p pa.toNat 8 none waits = .done st data m → Does (.svcRead p pa ⟨pec, waits⟩) s ((m.unhold (.outside p)).secAnswer p 0x10 st data)) ∧
      (s.main.extAccess p pa.toNat 8 none waits = .wait → Does (.svcRead p pa ⟨pec, waits⟩) s (s.main.waitAt pa.toNat (.outside p))) ∧
      (∀ st data m, s.main.extAccess p pa.toNat 8 (some v.toNat) waits = .done st data m → Does (.svcWrite p pa v ⟨pec, waits⟩) s ((m.unhold (.outside p)).secAnswer p 0x11 st data)) ∧
      (s.main.extAccess p pa.toNat 8 (some v.toNat) waits = .wait → Does (.svcWrite p pa v ⟨pec, waits⟩) s (s.main.waitAt pa.toNat (.outside p))) ∧
      Does (.svcMode p pec) s ((s.main.touch p).secAnswer p 0x12 0 s.main.modeBytes))) ∧
  (∀ (m : Main) (code st : Nat) (data : List Nat),
    let c := (m.bump F.SVC_STAT_CMDS).event 978 code
    let k := if st = 0 then c else c.bump F.SVC_STAT_NAKS
    m.secAnswer .i2c code st data = { k with comm := { k.comm with svc := st :: data } }) ∧
  (∀ (m : Main) (pec : Pec), m.pecBad .i2c pec = true ↔ pec = .bad ∨ (pec = .none ∧ m.flag F.SVC_CFG_PECREQ = true)) ∧
  (∀ (s : State), (s.main.flag F.MODE_STBY_SVCEN = true → s.main.sys.back.isSome = true → s.main.sys.waking = false →
      Does .svcAddressWake s (Main.standbyWake
        { s.main.set F.SVC_STAT_WOKE 1 with comm := { (s.main.set F.SVC_STAT_WOKE 1).comm with svcAck := !s.main.flag F.SVC_CFG_WAKENAK } } 1)) ∧
    (s.main.sys.back = none → Does .svcAddressWake s s.main)) ∧
  (∀ (s : State) (v : Word), s.main.asleep = false →
    Does (.pcieDoorbell v) s (((s.main.touch .host).event (960 + v.toNat % 16) (bitsOf v.toNat 32 32)).extAnswer .host 0 [])) ∧
  (∀ (s : State) (sp w : BitVec 3),
    (sp = 0 ∨ 4 < sp.toNat ∨ (w ≠ 1 ∧ w ≠ 2 ∧ w ≠ 4) → Does (.pcieLinkEvent (.up sp w)) s s.main) ∧
    (0 < sp.toNat → sp.toNat ≤ 4 → w = 1 ∨ w = 2 ∨ w = 4 → Does (.pcieLinkEvent (.up sp w)) s ((((s.main.set F.PCIE_LINK_UP 1).set F.PCIE_LINK_SPEED sp.toNat).set F.PCIE_LINK_WIDTH w.toNat).event 976 1)) ∧
    Does (.pcieLinkEvent .down) s (((((s.main.set F.PCIE_LINK_UP 0).set F.PCIE_LINK_SPEED 0).set F.PCIE_LINK_WIDTH 0).event 976 2).sessionEnd 0) ∧
    Does (.pcieLinkEvent .perst) s (s.main.event 976 3)) ∧
  (∀ (s : State) (c : Fin 8) (e : RingEnt) (io : RnIo),
    let size := ringSize (s.main.get (F.PCIE_CH_HTDCTL_LOGSIZE c.val))
    let head := s.main.get (F.PCIE_CH_HTDCTL_HEAD c.val) % size
    let done := fun (m : Main) (err : Bool) => (m.set (F.PCIE_CH_HTDCTL_HEAD c.val) ((head + 1) % size)).ringDone (m.get (F.PCIE_CH_HTD_RING c.val) + 16 * head) { e with dev := false, err := err }
      (s.main.flag (F.PCIE_CH_HTDCTL_IRQ c.val)) c.val
    (head = s.main.get (F.PCIE_CH_HTDCTL_TAIL c.val) % size ∨ e.dev = false → Does (.htdEntry c e io) s s.main) ∧
    (s.main.live (.iface (0x30 + c.val)) = true → head ≠ s.main.get (F.PCIE_CH_HTDCTL_TAIL c.val) % size → e.dev = true →
      (e.len.toNat < e.words.toNat * 8 → Does (.htdEntry c e io) s (done s.main true)) ∧
      (∀ i, e.words.toNat * 8 ≤ e.len.toNat → s.main.unitRx (0x30 + c.val) = some i →
        let r := s.main.rnUnitCommit i (if e.words.toNat = 0 then [emptyPkt] else (e.data.take e.words.toNat).map (fun w => opnd tyInt w.toNat)) io
        (r.1 = true → Does (.htdEntry c e io) s (done r.2 false)) ∧ (r.1 = false → Does (.htdEntry c e io) s r.2)))) ∧
  (∀ (s : State) (c : Fin 8) (e : RingEnt) (rd : RnRd) (i : Nat) (ws : List Nat), s.main.unitTxRn (0x30 + c.val) 0 = some i →
    (s.main.unitSees (0x30 + c.val) rd.lag).unitHead i = some ws → rd.ecc.contains .uncorrectable = false →
    let m := s.main.unitSees (0x30 + c.val) rd.lag
    let size := ringSize (s.main.get (F.PCIE_CH_DTHCTL_LOGSIZE c.val))
    let head := s.main.get (F.PCIE_CH_DTHCTL_HEAD c.val) % size
    let pa := s.main.get (F.PCIE_CH_DTH_RING c.val) + 16 * head
    let k := (m.unitTake i rd.ecc).set (F.PCIE_CH_DTHCTL_HEAD c.val) ((head + 1) % size)
    let irq := s.main.flag (F.PCIE_CH_DTHCTL_IRQ c.val)
    (head = s.main.get (F.PCIE_CH_DTHCTL_TAIL c.val) % size ∨ e.dev = false → Does (.dthEntry c e rd) s m) ∧
    (head ≠ s.main.get (F.PCIE_CH_DTHCTL_TAIL c.val) % size → e.dev = true → 8 * ws.length ≤ e.len.toNat → Does (.dthEntry c e rd) s
      (k.ringDone pa { e with dev := false, err := false, words := BitVec.ofNat 16 ws.length, data := ws.map w64 } irq c.val)) ∧
    (head ≠ s.main.get (F.PCIE_CH_DTHCTL_TAIL c.val) % size → e.dev = true → e.len.toNat < 8 * ws.length → e.len.toNat % 8 = 0 → Does (.dthEntry c e rd) s
      (k.ringDone pa { e with dev := false, err := true, words := BitVec.ofNat 16 (e.len.toNat / 8), data := (ws.take (e.len.toNat / 8)).map w64 } irq c.val))) ∧
  (∀ (m : Main) (pa : Nat) (e : RingEnt) (irq : Bool) (c : Nat), (m.ringDone pa e irq c).comm.ring = some (pa, e) ∧
    (m.ringDone pa e irq c).comm.vector = (if irq then some c else m.comm.vector)) ∧
  (∀ (s : State) (p : Path) (v : Word), s.main.asleep = false →
    (p = .ctx0 ∨ p = .ctx255 → 8 ≤ v.toNat % 64 → Does (.msixWrite p v) s (Main.extAnswer { s.main with comm := { s.main.comm with vector := some (v.toNat % 64) } } p 0 [])) ∧
    ((p ≠ .ctx0 ∧ p ≠ .ctx255) ∨ v.toNat % 64 < 8 →
      Does (.msixWrite p v) s ((s.main.touch p).extAnswer p (if 2 ≤ s.main.pathLevel p ∨ p = .host then 0 else 2) []))) ∧
  (∀ (s : State) (k : Fin 2) (bs : List (BitVec 8)) (io : RnIo) (i : Nat), s.main.get F.USB_STAT_STATE = 3 → s.main.unitRx (0x38 + k.val) = some i →
    let r := s.main.rnUnitCommit i ((bs.length :: packBytes (bs.map BitVec.toNat)).map (opnd tyInt)) io
    (r.1 = true → Does (.usbOutTransfer k bs io) s r.2) ∧ (r.1 = false → Does (.usbOutTransfer k bs io) s s.main)) ∧
  (∀ (s : State) (k : Fin 2) (rd : RnRd) (i : Nat) (ws : List Nat), s.main.get F.USB_STAT_STATE = 3 → s.main.unitTxRn (0x38 + k.val) 0 = some i →
    (s.main.unitSees (0x38 + k.val) rd.lag).unitHead i = some ws → rd.ecc.contains .uncorrectable = false →
    let n := (s.main.unitSees (0x38 + k.val) rd.lag).unitTake i rd.ecc
    let len := bitsOf (ws.getD 0 0) 0 32
    (ws ≠ [] → ws.length = 1 + wordsFor len →
      Does (.usbInTransfer k rd) s { n with comm := { n.comm with usb := n.comm.usb.set k.val (unpackBytes (ws.drop 1) len) } }) ∧
    (ws.length ≠ 1 + wordsFor len → Does (.usbInTransfer k rd) s n)) ∧
  (∀ (s : State) (hs : Bool) (a : BitVec 7), let st := s.main.get F.USB_STAT_STATE
    Does (.usbBusEvent (.vbus true)) s (s.main.set F.USB_STAT_VBUS 1) ∧
    (st = 0 → s.main.flag F.USB_CFG_CONNECT = true → s.main.flag F.USB_STAT_VBUS = true → Does (.usbBusEvent (.attach hs)) s
      (((s.main.set F.USB_STAT_STATE 1).set F.USB_STAT_HS (b2n (hs && s.main.flag F.USB_CFG_HSEN))).event 977 1)) ∧
    (st ≠ 0 → a ≠ 0 → Does (.usbBusEvent (.address a)) s ((s.main.set F.USB_STAT_ADDR a.toNat).set F.USB_STAT_STATE 2)) ∧
    (st = 2 → Does (.usbBusEvent .configured) s ((s.main.set F.USB_STAT_STATE 3).event 977 2)) ∧
    (st ≠ 0 → Does (.usbBusEvent .suspend) s (s.main.event 977 3)) ∧
    (st ≠ 0 → Does (.usbBusEvent .detach) s ((((((s.main.set F.USB_STAT_STATE 0).set F.USB_STAT_HS 0).set F.USB_STAT_ADDR 0).event 977 4).sessionEnd 1)))) ∧
  (∀ (s : State) (u : Fin 2) (rd : RnRd) (i : Nat) (ws : List Nat), s.main.unitTxRn (0x40 + u.val) 0 = some i →
    (s.main.unitSees (0x40 + u.val) rd.lag).unitHead i = some ws → rd.ecc.contains .uncorrectable = false →
    let m := s.main.unitSees (0x40 + u.val) rd.lag
    let x := s.main.stor u.val
    let k := m.unitTake i rd.ecc
    let w := fun j => ws.getD j 0
    let op := bitsOf (w 0) 0 4
    let tag := bitsOf (w 0) 32 32
    let cm : StorCmd := { op := op, part := bitsOf (w 0) 4 4, tag := tag, dev := w 1, pa := w 2, len := w 3 }
    (x.cmd.isSome = true ∨ x.done.isSome = true → Does (.storageCommand u rd) s m) ∧
    (x.cmd = none → x.done = none → ws ≠ [] →
      (ws.length ≠ 4 ∨ op = 0 ∨ 4 < op → Does (.storageCommand u rd) s (k.putStor { x with done := some (3 + tag * 2 ^ 32) })) ∧
      (ws.length = 4 → 0 < op → op ≤ 4 → w 2 < 2 ^ 40 → u.val = 1 ∨ w 3 % 512 = 0 →
        (op ≤ 2 → storAddrOk (w 2) (w 3) = false → Does (.storageCommand u rd) s (k.putStor { x with done := some (2 + tag * 2 ^ 32) })) ∧
        (2 < op ∨ storAddrOk (w 2) (w 3) = true → Does (.storageCommand u rd) s (k.putStor { x with cmd := some cm }))))) ∧
  (∀ (s : State) (u : Fin 2) (ev : StorEv) (io : RnIo) (c : StorCmd),
    Does (.storageCompletion u .card io) s (s.main.event (546 + u.val) 2) ∧
    ((s.main.stor u.val).cmd = some c → let m := s.main.event (546 + u.val) 1
      Does (.storageCompletion u .error io) s ((m.putStor { m.stor u.val with cmd := none, done := some (1 + c.tag * 2 ^ 32) }).storAnswer u.val io)) ∧
    (∀ m, ev ≠ .card → (s.main.stor u.val).cmd = some c → s.main.storFinish u.val c ev = (none, m) → Does (.storageCompletion u ev io) s m) ∧
    (∀ r m, ev ≠ .card → (s.main.stor u.val).cmd = some c → s.main.storFinish u.val c ev = (some r, m) → Does (.storageCompletion u ev io) s
      ((m.putStor { m.stor u.val with cmd := none, done := some (r + c.tag * 2 ^ 32) }).storAnswer u.val io))) ∧
  (∀ (s : State) (v : Word) (r : BitVec 3) (d : BitVec 16),
    (s.main.flag F.PMB_CMD_GO = true → Does (.pmbusCommand (.start v)) s s.main) ∧
    (s.main.flag F.PMB_CMD_GO = false → Does (.pmbusCommand (.start v)) s
      (((((s.main.set F.PMB_CMD_CODE (bitsOf v.toNat 0 8)).set F.PMB_CMD_RAIL (bitsOf v.toNat 8 4)).set F.PMB_CMD_OP (bitsOf v.toNat 12 2)).set
        F.PMB_CMD_DATA (bitsOf v.toNat 16 16)).set F.PMB_CMD_GO (bitsOf v.toNat 32 1))) ∧
    (s.main.flag F.PMB_CMD_GO = true → s.main.railChanges = true → Does (.pmbusCommand (.done r d)) s s.main) ∧
    (s.main.flag F.PMB_CMD_GO = true → s.main.railChanges = false →
      let k := (s.main.set F.PMB_CMD_RESULT r.toNat).set F.PMB_CMD_GO 0
      (s.main.get F.PMB_CMD_OP < 2 → Does (.pmbusCommand (.done r d)) s k) ∧
      (s.main.get F.PMB_CMD_OP = 3 → Does (.pmbusCommand (.done r d)) s (k.set F.PMB_CMD_DATA d.toNat)))) ∧
  (∀ (s : State) (a : BitVec 7) (k : Nat), (List.range 16).filter (fun k => s.main.flag (F.PMB_RAIL_EN k) && s.main.get (F.PMB_RAIL_ADDR k) == a.toNat) = [k] →
    let w := s.main.get F.PMB_ALERT_RAILS
    bitsOf w k 1 = 0 → let x := (s.main.set F.PMB_ALERT_RAILS (w + 2 ^ k)).railFeeds k
    let n := x.2.raiseSrc 38 0 x.1 k
    Does (.pmbusAlert a) s (n.event 959 (n.get F.PMB_ALERT_RAILS))) ∧
  (∀ (m : Main) (k d : Nat), m.get (F.PMB_RAIL_KIND k) = d → (1 ≤ d → d ≤ 5 → m.railFeeds k = (d, m)) ∧ (d ≠ 7 → ¬(1 ≤ d ∧ d ≤ 5) → m.railFeeds k = (0, m)))

/-- R440, R443 to R458, R460, R461: the survey engine. START checks the plan and begins the run, or ends it at once; while a run is in progress a write of the plan only sets CFGREF. A measurement writes one entry for the
object in hand (three per motor port for WINDING), REFUSED where its preconditions do not hold, and the run goes on; the class of a pin follows R447. STOP ends a run, with the entry of a stimulus in progress ABORTED; CLEAR
empties the record. The receivers under a stimulus are deaf until 10 µs after it (R442). WINDING takes the outputs of its port, goes from step to step and ends with motion, a
trip or a closed gate. The supply and mains watches report a value that leaves its window once, until it has been back.
What a counter does under a stimulus, and the range of TDR, are the model's (log 250, 252). -/
def Obligations.SurveyEngine : Prop :=
  (∀ (s : State) (v : Word), s.main.survRuns = false → bitsOf v.toNat 2 1 = 0 → bitsOf v.toNat 1 1 = 0 →
    let k := s.main.set F.SURVEY_CTL_NPLAN (bitsOf v.toNat 8 7)
    (∀ b, (List.range k.survN).find? k.survBad = some b →
      Does (.surveyStart v) s (((k.set F.SURVEY_STAT_STATE 3).set F.SURVEY_STAT_ERR 1).set F.SURVEY_STAT_PLANIDX b).survSync) ∧
    ((List.range k.survN).find? k.survBad = none → let n := ((k.set F.SURVEY_STAT_STATE 1).set F.SURVEY_STAT_ERR 0).set F.SURVEY_STAT_PLANIDX 0
      Does (.surveyStart v) s (Main.survSeek { n with surv := { n.surv with done := 0, pair := 0, stimOff := false, wind := none } } 65 0).survSync)) ∧
  (∀ (s : State) (v : Word), s.main.survRuns = true → bitsOf v.toNat 2 1 = 0 → bitsOf v.toNat 8 7 = s.main.get F.SURVEY_CTL_NPLAN →
    (bitsOf v.toNat 1 1 = 0 → Does (.surveyStart v) s s.main.survSync) ∧
    (s.main.survLive = false → Does (.surveyStop v) s (s.main.survEnd 3 3).survSync) ∧
    (s.main.survLive = true → s.main.get F.SURVEY_STAT_ENTRIES < 8192 → Does (.surveyStop v) s ((s.main.survEntry 6 0 0 0).survEnd 3 3).survSync)) ∧
  (∀ (s : State) (v : Word),
    (s.main.survRuns = false → bitsOf v.toNat 0 1 = 0 → bitsOf v.toNat 1 1 = 0 →
      Does (.surveyClear v) s (s.main.survClear.set F.SURVEY_CTL_NPLAN (bitsOf v.toNat 8 7)).survSync) ∧
    (s.main.survRuns = true → bitsOf v.toNat 1 1 = 0 → Does (.surveyClear v) s (s.main.set F.SURVEY_STAT_CFGREF 1).survSync)) ∧
  (∀ (m : Main) (n rx : Nat), (n, rx) ∈ m.survPairs → m.survSync.survDeaf n rx = true) ∧
  (∀ (m : Main) (x : Deaf), x ∈ m.surv.deaf → (x.port, x.rx) ∉ m.survPairs → x.till = none →
    { x with till := some (m.now + 10000) } ∈ m.survSync.surv.deaf) ∧
  (∀ (m : Main), m.survClear.get F.SURVEY_STAT_ENTRIES = 0 ∧ m.survClear.surv.seq = 0) ∧
  (∀ (m : Main) (k v : Nat), m.survRuns = true → m.survPlanWrite k v = m.set F.SURVEY_STAT_CFGREF 1 ∧ m.survWvdcWrite v = m.set F.SURVEY_STAT_CFGREF 1) ∧
  (∀ (m : Main) (st cls a b kind g i param : Nat), m.survCur = some (kind, g, i, param) → m.get F.SURVEY_STAT_ENTRIES < 8192 → st < 16 → cls < 16 →
    let n := m.get F.SURVEY_STAT_ENTRIES
    let obj := g * 4096 + (if kind = 5 then 3 * i + m.surv.pair else i)
    let k := m.survEntry st cls a b
    k.get F.SURVEY_STAT_ENTRIES = n + 1 ∧
    k.get (F.SURVEY_RECORD_WORD n 0) = (kind + st * 2 ^ 8 + cls * 2 ^ 12 + obj * 2 ^ 16 + m.surv.seq % 2 ^ 32 * 2 ^ 32) % 2 ^ 64 ∧
    k.get (F.SURVEY_RECORD_WORD n 1) = a % 2 ^ 64 ∧ k.get (F.SURVEY_RECORD_WORD n 2) = b % 2 ^ 64 ∧ k.get (F.SURVEY_RECORD_WORD n 3) = m.now % 2 ^ 64 ∧
    k.surv.seq = m.surv.seq + 1) ∧
  (∀ (m : Main) (st cls a b : Nat) (x : Nat × Nat × Nat × Nat), m.survCur = some x → 8192 ≤ m.get F.SURVEY_STAT_ENTRIES → m.survEntry st cls a b = m.survEnd 3 2) ∧
  (∀ (m : Main) (st err : Nat), st < 4 → err < 16 → (m.survEnd st err).get F.SURVEY_STAT_STATE = st ∧ (m.survEnd st err).get F.SURVEY_STAT_ERR = err ∧
    (m.survEnd st err).tok.captured = m.tok.captured ++ [{ src := 896, word := 0, time := m.now }]) ∧
  (∀ (s : State) (kind i param : Nat), survStimulus kind param = true → s.survReady kind i param = true →
    s.main.surv.stimOff = false ∧ (if kind = 5 then s.main.mode = 3 else s.main.mode = 2)) ∧
  (∀ (s : State) (i param : Nat), s.survReady 5 i param = true → s.stageReleased i = true ∧ s.main.enabled (.motor (Fin.ofNat 16 i)) = false ∧
    s.main.get F.SURVEY_WVDC_MV ≠ 0) ∧
  (∀ (s : State) (i param : Nat), 0x10 ≤ i → s.main.ustOn (.iface i) = true → s.survReady 9 i param = false) ∧
  (∀ mean ripple : BitVec 32, Measures (.surveySupply mean ripple) 1 fun m _ i _ =>
    if i = 9 ∨ i = 10 then
      let c := clampTo 0 3600000 (1000 * m.get (if i = 9 then F.SAFE_SUPPLY_CORE else F.SAFE_SUPPLY_IO))
      m.survEntry c.2 0 (uns 64 c.1) 0
    else m.survEntry (clampTo 0 3600000 mean.toInt).2 0 (uns 64 (clampTo 0 3600000 mean.toInt).1) ripple.toNat) ∧
  (∀ (v0 : BitVec 32) (pos neg : PolMeas) (levels : BitVec 3), Measures (.surveyPinload v0 pos neg levels) 2 fun m g i param =>
    let imax := Nat.min 100 (bitsOf param 0 8)
    let k := m.survLevels levels
    let pos := polRun (k.compliance g i) true 0 pos.vs
    let neg := polRun (k.compliance g i) false 0 neg.vs
    if imax = 0 then k.survEntry 0 0 (uns 64 v0.toInt) (2 ^ 64 - 1)
    else
      let rp := polOhm (pos.v - v0.toInt) pos.halvings
      let rn := polOhm (v0.toInt - neg.v) neg.halvings
      let c := pinClass imax v0.toInt pos.v neg.v rp rn pos.clipped neg.clipped
      let st := if pos.halvings + neg.halvings = 0 then 0 else 5
      match c.2 with
      | some v => k.survEntry st c.1 (uns 64 v0.toInt) (uns 64 v)
      | none => let q := k.survQuot (pinSum rp rn pos.clipped neg.clipped) (2 * imax)
        q.2.survEntry st c.1 (uns 64 v0.toInt) (uns 64 q.1)) ∧
  (∀ (m : Main) (i : Nat), m.compliance 2 i = (-250000, 250000) ∧ m.compliance 1 i = (-3600000, 3600000) ∧ m.compliance 3 i = (-300000, 800000) ∧
    m.compliance 0 i = (if m.gated (.gpio (Fin.ofNat 448 i)) = true then (-300000, 800000) else (-300000, 3600000)) ∧ m.compliance 10 i = (-300000, 3600000)) ∧
  (∀ (lim : Int × Int) (h : Nat) (v : BitVec 32) (vs : List (BitVec 32)),
    (v.toInt < lim.2 → polRun lim true h (v :: vs) = ⟨v.toInt, h, false⟩) ∧ (lim.1 < v.toInt → polRun lim false h (v :: vs) = ⟨v.toInt, h, false⟩) ∧
    (lim.2 ≤ v.toInt → h < 8 → polRun lim true h (v :: vs) = polRun lim true (h + 1) vs) ∧ (lim.2 ≤ v.toInt → polRun lim true 8 (v :: vs) = ⟨lim.2, 8, true⟩) ∧
    (v.toInt ≤ lim.1 → h < 8 → polRun lim false h (v :: vs) = polRun lim false (h + 1) vs) ∧ (v.toInt ≤ lim.1 → polRun lim false 8 (v :: vs) = ⟨lim.1, 8, true⟩)) ∧
  (∀ (v0 vp vn rp rn : Int) (i : Nat), 0 < i → pinSum rp rn false false = rp + rn ∧ pinSum rp rn true false = 2 * rn ∧ pinSum rp rn false true = 2 * rp ∧
    pinClass i v0 vp vn rp rn true true = (1, some (-1)) ∧
    (2000000000 * (i : Int) < rp + rn → pinClass i v0 vp vn rp rn false false = (1, some (-1))) ∧
    (rp + rn < 20000 * (i : Int) → pinClass i v0 vp vn rp rn false false = (2, none)) ∧
    (10000 * (i : Int) ≤ rp → rp ≤ 1000000000 * (i : Int) → 400000 ≤ (vp - v0).natAbs → (vp - v0).natAbs ≤ 2000000 → pinClass i v0 vp vn rp rn false true = (5, some vp)) ∧
    (10000 * (i : Int) ≤ rn → rn ≤ 1000000000 * (i : Int) → 400000 ≤ (vn - v0).natAbs → (vn - v0).natAbs ≤ 2000000 → pinClass i v0 vp vn rp rn true false = (5, some vn)) ∧
    (10000 * (i : Int) ≤ rp → rp ≤ 1000000000 * (i : Int) → -100000 < v0 → v0 < 100000 → pinClass i v0 vp vn rp rp false false = (3, none)) ∧
    (10000 * (i : Int) ≤ rp → rp ≤ 1000000000 * (i : Int) → 100000 ≤ v0 → pinClass i v0 vp vn rp rp false false = (4, none))) ∧
  (∀ (m : Main) (num den : Int), den ≠ 0 →
    (num % den = 0 → m.survQuot num den = (num / den, m)) ∧
    (num % den ≠ 0 → (m.survQuot num den).2 = { m with fresh := m.fresh + 1 } ∧
      ((m.survQuot num den).1 * den - num).natAbs < den.natAbs)) ∧
  (∀ (driven : Bool) (t : BitVec 32) (rho z0 : BitVec 16) (levels : BitVec 3), Measures (.surveyTdr driven t rho z0 levels) 3 fun m _ _ param =>
    let vf := if bitsOf param 0 16 = 0 then 6600 else bitsOf param 0 16
    let k := m.survLevels levels
    let cls := if 8000 ≤ rho.toInt then 1 else if rho.toInt ≤ -8000 then 2 else 4
    let put := fun (st cls : Nat) (num den : Nat) =>
      let q := k.survQuot num den
      q.2.survEntry st cls (uns 64 q.1) (z0.toNat + rho.toNat * 2 ^ 16)
    if driven then k.survEntry 4 0 0 0
    else if rho.toInt.natAbs < 2000 then put 0 3 (vf * 299792458 * 3276800) (2 * 10 ^ 13)
    else if 6600 * 299792458 * t.toNat < 500 * (2 * 10 ^ 13) then put 1 cls (500 * vf) 6600
    else if 300000 * (2 * 10 ^ 13) < 6600 * 299792458 * t.toNat then put 1 cls (300000 * vf) 6600
    else put 0 cls (vf * 299792458 * t.toNat) (2 * 10 ^ 13)) ∧
  (∀ (v0 : BitVec 32) (pos neg : PolMeas) (dt : BitVec 32), Measures (.surveyDacload v0 pos neg dt) 4 fun m g i _ =>
    let pos := polRun (m.compliance g i) true 0 pos.vs
    let neg := polRun (m.compliance g i) false 0 neg.vs
    let sum := pinSum (polOhm (pos.v - v0.toInt) pos.halvings) (polOhm (v0.toInt - neg.v) neg.halvings) pos.clipped neg.clipped
    let qc := m.survQuot dt.toNat 5
    let c := clampTo 100 1000000 qc.1
    let qr := qc.2.survQuot sum 20000
    if (pos.clipped = true ∧ neg.clipped = true) ∨ 20000000000 < sum then qc.2.survEntry 1 0 (2 ^ 64 - 1) (uns 64 c.1)
    else qr.2.survEntry (if (clampTo 1000 1000000 qr.1).2 = 1 ∨ c.2 = 1 then 1 else if pos.halvings + neg.halvings = 0 then 0 else 5) 0
      (uns 64 (clampTo 1000 1000000 qr.1).1) (uns 64 c.1)) ∧
  (∀ (x : EncMeas) (levels : BitVec 3), ∃ act, Measures (.surveyEncoder x levels) 6 act ∧
    (∀ m g i param, (∀ v ∈ [x.a, x.b, x.z], -5000000 ≤ v.toInt ∧ v.toInt ≤ 5000000) → bitsOf param 0 1 = 0 →
      let ab := uns 32 x.a.toInt + uns 32 x.b.toInt * 2 ^ 32
      (1000000 ≤ x.a.toInt.natAbs → 1000000 ≤ x.b.toInt.natAbs → act m g i param = (m.survLevels levels).survEntry 0 1 ab (uns 32 x.z.toInt)) ∧
      (x.a.toInt = 0 → x.b.toInt = 0 → x.z.toInt = 0 → 800000 ≤ x.la.toInt → x.la.toInt ≤ 2000000 →
        act m g i param = (m.survLevels levels).survEntry 0 0 0 0))) ∧
  (∀ (sn cs exc : BitVec 32) (phase angle : BitVec 16), exc.toInt ≠ 0 → Measures (.surveyResolver sn cs exc phase angle) 7 fun m _ _ _ =>
    let d := exc.toInt.natAbs
    let sq := (sn.toInt * sn.toInt + cs.toInt * cs.toInt).toNat * 10 ^ 12
    let q := m.survRoot sq d
    q.2.survEntry (clampTo 0 2000000 q.1).2 (if sq < (20000 * d) ^ 2 then 0 else 1) (uns 64 (clampTo 0 2000000 q.1).1) (phase.toNat + angle.toNat * 2 ^ 16)) ∧
  (∀ (m : Main) (n d : Nat), 0 < d → (((m.survRoot n d).1 - 1) * d ≤ Nat.sqrt n ∧ (Nat.sqrt n : Int) < ((m.survRoot n d).1 + 1) * d) ∧
    ((m.survRoot n d).2 = m ∨ (m.survRoot n d).2 = { m with fresh := m.fresh + 1 })) ∧
  (∀ freq rms : BitVec 32, Measures (.surveyMains freq rms) 8 fun m _ _ _ =>
    if freq = 0 then m.survEntry 7 0 0 rms.toNat
    else m.survEntry (clampTo 40000000 70000000 freq.toNat).2 0 (uns 64 (clampTo 40000000 70000000 freq.toNat).1) rms.toNat) ∧
  (∀ a b : Word, ∃ act, Measures (.surveyPartner a b) 9 act ∧
    (∀ m g i param, i ≤ 6 → act m g i param = m.survEntry (if b = 0 then 7 else 0) 0 (a.toNat % 128) b.toNat) ∧
    (∀ m g i param, 0x20 ≤ i → act m g i param = m.survEntry (if b = 0 then 7 else 0) 0 a.toNat b.toNat)) ∧
  (∀ tj : BitVec 16, Measures (.surveyThermal tj) 10 fun m _ _ _ =>
    m.survEntry (clampTo (-320) 1280 tj.toInt).2 0 (uns 64 (clampTo (-320) 1280 tj.toInt).1) 0) ∧
  (∀ (s : State) (i param g : Nat), s.main.survCur = some (5, g, i, param) →
    (s.main.surv.wind = none → s.survReady 5 i param = true →
      Does (.surveyWinding .start) s (s.main.windStart i param)) ∧
    (∀ ev, s.main.surv.wind = none → s.survReady 5 i param = false → Does (.surveyWinding ev) s (s.main.survEntry 2 0 0 0).survNext) ∧
    (∀ w, s.main.surv.wind = some w →
      (w.moved = true → s.main.surv.pair = 2 → Does (.surveyWinding .motion) s ((s.main.survEntry 3 0 0 0).raiseSrc 36 0 0 i).survNext) ∧
      (w.moved = true → s.main.surv.pair = 1 → Does (.surveyWinding .motion) s ((((s.main.survEntry 3 0 0 0).raiseSrc 36 0 0 i).survNext).survEntry 2 0 0 0).survNext) ∧
      (∀ cur, w.moved = false → Does (.surveyWinding (.next cur)) s (s.main.windNext w param cur.toNat)) ∧
      (∀ on len, w.moved = false → Does (.surveyWinding (.pwm on len)) s (s.main.windPwm i w on len)) ∧
      (∀ dt di ir vm im, w.moved = false → (s.main.motor i).tripped = true ∨ s.stageReleased i = false →
        Does (.surveyWinding (.done dt di ir vm im)) s (s.main.survEntry 6 0 0 0).survNext) ∧
      (∀ dt di ir vm im, w.moved = false → (s.main.motor i).tripped = false → s.stageReleased i = true → w.step ≠ 3 →
        Does (.surveyWinding (.done dt di ir vm im)) s s.main) ∧
      (∀ dt di ir vm im, w.moved = false → (s.main.motor i).tripped = false → s.stageReleased i = true → w.step = 3 → im.toInt ≠ 0 → di.toInt ≠ 0 →
        let r := s.main.survQuot (vm.toInt * 1000000) im.toInt
        let l := r.2.survQuot ((1000 * (s.main.get F.SURVEY_WVDC_MV : Int) * im.toInt - vm.toInt * ir.toInt) * (dt.toNat : Int)) (im.toInt * di.toInt)
        let rc := clampTo 10000 100000000 r.1
        let lc := clampTo 50000 500000000 l.1
        Does (.surveyWinding (.done dt di ir vm im)) s (l.2.survEntry (if rc.2 = 1 ∨ lc.2 = 1 then 1 else 0) 0 (uns 64 rc.1) (uns 64 lc.1)).survNext))) ∧
  (∀ (m : Main) (i param : Nat), ((m.windStart i param).motor i).drv = true ∧ (m.windStart i param).surv.wind =
    some { cnt := m.survWatch param, step := 0, since := m.now, on := true, at_ := m.now, short := false, moved := false }) ∧
  (∀ (m : Main) (i n param : Nat) (w : Wind), m.windPort = some (i, w, param) →
    m.windAbort i = (m.survEntry 6 0 0 0).survNext ∧
    (bitsOf param 16 6 = n → Nat.max 1 (bitsOf param 22 10) < (m.survWatch param - w.cnt).natAbs →
      m.windWatch n = m.withWind (some { w with moved := true })) ∧
    (bitsOf param 16 6 = n → (m.survWatch param - w.cnt).natAbs ≤ Nat.max 1 (bitsOf param 22 10) → m.windWatch n = m)) ∧
  (∀ (m : Main) (w : Wind) (param cur : Nat),
    let next := m.withWind (some { w with step := w.step + 1, since := m.now, on := true, at_ := m.now, short := false })
    (w.step = 0 ∨ w.step = 2 → (bitsOf param 0 16 ≤ cur ∨ w.since + 50000 ≤ m.now → m.windNext w param cur = next) ∧
      (cur < bitsOf param 0 16 → m.now < w.since + 50000 → m.windNext w param cur = m)) ∧
    (w.step = 1 → (w.since + 20000000 ≤ m.now → m.windNext w param cur = next) ∧ (m.now < w.since + 20000000 → m.windNext w param cur = m))) ∧
  (∀ (s : State) (r : Fin 20) (mv : BitVec 16), s.main.mode ≠ 0 → s.main.mode ≠ 10 → r.val ≠ 9 → r.val ≠ 10 → s.main.railPresent r.val = true →
    let k := s.main.set (F.SURVEY_RAIL_VALUE r.val) mv.toNat
    let lo := s.main.get (F.SURVEY_RAIL_LO r.val)
    let hi := s.main.get (F.SURVEY_RAIL_HI r.val)
    let put := fun (l : List RailSt) => ({ k with surv := { k.surv with rails := l } } : Main)
    let rest := s.main.surv.rails.filter (fun x => x.r != r.val)
    (s.main.surv.rails.find? (fun x => x.r == r.val) = none →
      (lo ≤ mv.toNat → mv.toNat ≤ hi → Does (.supplyWatchSample r mv) s k) ∧
      (mv.toNat < lo → mv.toNat ≤ hi → Does (.supplyWatchSample r mv) s ((((put (rest ++ [{ r := r.val, back := none }])).set (F.SURVEY_RAIL_OUT r.val) 1).set
        (F.SURVEY_RAIL_DIR r.val) 0).event (904 + r.val) (mv.toNat * 2) |>.raiseSrc 5 0 (railDie r.val) r.val))) ∧
    (∀ x t, s.main.surv.rails.find? (fun x => x.r == r.val) = some x → x.back = some t → lo ≤ mv.toNat → mv.toNat ≤ hi →
      (t + 1000000 ≤ s.main.now → Does (.supplyWatchSample r mv) s (put rest)) ∧ (s.main.now < t + 1000000 → Does (.supplyWatchSample r mv) s k)) ∧
    (∀ x, s.main.surv.rails.find? (fun x => x.r == r.val) = some x → x.back = none → lo ≤ mv.toNat → mv.toNat ≤ hi →
      Does (.supplyWatchSample r mv) s (put (rest ++ [{ x with back := some s.main.now }]))) ∧
    (∀ x t, s.main.surv.rails.find? (fun x => x.r == r.val) = some x → x.back = some t → t + 1000000 ≤ s.main.now → mv.toNat < lo → mv.toNat ≤ hi →
      Does (.supplyWatchSample r mv) s ((((put (rest ++ [{ r := r.val, back := none }])).set (F.SURVEY_RAIL_OUT r.val) 1).set
        (F.SURVEY_RAIL_DIR r.val) 0).event (904 + r.val) (mv.toNat * 2) |>.raiseSrc 5 0 (railDie r.val) r.val)) ∧
    (∀ x, s.main.surv.rails.find? (fun x => x.r == r.val) = some x → (∀ t, x.back = some t → s.main.now < t + 1000000) → mv.toNat < lo ∨ hi < mv.toNat →
      Does (.supplyWatchSample r mv) s (put (rest ++ [{ x with back := none }])))) ∧
  (∀ (s : State) (f : BitVec 32), s.main.mode ≠ 0 → s.main.mode ≠ 10 → s.main.flag F.SURVEY_WATCH_MAINSEN = true →
    let out := f.toNat < 10000 * s.main.get F.SURVEY_WATCH_FLO ∨ 10000 * s.main.get F.SURVEY_WATCH_FHI < f.toNat
    let k : Main := { s.main.set F.SURVEY_MAINSVAL_FREQ f.toNat with surv := { s.main.surv with mains := decide out } }
    (¬ out ∨ s.main.surv.mains = true → Does (.mainsWatch f) s k) ∧
    (out → s.main.surv.mains = false → Does (.mainsWatch f) s (((k.set F.SURVEY_MAINSVAL_OUT 1).event 924 0).raiseSrc 35 0 0 (s.main.get F.SURVEY_WATCH_MAINSIN))))

/-- R464, R474, R482 to R485, R487: the requests of the island. While a cycle takes requests, a request command takes the packet at the front of the request runnel when its CODE is
the command's, and the island judges it: length (FORMAT), CRC (BADCRC), code (BADCODE), SEQ (REFUSED_SEQ), and then its form (FORMAT). An accepted request is performed and answered with one ACK; a demand is
performed in RUN, a permission only under R485, and not after a demand on its target in the same cycle. A packet of EMPTYPKT words alone is ignored; one that meets an uncorrectable error is lost. What is judged first, and that a request outside RUN is REFUSED_COND, are the model's readings (log 113, 116, 119), as is which demand bears on which permission (log 254). -/
def Obligations.IslandRequests : Prop :=
  (∀ p ∈ islandRequests, ∀ (s : State) (pkt : List Opnd) (n : List Nat) (m : Main),
    s.isl.works = true → s.isl.opn = true → s.main.live (.runnel 0 4095) = true → s.main.rnPeekPkt 0 4095 = some pkt → s.main.rnTakePkt 0 4095 = some (n, m) →
    let eccs := s.isl.reads.headD []
    let took := fun (i : Island) => ({ i with budget := i.budget - 1, reads := i.reads.tail } : Island)
    (s.isl.budget ≠ 0 → bitsOf ((pktWords pkt).headD 0) 0 8 = p.2 →
      (eccs.contains .uncorrectable = false → exec p.1 s = .next ({ s with main := m.rnCes 0 eccs }.onIsl fun i => (took i).request pkt)) ∧
      (eccs.contains .uncorrectable = true → exec p.1 s = .next ({ s with main := s.main.unitLose 4095 eccs }.onIsl took))) ∧
    (s.isl.budget = 0 ∨ bitsOf ((pktWords pkt).headD 0) 0 8 ≠ p.2 → exec p.1 s = .next s)) ∧
  (∀ (s : State) (g : Island → Island), (s.onIsl g).isl = g s.isl ∧ (s.onIsl g).pending = s.pending ∧
    (∀ k, k < 64 → ((s.onIsl g).main.gateOpen (.dac (Fin.ofNat 64 k)) = true ↔ (g s.isl).on = true ∧ (g s.isl).st = 2 ∧ (g s.isl).gate ((g s.isl).dacGroup k) = true)) ∧
    (∀ k, k < 16 → ((s.onIsl g).main.gateOpen (.motor (Fin.ofNat 16 k)) = true ↔ (g s.isl).on = true ∧ (g s.isl).st = 2 ∧ (g s.isl).gate ((g s.isl).motGroup k) = true))) ∧
  (∀ (i : Island) (pkt : List Opnd), let ws := pktWords pkt
    let seq := bitsOf (ws.getLastD 0) 0 16
    let code := bitsOf (ws.headD 0) 0 8
    (ws = [] → i.request pkt = i) ∧ (ws ≠ [] → ¬ framed ws → i.request pkt = i.ack 5 seq code) ∧
    (framed ws → ¬ crcRight ws → i.request pkt = i.ack 3 seq code) ∧
    (framed ws → crcRight ws → code ∉ reqCodes → i.request pkt = i.ack 4 seq code) ∧
    (framed ws → crcRight ws → code ∈ reqCodes → ¬ i.seqRight seq → i.request pkt = i.ack 2 seq code)) ∧
  (∀ (i : Island) (pkt : List Opnd) (code idx arg seq : Nat), let ws := pktWords pkt
    framed ws → crcRight ws → i.seqRight seq → seq = bitsOf (ws.getLastD 0) 0 16 → code = bitsOf (ws.headD 0) 0 8 → idx = bitsOf (ws.headD 0) 8 8 →
    arg = bitsOf (ws.headD 0) 24 40 →
    let j := i.accepted seq
    (code ∈ [0x10, 0x11, 0x12, 0x13, 0x14, 0x17, 0x40, 0x41, 0x42, 0x45] → 16 ≤ idx → idx ≠ 0xFF → i.request pkt = j.ack 5 seq code) ∧
    (code ∈ [0x15, 0x43] → 8 ≤ idx → idx ≠ 0xFF → i.request pkt = j.ack 5 seq code) ∧ (code ∈ [0x16, 0x44] → 17 ≤ idx → idx ≠ 0xFF → i.request pkt = j.ack 5 seq code) ∧
    (code ∈ [0x01, 0x02, 0x80, 0x81, 0x82, 0x83] → idx ≠ 0 → i.request pkt = j.ack 5 seq code) ∧
    (code ∈ [0x01, 0x02, 0x10, 0x11, 0x12, 0x13, 0x15, 0x16, 0x40, 0x41, 0x43, 0x44, 0x45, 0x80, 0x82, 0x83] → arg ≠ 0 → i.request pkt = j.ack 5 seq code) ∧
    (ws.length = 2 → arg = 0 → idx = 0 →
      (code = 0x01 → i.request pkt = j.ack (if j.st = 2 then 0 else 1) seq code) ∧ (code = 0x02 → j.st = 2 → i.request pkt = j.status.ack 0 seq code)) ∧
    (ws.length = 2 → arg = 0 → code ∈ [0x10, 0x11, 0x12, 0x13, 0x16, 0x17, 0x40, 0x41, 0x42, 0x44, 0x45] → idx < 16 →
      i.request pkt = (j.performOn code idx 0).2.ack (if (j.performOn code idx 0).1 then 0 else 1) seq code) ∧
    (ws.length = 2 → arg = 0 → code ∈ [0x15, 0x43] → idx < 8 →
      i.request pkt = (j.performOn code idx 0).2.ack (if (j.performOn code idx 0).1 then 0 else 1) seq code) ∧
    (ws.length = 2 → arg < 4 → code = 0x14 → idx < 16 →
      i.request pkt = (j.performOn code idx arg).2.ack (if (j.performOn code idx arg).1 then 0 else 1) seq code) ∧
    (ws.length = 2 → arg = 0 → code ∈ [0x10, 0x40] → idx = 0xFF →
      let r := (List.range 16).foldl (fun (x : Bool × Island) k => let y := x.2.performOn code k 0; (x.1 && y.1, y.2)) (true, j)
      i.request pkt = r.2.ack (if r.1 then 0 else 1) seq code)) ∧
  (∀ (i : Island) (r seq code : Nat), r < 256 → seq < 2 ^ 16 → code < 256 →
    (i.ack r seq code).outq = i.outq ++ [[1 + r * 2 ^ 8 + seq * 2 ^ 24 + code * 2 ^ 40]] ∧
    (i.ack r seq code).refused = (if r = 0 then i.refused else satAdd 16 i.refused 1)) ∧
  (∀ (i : Island), i.status.outq = i.outq ++ [(2 + 20 * 2 ^ 16 + i.rseq.getD 0 % 2 ^ 40 * 2 ^ 24) :: i.stateWord :: i.outWord :: i.outErrWord :: i.inWord ::
    (List.range 16).map i.funcWord]) ∧
  (∀ (i : Island) (code k arg : Nat), let r := i.perform code k arg
    (code < 0x40 → i.performOn code k arg = (r.1, if r.1 then { r.2 with dem := (reqKind code, k) :: r.2.dem } else r.2)) ∧
    (0x40 ≤ code → i.demanded code k = true → i.performOn code k arg = (false, i)) ∧ (0x40 ≤ code → i.demanded code k = false → i.performOn code k arg = r)) ∧
  (∀ (i : Island) (code k : Nat), i.demanded code k = true ↔ (reqKind code, k) ∈ i.dem ∨ (reqKind code = 1 ∧ ∃ d, i.brkCh k = some d ∧ (0, d) ∈ i.dem) ∨
    (reqKind code = 2 ∧ (0, k) ∈ i.dem)) ∧
  (∀ (i : Island) (code k arg : Nat), i.st ≠ 2 → i.perform code k arg = (false, i)) ∧
  (∀ (i : Island) (k arg : Nat), i.st = 2 → i.chs.length = 16 → k < 16 →
    i.perform 0x10 k arg = (true, i.assertSto k 1) ∧ i.perform 0x11 k arg = (true, i.startSs1 k 1 false) ∧ i.perform 0x12 k arg = (true, i.startSs2 k 1) ∧
    i.perform 0x13 k arg = (true, i.startSos k 1 true) ∧ i.perform 0x16 k arg = (true, i.closeGate k) ∧
    (i.slsVal k arg ≤ i.slsVal k (i.ch k).sls → (i.perform 0x14 k arg).1 = true ∧ ((i.perform 0x14 k arg).2.ch k).sls = arg) ∧ (i.slsVal k (i.ch k).sls < i.slsVal k arg → i.perform 0x14 k arg = (false, i)) ∧
    (arg ≤ 1 → (i.perform 0x17 k arg).1 = true ∧ ((i.perform 0x17 k arg).2.ch k).sdi = some (arg == 1, (i.ch k).c0)) ∧
    ((i.perform 0x40 k arg).1 = true ↔ i.permitted k ∧ (i.ch k).rstpend = false ∧ (i.ch k).pairfault = false) ∧
    ((i.perform 0x40 k arg).1 = true → ((i.perform 0x40 k arg).2.ch k).sto = false) ∧
    ((i.perform 0x41 k arg).1 = true ↔ i.permitted k ∧ (i.ch k).sosIn = false) ∧
    ((i.perform 0x41 k arg).1 = true → ((i.perform 0x41 k arg).2.ch k).sos = none) ∧
    (arg ≤ 4 → ((i.perform 0x42 k arg).1 = true ↔ i.permitted k ∧ (arg = 4 → i.chFlag k 23 = true) ∧
      (∀ n, n < 32 → i.demands n = true → i.inAct n = 5 → i.inNames n k = true → i.slsVal k arg ≤ i.slsVal k (bitsOf (i.inE n) 46 2)))) ∧
    ((i.perform 0x42 k arg).1 = true → ((i.perform 0x42 k arg).2.ch k).sls = arg) ∧
    ((i.perform 0x44 k arg).1 = true ↔ i.permitted k ∧ (i.ch k).sto = false) ∧
    ((i.perform 0x44 k arg).1 = true → (i.perform 0x44 k arg).2.gate k = true) ∧
    ((i.perform 0x45 k arg).1 = true ↔ i.permitted k) ∧ ((i.perform 0x45 k arg).1 = true → ((i.perform 0x45 k arg).2.ch k).sdi = none) ∧
    (∀ code ∈ [0x14, 0x40, 0x41, 0x42, 0x44, 0x45], (i.perform code k arg).1 = false → (i.perform code k arg).2 = i)) ∧
  (∀ (i : Island) (arg : Nat), i.st = 2 → ((i.perform 0x44 16 arg).1 = true ↔ i.hold = false ∧ i.stopDemand 16 = false)) ∧
  (∀ (i : Island) (k arg : Nat), i.st = 2 → i.brk.length = 8 → k < 8 →
    i.perform 0x15 k arg = (true, i.brkApply k) ∧
    ((i.perform 0x43 k arg).1 = true ↔ ∃ d, i.brkCh k = some d ∧ i.permitted d ∧ (i.ch d).sto = false) ∧
    ((i.perform 0x43 k arg).1 = true → ((i.perform 0x43 k arg).2.brk.getD k (false, 0)).1 = true) ∧
    ((i.brkApply k).brk.getD k (false, 0)).1 = false) ∧
  (∀ (i : Island) (d cause : Nat), i.chs.length = 16 → d < 16 → (i.ch d).sto = false →
    let j := i.assertSto d cause
    (j.ch d).sto = true ∧ (j.ch d).ss1 = none ∧ (j.ch d).ss2 = none ∧ (j.ch d).sos = none ∧ (j.ch d).cause = cause ∧ j.gate d = false ∧
    (i.brk.length = 8 → bitsOf (i.chE d 0) 0 4 < 8 → (j.brk.getD (bitsOf (i.chE d 0) 0 4) (false, 0)).1 = false) ∧
    (∀ e, e ≠ d → j.ch e = i.ch e ∧ (e < 17 → j.gate e = i.gate e)) ∧ j.st = i.st ∧ j.hold = i.hold ∧ j.pset = i.pset) ∧
  (∀ (i : Island) (d cause : Nat), (i.ch d).sto = true → i.assertSto d cause = i) ∧
  (∀ (i : Island) (d cause : Nat) (hold : Bool), i.chs.length = 16 → d < 16 →
    ((i.ch d).sto = false → (i.ch d).ss1 = none → ((i.startSs1 d cause hold).ch d).ss1 =
      some { entry := i.t, v0 := (i.speed d).1.natAbs, timed := hold || !i.chFlag d 19, hold := hold }) ∧
    ((i.ch d).sto = true ∨ (i.ch d).ss1 ≠ none → i.startSs1 d cause hold = i) ∧
    ((i.ch d).ss2 ≠ none → i.startSs2 d cause = i) ∧
    ((i.ch d).sto = false → ((i.startSos d cause true).ch d).sos = some ((i.ch d).sos.getD (i.ch d).c0)))

/-- R464, R467 to R469, R471, R472, R473, R476 to R480, R487, R497: the safety cycle and the safety functions. The first half of a cycle samples and evaluates demands; a loss sets HOLD and closes every gate; the second half takes what
requests are left, checks limits and readbacks, shows the SAFE registers and commits the packets. A violation of SOS, SLS, SLP, the SS1-r envelope or the cross-check asserts STO with its CAUSE. The counters of a
channel follow its receivers, and its first index references it. SAFE_ALIVE changes level every five cycles in NOSET and RUN (where in the period is the model's, log 210), and is low otherwise. A test pulse drives its output low for TPW, makes no input demand, and puts an input that does not follow it in FAULT. The halves of a cycle, the supply windows and the standstill reading are the model's (log 113, 115, 125), as is how a pulse and the samples of FILT meet (log 253). -/
def Obligations.IslandCycle : Prop :=
  (∀ (s : State) (rn ka kb : Bool) (core io : BitVec 16) (reads : List (List Ecc)), let i := s.isl
    let j := i.sample rn ka kb core.toNat io.toNat
    (j.st ≠ 3 → exec (.safetyCycle (.sample rn ka kb core io reads)) s = .next (s.onIsl fun _ => { j with reads := reads })) ∧
    (j.st = 3 → exec (.safetyCycle (.sample rn ka kb core io reads)) s = .next (s.onIsl fun _ => { j with reads := reads }).flushFault) ∧
    (i.on = false → j = i) ∧
    (i.works = true → core.toNat < 810 ∨ 990 < core.toNat ∨ io.toNat < 2970 ∨ 3630 < io.toNat → j.st = 3 ∧ j.fault = 6 ∧ j.gates = 0) ∧
    (i.works = true → 810 ≤ core.toNat → core.toNat ≤ 990 → 2970 ≤ io.toNat → io.toNat ≤ 3630 →
      j.st = i.st ∧ j.t = i.t + 1 ∧ j.opn = true ∧ j.budget = 8 ∧ j.rst = !rn ∧ j.core = core.toNat ∧ j.io = io.toNat ∧
      (i.hold = false → rn = false → j.hold = true ∧ j.gates = 0) ∧
      (i.hold = false → i.pset.isSome = true → bitsOf (i.w 2) 16 16 ≤ 100 * (i.t + 1 - i.aliveAt) → j.hold = true ∧ j.alive = true ∧ j.gates = 0) ∧
      (i.hold = false → bitsOf (i.w 2) 0 16 ≠ 0 → 10 * bitsOf (i.w 2) 0 16 ≤ i.t + 1 - i.hbAt → j.hold = true ∧ j.hb = true ∧ j.gates = 0) ∧
      (rn = true → 100 * (i.t + 1 - i.aliveAt) < bitsOf (i.w 2) 16 16 → bitsOf (i.w 2) 0 16 = 0 → i.obs = false → j.hold = false) ∧
      (rn = true → 100 * (i.t + 1 - i.aliveAt) < bitsOf (i.w 2) 16 16 → bitsOf (i.w 2) 0 16 = 0 → i.obs = true → j.hold = i.hold))) ∧
  (∀ (s : State) (sto : BitVec 32) (brk : BitVec 16) (lags : Nat × Nat) (eccs : List Ecc),
    ((s.isl.works && s.isl.opn) = false → exec (.safetyCycle (.act sto brk lags eccs)) s = .next s) ∧
    ((s.isl.works && s.isl.opn) = true → ∃ t, exec (.safetyCycle (.act sto brk lags eccs)) s = .next t ∧ t.isl.opn = false ∧ t.isl.outq = [] ∧ t.pending = s.pending ∧
      t.main.get F.SAFE_OUT_STOREL = t.isl.stoMask ∧ t.main.get F.SAFE_LINK_RSEQ = t.isl.rseq.getD 0 % 2 ^ 16 ∧
      t.main.get F.SAFE_SUPPLY_CORE = t.isl.core % 2 ^ 16 ∧ t.main.get F.SAFE_SUPPLY_IO = t.isl.io % 2 ^ 16)) ∧
  (∀ (s : State) (lag : Nat) (eccs : List Ecc) (p : List Nat), s.isl.outq = [p] →
    let seq := s.isl.sseq
    let r := s.main.rnUnitCommit 4094 ((p ++ [seq + crc32 (p.flatMap (leBytes 8) ++ leBytes 2 seq) * 2 ^ 32]).map (opnd tyInt)) { ecc := eccs.getD 0 .ok, lag := lag }
    let drops := if r.1 = false ∧ s.main.live (.runnel 0 4094) = true then satAdd 16 s.isl.sdrop 1 else s.isl.sdrop
    s.flush lag eccs = { s with main := r.2, isl := { s.isl with outq := [], sseq := (seq + 1) % 65536, sdrop := drops } }) ∧
  (∀ i : Island, (i.works = false → i.safeAlive = false) ∧ (i.works = true → Island.safeAlive { i with t := i.t + 5 } = !i.safeAlive) ∧
    (∀ k, i.t % 5 = 0 → k < 5 → Island.safeAlive { i with t := i.t + k } = i.safeAlive)) ∧
  (∀ (s : State) (a b : BitVec 32), (s.isl.works = false → exec (.safeInputSample a b) s = .next (s.onIsl fun i => i)) ∧
    (s.isl.works = true → exec (.safeInputSample a b) s =
      .next (s.onIsl fun i => (List.range 32).foldl (fun i n => i.sampleIn n (a.getLsbD n) (b.getLsbD n)) (i.pulseSample (chanLevel a b))))) ∧
  (∀ (i : Island) (n : Nat) (a b : Bool), n < 32 → i.ins.length = 32 → i.inMode n = 1 ∨ i.inMode n = 2 → i.tp = none →
    let okB := decide (i.inMode n = 1)
    let x := i.inp n
    let y := (i.sampleIn n a b).inp n
    y.a = a ∧ y.b = b ∧ (y.ok = true → a = true ∧ b = okB ∧ i.inFilt n ≤ y.da ∧ i.inFilt n ≤ y.db) ∧
    (a = true → b = okB → i.inFilt n ≤ y.da → i.inFilt n ≤ y.db → y.ok = true ∧ y.demand = false) ∧
    (a = false → i.inFilt n ≤ y.da → y.demand = true) ∧ (b ≠ okB → i.inFilt n ≤ y.db → y.demand = true) ∧
    (x.fault = true → a = true ∨ b = okB → y.fault = true) ∧ (a = false → b ≠ okB → y.fault = false) ∧
    ((a == b) ≠ okB → 100 * bitsOf (i.inE n) 7 10 ≤ y.dx → y.fault = true) ∧
    (∀ k, k ≠ n → (i.sampleIn n a b).inp k = i.inp k)) ∧
  (∀ (i : Island) (n : Nat) (a b : Bool) (p : TpRun), n < 32 → i.ins.length = 32 → i.tp = some p →
    (i.tpOf n 0 = p.k + 1 → (i.inp n).a = true → bitsOf p.high (2 * n) 1 = 0 → ((i.sampleIn n a b).inp n).a = true) ∧
    (i.tpOf n 1 = p.k + 1 → (i.inp n).b = true → bitsOf p.high (2 * n + 1) 1 = 0 → ((i.sampleIn n a b).inp n).b = true) ∧
    (i.tpOf n 0 ≠ p.k + 1 → ((i.sampleIn n a b).inp n).a = a) ∧ (i.tpOf n 1 ≠ p.k + 1 → ((i.sampleIn n a b).inp n).b = b)) ∧
  (∀ (s : State) (k : Fin 8) (a b : BitVec 32), exec (.testPulse k a b) s = .next (s.onIsl fun i => i.testPulse k.val (chanLevel a b))) ∧
  (∀ (i : Island) (k : Nat) (lv : Nat → Nat → Bool),
    let due := i.works = true ∧ i.st = 2 ∧ i.tp = none ∧ k = i.tpNext ∧ i.tpPer ≤ i.t - i.tpAt
    (¬ due → i.testPulse k lv = i) ∧
    (due → let j := i.testPulse k lv
      j.tpNext = (k + 1) % 8 ∧ j.tpAt = i.t ∧ j.ins = i.ins ∧ (0 < i.tpw → j.tpLevel k = false) ∧ (∀ e, e ≠ k → j.tpLevel e = true) ∧
      ∃ p, j.tp = some p ∧ p.k = k ∧ p.n = 0 ∧ p.high = 0 ∧ ∀ n c, n < 32 → c < 2 → bitsOf p.low (2 * n + c) 1 = b2n (!lv n c))) ∧
  (∀ (i : Island) (lv : Nat → Nat → Bool), i.tp = none → i.pulseSample lv = i) ∧
  (∀ (i : Island) (lv : Nat → Nat → Bool) (p : TpRun) (n : Nat), i.tp = some p → i.ins.length = 32 → n < 32 →
    let j := i.pulseSample lv
    ((i.inp n).fault = true → (j.inp n).fault = true) ∧
    (∀ c, c < 2 → i.tpOf n c = p.k + 1 →
      (p.n + 6 = i.tpw → bitsOf p.low (2 * n + c) 1 = 0 → lv n c = true → (j.inp n).fault = true) ∧
      (i.tpw + 20 ≤ p.n + 1 → bitsOf p.high (2 * n + c) 1 = 0 → lv n c = false → (j.inp n).fault = true)) ∧
    (i.tpOf n 0 ≠ p.k + 1 → i.tpOf n 1 ≠ p.k + 1 → j.inp n = i.inp n) ∧
    (i.tpw + 20 ≤ p.n + 1 → j.tp = none) ∧ (p.n + 1 < i.tpw + 20 → (j.tp.map fun q => (q.k, q.n)) = some (p.k, p.n + 1))) ∧
  (∀ (i : Island) (k : Nat), (k = 1 ∨ k = 2 → (i.sampleKey k).keyFault = false ∧ (i.sampleKey k).key = k) ∧
    (k = 0 ∨ k = 3 → (i.sampleKey k).keyBad = i.keyBad + 1 ∧ (1000 < i.keyBad + 1 → (i.sampleKey k).keyFault = true))) ∧
  (∀ (i : Island) (k seq : Nat) (l : SetLoad), i.verify = [(l, seq)] → l.key = 2 →
    (k = 1 → (i.sampleKey k).verify = i.verify) ∧ (k ≠ 1 → (i.sampleKey k).verify = [({ l with key := 3 }, seq)])) ∧
  (∀ (i : Island) (d : Nat) (x y : Int × Int) (l : List (Int × Int)), (i.ch d).hist = x :: l → l.length = 10 → l.getLast? = some y →
    i.speed d = (x.1 - y.1, x.2 - y.2)) ∧
  (∀ (i : Island) (d : Nat), let k := i.slsLimit d
    i.slsVal d k ≤ i.slsVal d (i.ch d).sls ∧ (i.unref d = true → i.slsVal d k ≤ i.slsVal d 0) ∧
    (∀ n, n < 32 → i.demands n = true → i.inAct n = 5 → i.inNames n d = true → i.slsVal d k ≤ i.slsVal d (bitsOf (i.inE n) 46 2)) ∧
    (k = (i.ch d).sls ∨ (k = 0 ∧ i.unref d = true) ∨ ∃ n, n < 32 ∧ i.demands n = true ∧ i.inAct n = 5 ∧ i.inNames n d = true ∧ k = bitsOf (i.inE n) 46 2)) ∧
  (∀ (i : Island) (d : Nat), i.chs.length = 16 → d < 16 → (i.ch d).sto = false → (i.ch d).sdi = none →
    let c := i.ch d
    let sp := (i.speed d).1.natAbs
    let slp := i.chFlag d 22 = true ∧ i.refd d = true ∧ ¬(sgn 32 (bitsOf (i.chE d 2) 0 32) ≤ c.c0 ∧ c.c0 ≤ sgn 32 (bitsOf (i.chE d 2) 32 32))
    let stops := fun (cause : Nat) => ((i.limits d).ch d).sto = true ∧ ((i.limits d).ch d).cause = cause ∧ (i.limits d).gate d = false
    (∀ r, c.ss1 = some r → i.t < r.entry + i.tramp d → r.timed = false → i.still d = false →
      r.v0 * (i.tramp d - (i.t - r.entry)) + bitsOf (i.chE d 0) 40 16 * i.tramp d < sp * i.tramp d → stops 7) ∧
    (∀ p, c.ss1 = none → c.ss2 = none → c.sos = some p → bitsOf (i.chE d 3) 32 12 < (c.c0 - p).natAbs → stops 6) ∧
    (c.ss1 = none → c.ss2 = none → c.sos = none → i.slsLimit d < 4 → bitsOf (i.chE d 1) (16 * i.slsLimit d) 16 < sp → stops 3) ∧
    (c.ss1 = none → c.ss2 = none → c.sos = none → i.slsLimit d = 4 → slp → stops 4) ∧
    (c.ss1 = none → c.ss2 = none → c.sos = none → i.slsLimit d = 4 → ¬ slp → i.chFlag d 18 = true → (bitsOf (i.chE d 3) 44 12 * bitsOf (i.chE d 3) 16 16 : Int) <
      ((c.c0 - c.r0) * (bitsOf (i.chE d 3) 16 16 : Int) - (c.c1 - c.r1) * (bitsOf (i.chE d 3) 0 16 : Int)).natAbs → stops 9) ∧
    (c.ss1 = none → c.ss2 = none → c.sos = none → i.slsLimit d = 4 → ¬ slp → i.chFlag d 18 = false → i.limits d = i) ∧
    (∀ r, c.ss1 = some r → c.ss2 = none → c.sos = none → i.slsLimit d = 4 → ¬ slp → i.chFlag d 18 = false → r.entry + i.tramp d ≤ i.t → stops 11) ∧
    (∀ r, c.ss2 = some r → (∀ q, c.ss1 = some q → q.entry ≤ i.t ∧ i.t < q.entry + i.tramp d ∧ (q.timed = true ∨ i.still d = false) ∧ i.overRamp d q = false) → c.sos = none → i.slsLimit d = 4 → ¬ slp → i.chFlag d 18 = false → r.entry + i.tramp d ≤ i.t →
      ((i.limits d).ch d).sto = false ∧ ((i.limits d).ch d).ss2 = none ∧ ((i.limits d).ch d).sos = some c.c0)) ∧
  (∀ (i : Island) (d rb : Nat), i.chs.length = 16 → d < 16 →
    (20 < i.t - (i.ch d).since → bitsOf rb (2 * d) 2 ≠ (if (i.ch d).sto then 0 else 3) → ((i.readSto rb).ch d).pairfault = true ∧ ((i.readSto rb).ch d).sto = true) ∧
    (i.t - (i.ch d).since ≤ 20 ∨ bitsOf rb (2 * d) 2 = (if (i.ch d).sto then 0 else 3) → (i.readSto rb).ch d = i.ch d)) ∧
  (∀ (s : State) (d : Fin 16), let c := s.isl.ch d.val
    (∀ r, s.isl.st = 2 → c.ss1 = some r → r.entry ≤ s.isl.t → s.isl.t < r.entry + s.isl.tramp d.val → c.ss2 = none → exec (.ss1RampExpiry d) s = .next (s.onIsl fun i => i)) ∧
    (∀ r, s.isl.st = 2 → c.ss1 = some r → r.entry + s.isl.tramp d.val ≤ s.isl.t → exec (.ss1RampExpiry d) s = .next (s.onIsl fun i => i.endSs1 d.val r)) ∧
    (∀ r, s.isl.st = 2 → c.ss1 = none → c.ss2 = some r → r.entry + s.isl.tramp d.val ≤ s.isl.t → exec (.ss1RampExpiry d) s = .next (s.onIsl fun i => i.endSs2 d.val))) ∧
  (∀ (i : Island) (d : Nat) (r : StopRun), i.chs.length = 16 → d < 16 → (i.ch d).sto = false →
    ((i.endSs1 d r).ch d).sto = true ∧ ((i.endSs1 d r).ch d).cause = 11 ∧ (r.hold = true → i.hasReset d = true → ((i.endSs1 d r).ch d).rstpend = true)) ∧
  (∀ (s : State) (d : Fin 16), s.isl.chs.length = 16 →
    ((s.isl.ch d.val).sto = false → 6048000000 ≤ s.isl.t - (s.isl.ch d.val).since → ∃ i, exec (.testDue d) s = .next (s.onIsl fun _ => i) ∧
      (i.ch d.val) = { s.isl.ch d.val with testdue := true } ∧ (∀ e, e ≠ d.val → i.ch e = s.isl.ch e) ∧ i.gates = s.isl.gates)) ∧
  (∀ (s : State), (s.isl.works = true → s.isl.hbDue = true → s.isl.hold = false → ∃ i, exec .heartbeatLoss s = .next (s.onIsl fun _ => i) ∧ i.hold = true ∧ i.hb = true ∧ i.gates = 0) ∧
    (s.isl.hbDue = false → exec .heartbeatLoss s = .next (s.onIsl fun i => i)) ∧
    (s.isl.works = true → s.isl.aliveDue = true → s.isl.hold = false → ∃ i, exec .aliveLoss s = .next (s.onIsl fun _ => i) ∧ i.hold = true ∧ i.alive = true ∧ i.gates = 0) ∧
    (s.isl.aliveDue = false → exec .aliveLoss s = .next (s.onIsl fun i => i)) ∧
    (s.isl.works = true → s.isl.pset.isSome = true → 10 * bitsOf (s.isl.w 2) 32 16 ≤ s.isl.t - s.isl.statAt → exec .statusPacketPeriod s = .next (s.onIsl Island.status)) ∧
    (s.isl.t - s.isl.statAt < 10 * bitsOf (s.isl.w 2) 32 16 → exec .statusPacketPeriod s = .next (s.onIsl fun i => i))) ∧
  (∀ (i : Island) (d : Nat), i.chs.length = 16 → d < 16 → i.hold = false → i.rst = true → (i.ch d).sto = false →
    (i.chFlag d 20 = true → (i.ch d).ss1 = none → ((i.setHold.ch d).ss1.map fun r => (r.entry, r.timed)) = some (i.t, true) ∧ (i.setHold.ch d).sto = false) ∧
    (i.chFlag d 20 = false → (i.setHold.ch d).sto = true ∧ (i.setHold.ch d).cause = 8 ∧ (i.hasReset d = true → (i.setHold.ch d).rstpend = true))) ∧
  (∀ (s : State) (p : Fin 64) (a b : Bool), s.isl.works = true → s.isl.chs.length = 16 → s.isl.rx.length = 64 →
    ∃ i, exec (.safeCounterEdge p a b) s = .next (s.onIsl fun _ => i) ∧
    i.gates = s.isl.gates ∧ i.rx.getD p.val (false, false) = (a, b) ∧ (∀ q, q ≠ p.val → i.rx.getD q (false, false) = s.isl.rx.getD q (false, false)) ∧
    ∀ d, d < 16 → let x := s.isl.ch d
      let y := i.ch d
      let l := s.isl.rx.getD p.val (false, false)
      (s.isl.fba d ≠ p.val → y.c0 = x.c0) ∧ (s.isl.fbb d ≠ p.val → y.c1 = x.c1) ∧ y.sto = x.sto ∧ y.ref = x.ref ∧
      (s.isl.fba d = p.val →
        (s.isl.fbMode d = 2 → l.1 = false → a = true → y.c0 = x.c0 + (if b then 1 else -1)) ∧
        (s.isl.fbMode d = 1 → l = (false, false) → a = true → b = false → y.c0 = x.c0 + 1) ∧
        (s.isl.fbMode d = 1 → l = (false, false) → a = false → b = true → y.c0 = x.c0 - 1) ∧ (s.isl.fbMode d = 0 → y.c0 = x.c0)) ∧
      (s.isl.fbb d = p.val →
        (s.isl.fbMode d = 2 → l.1 = false → a = true → y.c1 = x.c1 + (if b then 1 else -1)) ∧
        (s.isl.fbMode d = 1 → l = (false, false) → a = true → b = false → y.c1 = x.c1 + 1) ∧ (s.isl.fbMode d = 0 → y.c1 = x.c1))) ∧
  (∀ (s : State) (p : Fin 64), s.isl.works = true → s.isl.chs.length = 16 → ∃ i, exec (.safeCounterIndex p) s = .next (s.onIsl fun _ => i) ∧
    ∀ d, d < 16 → let x := s.isl.ch d
      let first := s.isl.fba d = p.val ∧ s.isl.fbMode d ≠ 0 ∧ s.isl.chFlag d 21 = true ∧ x.ref = false
      (¬ first → i.ch d = x) ∧ (first → (i.ch d).ref = true ∧ (i.ch d).c0 = 0 ∧ (i.ch d).c1 = x.c1 ∧ (i.ch d).sto = x.sto))

/-- R465, R473, R488, R491 to R493, R495, R496, R501: parameter sets, diagnostics and resets of the island. PSET_BEGIN empties the load buffer, PSET_DATA writes into it, PSET_ABORT and 300 s without a commit empty it, and PSET_COMMIT hands it
to verification, which makes its checks in order. An accepted set puts the island in RUN with every STO asserted, every brake applied and every gate closed. A failed diagnostic gives FAULT; the watchdog resets the
island, and after three resets from FAULT within 10 minutes it stays in INIT. The order of the first checks of a request and blank island NV are the model's (log 110, 119).
Sets that queue for verification follow log 256. -/
def Obligations.ParameterSets : Prop :=
  (∀ (i : Island) (pkt : List Opnd) (code arg seq : Nat), let ws := pktWords pkt
    framed ws → crcRight ws → i.seqRight seq → seq = bitsOf (ws.getLastD 0) 0 16 → code = bitsOf (ws.headD 0) 0 8 → bitsOf (ws.headD 0) 8 8 = 0 →
    arg = bitsOf (ws.headD 0) 24 40 →
    let j := i.accepted seq
    (code = 0x80 → ws.length = 2 → arg = 0 → i.request pkt =
      ({ j with load := some { words := [], since := i.t, key := if i.key = 2 then 1 else 0 } } : Island).ack 0 seq code) ∧
    (code = 0x83 → ws.length = 2 → arg = 0 → i.request pkt = ({ j with load := none } : Island).ack 0 seq code) ∧
    (code = 0x82 → ws.length = 2 → arg = 0 → i.load = none → i.request pkt = j.ack 1 seq code) ∧
    (∀ l, code = 0x82 → ws.length = 2 → arg = 0 → i.load = some l → i.request pkt = { j with load := none, verify := j.verify ++ [(l, seq)] }) ∧
    (code = 0x81 → 2 < ws.length → arg + (ws.length - 2) ≤ 206 → i.load = none → i.request pkt = j.ack 1 seq code) ∧
    (code = 0x81 → ws.length = 2 ∨ 206 < arg + (ws.length - 2) → i.request pkt = j.ack 5 seq code) ∧
    (∀ l, code = 0x81 → 2 < ws.length → arg + (ws.length - 2) ≤ 206 → i.load = some l → ∃ l', i.request pkt = ({ j with load := some l' } : Island).ack 0 seq code ∧
      l'.since = l.since ∧ l'.key = l.key ∧ ∀ k, nmGet l'.words k 0 = if arg ≤ k ∧ k < arg + (ws.length - 2) then ws.getD (1 + k - arg) 0 else nmGet l.words k 0)) ∧
  (∀ (i : Island) (l : SetLoad), let ws := (List.range 206).map (fun k => nmGet l.words k 0)
    let hash := sha384 (setBytes ws 0 194)
    (l.words.length ≠ 206 → i.judge l = 5) ∧ (setBad ws = true → i.judge l = 5) ∧
    (l.words.length = 206 → setBad ws = false → i.nvKey ≠ [] → sha384 (setBytes ws 182 12) ≠ i.nvKey → i.judge l = 6) ∧
    (i.judge l = 0 → l.words.length = 206 ∧ setBad ws = false ∧ (i.nvKey = [] ∨ sha384 (setBytes ws 182 12) = i.nvKey) ∧
      ecdsaOk hash (beNum (setBytes ws 182 6)) (beNum (setBytes ws 188 6)) (beNum (setBytes ws 194 6)) (beNum (setBytes ws 200 6)) = true ∧
      i.nvSetNo ≤ bitsOf (ws.getD 0 0) 32 32 ∧ (bitsOf (ws.getD 0 0) 32 32 = i.nvSetNo → i.nvHash = [] ∨ hash = i.nvHash) ∧
      (hash ≠ i.nvHash → l.key = 2 ∧ i.keyFault = false) ∧ (∀ d, d < 16 → (i.ch d).sto = true) ∧ (∀ k, k < 8 → (i.brk.getD k (false, 0)).1 = false))) ∧
  (∀ ws : List Nat, setBad ws = false → bitsOf (ws.getD 0 0) 0 16 = 1 ∧ bitsOf (ws.getD 0 0) 16 16 = 206 ∧
    200 ≤ bitsOf (ws.getD 2 0) 16 16 ∧ bitsOf (ws.getD 2 0) 16 16 ≤ 20000 ∧ 1 ≤ bitsOf (ws.getD 2 0) 32 16 ∧ bitsOf (ws.getD 2 0) 32 16 ≤ 1000 ∧
    (∀ n, n < 32 → bitsOf (ws.getD (3 + n) 0) 0 2 ≠ 3 ∧ bitsOf (ws.getD (3 + n) 0) 25 3 ≠ 7 ∧ bitsOf (ws.getD (3 + n) 0) 48 16 = 0) ∧
    (∀ d, d < 16 → bitsOf (ws.getD (35 + 6 * d + 3) 0) 16 16 ≠ 0 ∧
      (bitsOf (ws.getD (35 + 6 * d) 0) 16 2 = 3 → bitsOf (ws.getD (35 + 6 * d) 0) 4 6 ≤ 31 ∧ bitsOf (ws.getD (35 + 6 * d) 0) 10 6 ≤ 31) ∧
      (bitsOf (ws.getD (35 + 6 * d) 0) 20 1 = 1 → bitsOf (ws.getD (35 + 6 * d) 0) 24 16 ≠ 0)) ∧
    (∀ d e, d < 16 → e < 16 → d ≠ e → bitsOf (ws.getD (35 + 6 * d) 0) 0 4 < 8 →
      bitsOf (ws.getD (35 + 6 * d) 0) 0 4 ≠ bitsOf (ws.getD (35 + 6 * e) 0) 0 4)) ∧
  (∀ s : State, s.isl.works = true →
    (s.isl.verify = [] → exec .psetVerifyDone s = .next s) ∧
    (∀ l seq rest, s.isl.verify = (l, seq) :: rest → s.isl.judge l ≠ 0 →
      exec .psetVerifyDone s = .next (s.onIsl fun i => ({ i with verify := rest } : Island).ack (s.isl.judge l) seq 0x82).showIsl) ∧
    (∀ l seq rest, s.isl.verify = (l, seq) :: rest → s.isl.judge l = 0 → ∃ t, exec .psetVerifyDone s = .next t ∧ t.isl.st = 2 ∧ t.isl.gates = 0 ∧ t.isl.verify = rest ∧
      (∀ d, d < 16 → (t.isl.ch d).sto = true) ∧ (∀ k, k < 8 → (t.isl.brk.getD k (false, 0)).1 = false) ∧
      t.isl.pset = some ((List.range 206).map (fun k => nmGet l.words k 0)) ∧ t.isl.nvSetNo = bitsOf (nmGet l.words 0 0) 32 32 ∧
      t.isl.nvHash = sha384 (setBytes ((List.range 206).map (fun k => nmGet l.words k 0)) 0 194) ∧
      (∀ k, k < 7 → t.main.get (F.GPIO_GATEMAP_GATED k) = nmGet l.words (131 + k) 0 % 2 ^ 64) ∧
      t.main.get F.SAFE_STATE_STATE = 2 ∧ t.pending = s.pending)) ∧
  (∀ s : State, (s.isl.works = false → exec .psetVerifyDone s = .next s) ∧
    (∀ l, s.isl.load = some l → 3000000 ≤ s.isl.t - l.since → exec .psetLoadTimeout s = .next (s.onIsl fun i => { i with load := none })) ∧
    (∀ l, s.isl.load = some l → s.isl.t - l.since < 3000000 → exec .psetLoadTimeout s = .next (s.onIsl fun i => i))) ∧
  (∀ s : State,
    (s.isl.on = true → s.isl.st = 0 → s.isl.locked = false →
      exec (.islandInitDone none) s = .next (s.onIsl fun i => { i with st := 1, aliveAt := i.t, hbAt := i.t }).flushFault ∧
      ∀ c : Fin 12, exec (.islandInitDone (some c)) s = .next (s.onIsl fun i => i.enterFault c.val).flushFault) ∧
    (∀ f, s.isl.st ≠ 0 ∨ s.isl.locked = true → exec (.islandInitDone f) s = .next s) ∧
    (∀ c : Fin 12, c.val ∈ [1, 2, 3, 4, 6, 7] → s.isl.works = true → exec (.islandFault c) s = .next (s.onIsl fun i => i.enterFault c.val).flushFault) ∧
    (∀ c : Fin 12, c.val ∉ [1, 2, 3, 4, 6, 7] → exec (.islandFault c) s = .next s) ∧
    (s.isl.on = true → s.isl.st ≠ 0 → exec .islandWatchdogReset s = .next (s.onIsl Island.wdReset).showIsl) ∧
    (s.isl.on = false ∨ s.isl.st = 0 → exec .islandWatchdogReset s = .next s)) ∧
  (∀ (i : Island) (c : Nat), (i.enterFault c).st = 3 ∧ (i.enterFault c).fault = c ∧ (i.enterFault c).gates = 0 ∧ (∀ d, ((i.enterFault c).ch d).sto = true) ∧
    (∀ k, ((i.enterFault c).brk.getD k (false, 0)).1 = false) ∧ (i.enterFault c).pset = i.pset ∧
    ∃ w, (i.enterFault c).outq = i.outq ++ [(2 + 20 * 2 ^ 16 + i.rseq.getD 0 % 2 ^ 40 * 2 ^ 24) :: w] ∧ bitsOf (w.headD 0) 0 3 = 3) ∧
  (∀ i : Island, i.wdReset.st = 0 ∧ i.wdReset.pset = none ∧ i.wdReset.gates = 0 ∧ (∀ d, (i.wdReset.ch d).sto = true) ∧ i.wdReset.resets = satAdd 16 i.resets 1 ∧
    i.wdReset.lastRst = (if i.st = 3 then 2 else 1) ∧ i.wdReset.nvKey = i.nvKey ∧ i.wdReset.nvHash = i.nvHash ∧ i.wdReset.nvSetNo = i.nvSetNo ∧ i.wdReset.rseq = none ∧
    (i.locked = true → i.wdReset.locked = true) ∧
    (∀ a b c, i.st = 3 → i.resetAt = a :: b :: c → i.t - b ≤ 6000000 → i.wdReset.locked = true) ∧
    (i.st ≠ 3 → i.resetAt = [] → i.wdReset.locked = i.locked)) ∧
  (∀ s : State, (∃ t, exec .islandPowerOn s = .next t ∧ t.isl = { Island.zero with nvKey := s.isl.nvKey, nvHash := s.isl.nvHash, nvSetNo := s.isl.nvSetNo } ∧
      t.pending = s.pending ∧ t.main.sys.pow = 1) ∧
    (∃ t, exec .vsafePowerLoss s = .next t ∧
      t.isl = { Island.zero with on := false, nvKey := s.isl.nvKey, nvHash := s.isl.nvHash, nvSetNo := s.isl.nvSetNo } ∧ t.pending = s.pending ∧ t.main.sys.pow = 5)) ∧
  (∀ s : State, let m := s.main
    let st := m.get F.SAFE_STATE_STATE
    let hold := m.get F.SAFE_STATE_HOLD
    let causes := (List.range 16).map (fun d => m.get (F.SAFE_CH_FUNC_CAUSE d))
    let seen := fun (n : Main) => ({ n with coll := { n.coll with polled := st :: hold :: m.get F.SAFE_IN_FAULT :: causes } } : Main)
    (m.coll.polled = st :: hold :: m.get F.SAFE_IN_FAULT :: causes → st ≠ 2 → Does .safeIslandPoll s (seen m)) ∧
    (m.coll.polled = 2 :: hold :: m.get F.SAFE_IN_FAULT :: causes → st ≠ 2 → hold = 1 →
      Does .safeIslandPoll s (seen (m.raiseSrc 37 0 0 (st + hold * 8 + m.get F.SAFE_STATE_FAULTCODE * 2 ^ 20)))) ∧
    (m.coll.polled = st :: 0 :: m.get F.SAFE_IN_FAULT :: causes → st = 2 → hold = 1 →
      Does .safeIslandPoll s (seen (m.raiseSrc 37 0 0 (st + hold * 8 + m.get F.SAFE_STATE_FAULTCODE * 2 ^ 20)))))

/-- R500, R503 to R515, R517: the fault collector. An event that arrives latches its bit, is ignored where MASK is 1, is consequential in an open shadow that covers it, and is counted otherwise: it is SEVERE when direct or when it brings its count to N
within W. Each event with a reaction writes one log entry, in the layout of R514, and the reaction follows. The timer, the deadline and the completion of a reaction act as R507 to R509 say. ALIVE_OUT toggles every PERIOD once started, and stops at a
self-check failure and a clock failure. INJECT, RAISE, ACK, CLEAR and DIESTAT act by a write of a path that may write them.
When an event arrives is the command's to say, within log 240. -/
def Obligations.FaultCollector : Prop :=
  (∀ (s : State) (k : Fin 256), s.main.asleep = false → (s.main.coll.inbox[k.val]? = none → Does (.faultEvent (.arrived k)) s s.main) ∧
    (∀ e, s.main.coll.inbox[k.val]? = some e → (∃ x ∈ s.main.coll.inbox, x.die = e.die ∧ (x.at_ < e.at_ ∨ (x.at_ = e.at_ ∧ x.src < e.src))) →
      Does (.faultEvent (.arrived k)) s s.main) ∧
    (∀ e, s.main.coll.inbox[k.val]? = some e → (∀ x ∈ s.main.coll.inbox, x.before e = false) → Does (.faultEvent (.arrived k)) s
      (Main.faultArrives { s.main with coll := { s.main.coll with inbox := s.main.coll.inbox.eraseIdx k.val } } e))) ∧
  (∀ (m : Main) (e : FaultEvent), e.die.val = 0 ∨ (m.dieState e.die.val ≠ 2 ∧ e.die.val ∉ m.sys.isol) → e.src < 64 →
    let seen := m.get (F.FAULT_DIESTAT_SRC e.die.val)
    let k := m.setIf (bitsOf seen e.src 1 == 0) (F.FAULT_DIESTAT_SRC e.die.val) (seen + 2 ^ e.src)
    let cls := m.get (F.FAULT_MAP_CLASS (64 * e.die.val + e.src))
    (m.get (F.FAULT_MAP_MASK (64 * e.die.val + e.src)) ≠ 0 → m.faultArrives e = k) ∧
    (m.get (F.FAULT_MAP_MASK (64 * e.die.val + e.src)) = 0 → (∀ x ∈ m.coll.shadows, x.isOpen m.now = false) → m.faultArrives e = k.counted e cls false) ∧
    (m.get (F.FAULT_MAP_MASK (64 * e.die.val + e.src)) = 0 → 2 ≤ e.src → (∃ x ∈ m.coll.shadows, x.isOpen m.now = true) →
      ((∀ x ∈ m.coll.shadows, x.isOpen m.now = true → x.covers e = false) → m.faultArrives e = k.counted e cls true) ∧
      ((∃ x ∈ m.coll.shadows, x.isOpen m.now = true ∧ x.covers e = true) → ∃ x ∈ m.coll.shadows, x.isOpen m.now = true ∧ x.covers e = true ∧
        m.faultArrives e = k.consequential e cls x)) ∧
    (m.get (F.FAULT_MAP_MASK (64 * e.die.val + e.src)) = 0 → e.src < 2 → (∃ x ∈ m.coll.shadows, x.isOpen m.now = true) → m.faultArrives e = k.counted e cls true)) ∧
  (∀ (m : Main) (e : FaultEvent), e.die.val ≠ 0 → m.dieState e.die.val = 2 ∨ e.die.val ∈ m.sys.isol → m.faultArrives e = m) ∧
  (∀ (x : Shadow) (now : Nat) (e : FaultEvent), (x.until_ = none → x.isOpen now = true) ∧ (∀ t, x.until_ = some t → (x.isOpen now = true ↔ now < t)) ∧
    (x.scope = 1 → (x.covers e = true ↔ e.src = x.src ∧ e.die.val = x.die)) ∧ (x.scope = 2 → (x.covers e = true ↔ e.die.val = x.named ∨ e.named = x.named)) ∧
    (x.scope = 3 → x.covers e = true)) ∧
  (∀ (m : Main) (src die named sev cls detail : Nat) (x : LogFlags), src < 64 → die < 8 → named < 8 → sev < 4 → cls < 64 → x.level < 8 →
    m.get F.FAULT_LOGCTL_NEXT < 256 → m.get F.FAULT_LOGCTL_SEQ < 2 ^ 32 →
    let n := m.logPut src die named sev cls detail x
    let seq := m.get F.FAULT_LOGCTL_SEQ
    let i := m.get F.FAULT_LOGCTL_NEXT
    n.get (F.FAULT_LOG_WORD i 0) = seq + src * 2 ^ 32 + die * 2 ^ 38 + named * 2 ^ 41 + sev * 2 ^ 44 + x.level * 2 ^ 46 + b2n x.conseq * 2 ^ 49 + b2n x.poss * 2 ^ 50 +
      b2n x.esc * 2 ^ 51 + b2n x.failed * 2 ^ 52 + b2n (m.flag F.FAULT_SUMMARY_SELFFAIL) * 2 ^ 53 + cls * 2 ^ 54 ∧
    n.get (F.FAULT_LOG_WORD i 1) = m.now % 2 ^ 64 ∧ n.get (F.FAULT_LOG_WORD i 2) = detail % 2 ^ 64 ∧ n.get (F.FAULT_LOG_WORD i 3) = x.link % 2 ^ 32 ∧
    n.get F.FAULT_LOGCTL_NEXT = (i + 1) % 256 ∧ n.get F.FAULT_LOGCTL_SEQ = (seq + 1) % 2 ^ 32 ∧
    (∀ j w, j < 256 → w < 4 → j ≠ i → n.get (F.FAULT_LOG_WORD j w) = m.get (F.FAULT_LOG_WORD j w)) ∧
    (sev = 2 → m.get (F.FAULT_FIRST_WORD 0) = 0 → n.get (F.FAULT_FIRST_WORD 0) = n.get (F.FAULT_LOG_WORD i 0)) ∧
    (sev ≠ 2 ∨ m.get (F.FAULT_FIRST_WORD 0) ≠ 0 → ∀ w, w < 4 → n.get (F.FAULT_FIRST_WORD w) = m.get (F.FAULT_FIRST_WORD w))) ∧
  (∀ (m : Main) (die src cls : Nat), (∀ x ∈ m.coll.counts, ¬(x.die = die ∧ x.src = src)) →
    (m.classN cls = 1 → m.countEvent die src cls = (true, m)) ∧ (2 ≤ m.classN cls → m.countEvent die src cls =
      (false, { m with coll := { m.coll with counts := m.coll.counts.filter (fun x => !(x.die == die && x.src == src)) ++ [{ die := die, src := src, n := 1, at_ := m.now }] } }))) ∧
  (∀ (m : Main) (die src cls : Nat) (x : CountSt), m.coll.counts = [x] → x.die = die → x.src = src →
    (m.now < x.at_ + m.classW cls → m.classN cls ≤ x.n + 1 → m.countEvent die src cls = (true, { m with coll := { m.coll with counts := [] } })) ∧
    (m.now < x.at_ + m.classW cls → x.n + 1 < m.classN cls → m.countEvent die src cls = (false, { m with coll := { m.coll with counts := [{ x with n := x.n + 1 }] } })) ∧
    (x.at_ + m.classW cls ≤ m.now → 2 ≤ m.classN cls → m.countEvent die src cls =
      (false, { m with coll := { m.coll with counts := [{ die := die, src := src, n := 1, at_ := m.now }] } }))) ∧
  (∀ (m : Main) (e : FaultEvent) (cls : Nat) (poss : Bool), let x := m.countEvent e.die.val e.src cls
    let sev := if x.1 = true ∨ e.severe = true then 2 else m.get (F.FAULT_CLASS_CFG_BASE cls)
    let k := if sev = 2 then x.2.bump (F.FAULT_CLASS_STAT_SEVERES cls) else x.2
    let r : React := { seq := k.get F.FAULT_LOGCTL_SEQ, cls := cls, src := e.src, die := e.die.val, named := e.named, detail := e.detail, sev := sev,
                       level := k.classLevel cls sev, at_ := k.now }
    (k.classLevel cls sev = 7 → m.counted e cls poss = k) ∧
    (k.classLevel cls sev ≠ 7 → m.counted e cls poss = (k.logPut e.src e.die.val e.named sev cls e.detail
      { level := (k.reactAs r (k.classLevel cls sev)).1, conseq := false, poss := poss, esc := false, failed := false, link := 0 }).react r (k.classLevel cls sev))) ∧
  (∀ (m : Main) (r : React), (m.react r 0 = m) ∧
    (m.flag F.FAULT_SUMMARY_SELFFAIL = true → ∀ lv, 2 ≤ lv → lv ≤ 6 → m.reactAs r lv = (1, 1)) ∧
    (m.flag F.FAULT_SUMMARY_SELFFAIL = false → m.reactAs r 4 = (4, 4) ∧ m.reactAs r 5 = (5, 5) ∧ m.reactAs r 6 = (6, 6) ∧
      (r.named = 0 → m.reactAs r 3 = (4, 4)) ∧
      (r.named ≠ 0 → m.pop r.named = true → m.dieState r.named = 2 ∨ r.named ∈ m.sys.isol ∨ m.dieState r.named = 4 → m.reactAs r 3 = (3, 1)) ∧
      (1 ≤ r.named → r.named ≤ 5 → m.pop r.named = true → m.dieState r.named = 1 → r.named ∉ m.sys.isol →
        ((∀ d ∈ m.computeDies, d ≠ r.named → m.dieState d = 2 ∨ d ∈ m.sys.isol) → m.reactAs r 3 = (4, 4)) ∧
        ((∃ d ∈ m.computeDies, d ≠ r.named ∧ m.dieState d ≠ 2 ∧ d ∉ m.sys.isol) → m.reactAs r 3 = (3, 3))) ∧
      (m.sys.pow = 0 → m.sys.warm = false → m.react r 5 = (((m.ackStart r 5).reactsEnd).warmReset 4).reactOpen r 5 5) ∧
      m.react r 6 = (m.reactsEnd.reactL6).reactOpen r 6 6 ∧ m.react r 7 = m) ∧
    m.react r 1 = ((m.ackStart r 1).event (768 + r.cls) (faultWord r.src r.die r.sev r.seq)).reactOpen r 1 1) ∧
  (∀ (s : State) (c : Fin 64), (s.main.coll.acks.find? (fun a => a.cls == c.val) = none → Does (.ackTimeout c) s s.main) ∧
    (∀ r, s.main.coll.acks.find? (fun a => a.cls == c.val) = some r → s.main.now < r.at_ + s.main.ackTime c.val → Does (.ackTimeout c) s s.main) ∧
    (∀ r, s.main.coll.acks.find? (fun a => a.cls == c.val) = some r → r.at_ + s.main.ackTime c.val ≤ s.main.now →
      let k : Main := { s.main with coll := { s.main.coll with acks := s.main.coll.acks.filter (fun a => a.cls != c.val) } }
      let lv := k.get (F.FAULT_CLASS_STAT_PEND c.val) + 1
      let seq := k.get F.FAULT_LOGCTL_SEQ
      let e := (k.bump (F.FAULT_CLASS_STAT_ESCS c.val)).event (832 + c.val) (faultWord r.src r.die r.sev seq)
      let put := fun (level : Nat) => e.logPut r.src r.die r.named r.sev c.val r.detail { level := level, conseq := false, poss := false, esc := true, failed := false, link := r.seq }
      (k.get (F.FAULT_CLASS_CFG_ESCMAX c.val) < lv → Does (.ackTimeout c) s (put 7)) ∧
      (lv ≤ 6 → lv ≤ k.get (F.FAULT_CLASS_CFG_ESCMAX c.val) → k.get (F.FAULT_CLASS_CFG_ESCMAX c.val) < 8 →
        Does (.ackTimeout c) s ((put (e.reactAs r lv).1).react { r with seq := seq } lv)))) ∧
  (∀ (s : State) (k : Fin 256), (s.main.coll.reacts[k.val]? = none → Does (.reactionDeadline k) s s.main ∧ Does (.reactionComplete k) s s.main) ∧
    (∀ r, s.main.coll.reacts[k.val]? = some r →
      let limit := if r.level = 2 ∧ 21 ≤ r.src ∧ r.src ≤ 23 then 40000 else 10000
      (s.main.now < r.at_ + limit → Does (.reactionDeadline k) s s.main) ∧
      (r.at_ + limit ≤ s.main.now → let g := s.main.reactGone k.val r
        Does (.reactionDeadline k) s (((g.bump (F.FAULT_CLASS_STAT_FAILS r.cls)).logPut r.src r.die r.named r.sev r.cls r.detail
          { level := (g.reactAs r (r.level + 1)).1, conseq := false, poss := false, esc := false, failed := true, link := r.seq }).react
          { r with seq := g.get F.FAULT_LOGCTL_SEQ } (r.level + 1))) ∧
      (s.main.reactDone r = true → Does (.reactionComplete k) s (s.main.reactGone k.val r)) ∧ (s.main.reactDone r = false → Does (.reactionComplete k) s s.main))) ∧
  (∀ (s : State) (d : Fin 8) (src : Fin 64), Does (.countWindowEnd d src) s { s.main with coll := { s.main.coll with counts := s.main.coll.counts.filter (fun x =>
      !(x.die == d.val && x.src == src.val && decide (x.at_ + s.main.classW (s.main.get (F.FAULT_MAP_CLASS (64 * d.val + src.val))) ≤ s.main.now))) } }) ∧
  (∀ (s : State) (seq : BitVec 32), Does (.shadowEnd seq) s { s.main with coll := { s.main.coll with
      shadows := s.main.coll.shadows.filter (fun x => !(x.seq == seq.toNat && !x.isOpen s.main.now)) } }) ∧
  (∀ s : State, let m := s.main
    (m.flag F.FAULT_ALIVE_START = true → m.coll.aliveAt + m.alivePeriod ≤ m.now → ∃ t, exec .aliveToggle s = .next t ∧ t.main.coll.alive = (!m.coll.alive) ∧ t.main.coll.aliveAt = m.now ∧
      t.isl = { s.isl with aliveAt := s.isl.t } ∧ t.pending = s.pending) ∧
    (m.flag F.FAULT_ALIVE_START = false ∨ m.now < m.coll.aliveAt + m.alivePeriod → exec .aliveToggle s = .next s) ∧
    (m.now < m.coll.checkAt + 1000000 → Does .selfCheck s m) ∧
    (m.coll.checkAt + 1000000 ≤ m.now → Does .selfCheck s { m with coll := { m.coll with
      checkAt := m.now, echoes := (List.range 8).filter (fun d => m.pop d && (d == 0 || m.dieLive d)) } }) ∧
    Does .selfCheckFailure s (((m.aliveStop 2).set F.FAULT_SUMMARY_SELFFAIL 1).raiseSrc 0 0 0 2) ∧ Does .clockFailure s ((m.aliveStop 3).set F.FAULT_SUMMARY_CLKFAIL 1) ∧
    Does .clkRef s (m.raiseSrc 1 0 0 0) ∧
    (∀ d : Fin 8, d.val ∈ m.coll.echoes → m.coll.checkAt + 10000 ≤ m.now → let k : Main := { m with coll := { m.coll with echoes := m.coll.echoes.filter (fun x => x != d.val) } }
      (d.val ≠ 0 → Does (.echoTimeout d) s (k.raiseSrc 0 d.val d.val 1)) ∧
      (d.val = 0 → Does (.echoTimeout d) s (((k.aliveStop 2).set F.FAULT_SUMMARY_SELFFAIL 1).raiseSrc 0 0 0 1))) ∧
    (∀ d : Fin 8, d.val ∉ m.coll.echoes → Does (.echoTimeout d) s m) ∧
    (∀ w, (m.aliveStop w).flag F.FAULT_ALIVE_START = false ∧ (m.aliveStop w).get F.FAULT_SUMMARY_ALIVESTOP = 1 ∧ (m.aliveStop w).get F.FAULT_SUMMARY_STOPWHY = w % 4)) ∧
  (∀ (s : State) (p : Path) (v : Word), s.main.asleep = false → let m := s.main.touch p
    (p = .ctx0 ∨ p = .ctx255 → bitsOf v.toNat 10 1 = 1 → m.aliveMay = true → m.flag F.FAULT_ALIVE_START = false → ∃ k, Does (.aliveStart p v) s k ∧
      k.flag F.FAULT_ALIVE_START = true ∧ k.get F.FAULT_SUMMARY_ALIVESTOP = 0 ∧ k.get F.FAULT_ALIVE_PERIOD = bitsOf v.toNat 0 10 ∧ k.coll.aliveAt = m.now) ∧
    (p = .ctx0 ∨ p = .ctx255 → m.aliveMay = false → Does (.aliveStart p v) s ((m.set F.FAULT_ALIVE_PERIOD (bitsOf v.toNat 0 10)).extAnswer p 0 [])) ∧
    (m.aliveMay = true → m.flag F.FAULT_SUMMARY_SELFFAIL = false ∧ m.flag F.FAULT_SUMMARY_CLKFAIL = false ∧ m.mode ≠ 0 ∧ m.mode ≠ 7 ∧ m.mode ≠ 11) ∧
    (p = .ctx0 ∨ p = .ctx255 → bitsOf v.toNat 9 1 = 1 → m.pop (bitsOf v.toNat 6 3) = true → srcOn (bitsOf v.toNat 0 6) (bitsOf v.toNat 6 3) = true →
      Does (.faultInject p v) s (((m.injectNamed (bitsOf v.toNat 0 6) (bitsOf v.toNat 6 3)).2.raiseSrc (bitsOf v.toNat 0 6) (bitsOf v.toNat 6 3)
        (m.injectNamed (bitsOf v.toNat 0 6) (bitsOf v.toNat 6 3)).1 0).extAnswer p 0 [])) ∧
    (p = .ctx0 ∨ p = .ctx255 → srcOn (bitsOf v.toNat 0 6) (bitsOf v.toNat 6 3) = false → Does (.faultInject p v) s (m.extAnswer p 0 [])) ∧
    (p = .ctx0 ∨ p = .ctx255 → bitsOf v.toNat 16 1 = 1 → Does (.faultRaiseWrite p v) s ((m.raiseSrc 40 0 0 (bitsOf v.toNat 0 16)).extAnswer p 0 [])) ∧
    (p ≠ .ctx0 → p ≠ .ctx255 → Does (.faultInject p v) s (m.extAnswer p 2 []) ∧ Does (.faultRaiseWrite p v) s (m.extAnswer p 2 [])) ∧
    (∀ c : Fin 64, 1 ≤ m.pathLevel p → bitsOf v.toNat 0 1 = 1 →
      Does (.classAck p c v) s ((Main.set { m with coll := { m.coll with acks := m.coll.acks.filter (fun a => a.cls != c.val) } } (F.FAULT_CLASS_STAT_PEND c.val) 7).extAnswer p 0 [])) ∧
    (∀ c : Fin 64, m.pathLevel p = 0 → Does (.classAck p c v) s (m.extAnswer p 2 [])) ∧
    (2 ≤ m.pathLevel p → bitsOf v.toNat 9 1 = 1 → ∃ k, Does (.logClear p v) s k ∧ k.get F.FAULT_LOGCTL_SEQ = 0 ∧ k.get F.FAULT_LOGCTL_NEXT = 0 ∧ k.get F.FAULT_LOGCTL_WRAPPED = 0 ∧
      (∀ w, w < 4 → k.get (F.FAULT_FIRST_WORD w) = 0) ∧ ∀ i w, i < 256 → w < 4 → k.get (F.FAULT_LOG_WORD i w) = 0) ∧
    (∀ d : Fin 8, 2 ≤ m.pathLevel p → ∃ k, Does (.diestatClear p d v) s k ∧ ∀ i, i < 64 →
      bitsOf (k.get (F.FAULT_DIESTAT_SRC d.val)) i 1 = if bitsOf v.toNat i 1 = 1 then 0 else bitsOf (m.get (F.FAULT_DIESTAT_SRC d.val)) i 1))

/-- R518 to R522, R531 to R541: mode requests, STANDBY, dormant dies, performance levels and temperatures. A request that R520 refuses sets REFUSED and REASON, raises event 929 and changes nothing else; an accepted one changes the mode (RUN with an
isolated die is DEGRADED), or begins STANDBY. A change of level moves the voltage first on the way up and the frequency first on the way down; a read outside 15 mV repeats up to 8 times. The order in which the reasons of R520 are judged is the model's
(log 137).
L4 and L6 in STANDBY and BOOT follow log 237 and 238. -/
def Obligations.ModesAndPower : Prop :=
  (∀ (m : Main) (mode why : Nat), mode < 16 → why < 16 → (m.modeChange mode why).mode = mode ∧ (m.modeChange mode why).get F.MODE_CUR_PREV = m.mode % 16 ∧
    (m.modeChange mode why).get F.MODE_CUR_WHY = why ∧ ∀ o, m.modeAllows mode o = false → (m.modeChange mode why).enabled o = false) ∧
  (∀ (s : State) (p : Path) (t : BitVec 4), s.main.asleep = false → let m := s.main.touch p
    let ok := fun (x : Main) => x.extAnswer p 0 []
    let k := m.set F.MODE_STAT_LASTREQ t.toNat
    let isl := m.get F.SAFE_OUT_STOREL ≠ 0 ∨ m.get F.SAFE_OUT_BRKREL ≠ 0
    let refuse := fun (reason : Nat) => (((k.set F.MODE_STAT_REFUSED 1).set F.MODE_STAT_REASON reason).event 929 (t.toNat + reason * 16))
    (m.pathLevel p = 0 → Does (.modeRequest p t) s (m.extAnswer p 2 [])) ∧
    (m.pathLevel p ≠ 0 → p = .debug → Does (.modeRequest p t) s (ok (refuse 6))) ∧
    (m.pathLevel p ≠ 0 → p ≠ .debug →
      (m.sys.back ≠ none → Does (.modeRequest p t) s (ok (refuse 4))) ∧
      (m.sys.back = none → t.toNat ∉ modeTargets m.mode → Does (.modeRequest p t) s (ok (refuse 1))) ∧
      (m.sys.back = none → t.toNat ∈ modeTargets m.mode →
        ((t = 8 ∧ m.pathLevel p < 2) ∨ (t = 9 ∧ m.pathLevel p < 3) → Does (.modeRequest p t) s (ok (refuse 2))) ∧
        (t = 2 ∨ t = 10 → isl → Does (.modeRequest p t) s (ok (refuse 3))) ∧
        (t = 3 ∨ t = 4 → m.modeBusy = true → Does (.modeRequest p t) s (ok (refuse 4))) ∧
        (t = 3 ∨ t = 4 → m.modeBusy = false → Does (.modeRequest p t) s (ok (k.modeChange (if t = 4 ∧ m.isolated = true then 6 else t.toNat) 0))) ∧
        ((t = 8 ∧ 2 ≤ m.pathLevel p) ∨ (t = 9 ∧ 3 ≤ m.pathLevel p) ∨ (t = 2 ∧ ¬ isl) → m.modeBusy = false → Does (.modeRequest p t) s (ok (k.modeChange t.toNat 0))) ∧
        (t = 10 → ¬ isl → m.modeBusy = false → m.sys.isol ≠ [] → Does (.modeRequest p t) s (ok (refuse 5))) ∧
        (t = 10 → ¬ isl → m.modeBusy = false → m.sys.isol = [] → Does (.modeRequest p t) s (ok k.standbyEnter))))) ∧
  (modeTargets 3 = [4, 2, 8, 9, 10] ∧ modeTargets 4 = [3, 8, 9, 10] ∧ modeTargets 6 = [3, 8, 9, 10] ∧ modeTargets 2 = [3, 8] ∧ modeTargets 8 = [3, 4, 2, 9, 10] ∧
    modeTargets 9 = [3, 4, 8] ∧ modeTargets 7 = [3, 4, 8] ∧ ∀ x ∈ [0, 1, 5, 10, 11], modeTargets x = []) ∧
  (∀ m : Main, (m.modeBusy = true ↔ (∃ k, k < 4 ∧ (m.get (F.CHG_STAT_STATE k) = 1 ∨ m.get (F.CHG_STAT_STATE k) = 2)) ∨
    ∃ d, d < 8 ∧ (m.dieState d = 3 ∨ m.dieState d = 5 ∨ m.dieState d = 6))) ∧
  (∀ m : Main, m.standbyEnter.get F.MODE_STAT_CHANGING = 1 ∧ m.standbyEnter.sys.back = some m.mode ∧ m.standbyEnter.flag F.FAULT_ALIVE_START = false ∧
    m.standbyEnter.get F.FAULT_SUMMARY_STOPWHY = 0) ∧
  (∀ s : State, let m := s.main
    (m.sys.back = none ∨ m.sys.waking = true ∨ m.mode = 10 ∨ (∃ d ∈ m.computeDies, m.dieState d = 1 ∨ m.dieState d = 3) → Does .standbyEntryDone s m) ∧
    (m.sys.back ≠ none → m.sys.waking = false → m.mode ≠ 10 → (∀ d ∈ m.computeDies, m.dieState d ≠ 1 ∧ m.dieState d ≠ 3) → m.sys.wake = none →
      ∃ k, Does .standbyEntryDone s k ∧ k.mode = 10 ∧ k.get F.MODE_STAT_CHANGING = 0 ∧ k.sys.back = some m.mode ∧ ∀ d, d = 6 ∨ d = 7 → m.pop d = true → k.get (F.MEMCTL_STAT_READY d) = 0) ∧
    (∀ src, m.sys.back = none ∨ m.sys.waking = true → Does (.standbyWake src) s m) ∧
    (m.flag F.MODE_STBY_WAKEN = false → Does (.standbyWake .wakeN) s m) ∧ (m.flag F.MODE_STBY_SVCEN = false → Does (.standbyWake .service) s m) ∧
    (∀ d tj, m.pop d.val = false ∨ tj.toInt ≤ 1240 → Does (.standbyWake (.temperature d tj)) s m) ∧
    (m.sys.back ≠ none → m.sys.waking = false → m.mode ≠ 10 → m.sys.wake = none →
      (m.flag F.MODE_STBY_WAKEN = true → Does (.standbyWake .wakeN) s { m with sys := { m.sys with wake := some 0 } }) ∧
      (m.flag F.MODE_STBY_SVCEN = true → Does (.standbyWake .service) s { m with sys := { m.sys with wake := some 1 } })) ∧
    (∀ src n, (src = .wakeN ∧ n = 0 ∧ m.flag F.MODE_STBY_WAKEN = true) ∨ (src = .service ∧ n = 1 ∧ m.flag F.MODE_STBY_SVCEN = true) ∨
        (∃ d tj, src = .temperature d tj ∧ n = 2 ∧ m.pop d.val = true ∧ 1240 < tj.toInt) → m.sys.back ≠ none → m.sys.waking = false → m.mode = 10 →
      ∃ k, Does (.standbyWake src) s k ∧ k.get F.MODE_STBY_LASTWAKE = n ∧
        (∀ n, n < 64 → m.get (F.AXIS_CFG_MODE n) ≠ 0 → k.get (F.AXIS_STAT_LOSTPOS n) = 1) ∧
        (∀ d tj, src = .temperature d tj → d.val ∉ m.sys.hot → ∃ e, k.coll.inbox.getLast? = some e ∧ e.src = 4 ∧ e.die = d ∧ e.detail = tj.toNat))) ∧
  (∀ (m : Main) (md : Nat), ((∀ d ∈ m.computeDies, d ∈ m.sys.isol) → m.modeBack md = 7) ∧
    ((∃ d ∈ m.computeDies, d ∉ m.sys.isol) → (md ≠ 4 → md ≠ 5 → md ≠ 6 → m.modeBack md = md) ∧
      (md = 4 ∨ md = 5 ∨ md = 6 → (∃ d ∈ m.computeDies, d ∈ m.sys.isol) → m.modeBack md = 6) ∧
      (md = 4 ∨ md = 6 → (∀ d ∈ m.computeDies, d ∉ m.sys.isol) → m.modeBack md = 4))) ∧
  (∀ m : Main, m.mode ≠ 0 → m.reactL6.mode = 11 ∧ m.reactL6.flag F.FAULT_ALIVE_START = false ∧
    (m.sys.back ≠ none → m.reactL6.sys.back = none ∧ m.reactL6.sys.waking = false ∧ m.reactL6.get F.MODE_STAT_CHANGING = 0)) ∧
  (∀ (s : State) (d : Fin 8), let m := s.main
    let refuse := fun (reason : Nat) => (((m.set F.MODE_STAT_REFUSED 1).set F.MODE_STAT_REASON reason).event 929 (reason * 16 + d.val * 128))
    (m.compute d.val = false ∨ m.sys.back ≠ none → Does (.dieDormantRequest d) s (refuse 4)) ∧
    (m.compute d.val = true → m.sys.back = none → m.dieState d.val ≠ 1 → m.dieState d.val ≠ 5 → Does (.dieDormantRequest d) s (refuse 4)) ∧
    (m.compute d.val = true → m.sys.back = none → m.dieState d.val = 1 → m.sys.dorm = [] →
      ((∀ e ∈ m.computeDies, e ≠ d.val → m.dieState e ≠ 1) → Does (.dieDormantRequest d) s (refuse 7)) ∧
      ((∃ e ∈ m.computeDies, e ≠ d.val ∧ m.dieState e = 1) → m.flag (F.PWR_STAT_CHANGING d.val) = false → Does (.dieDormantRequest d) s (m.dormantEnter d.val)) ∧
      ((∃ e ∈ m.computeDies, e ≠ d.val ∧ m.dieState e = 1) → m.flag (F.PWR_STAT_CHANGING d.val) = true →
        Does (.dieDormantRequest d) s (Main.set { m with sys := { m.sys with dorm := [d.val] } } (F.PWR_STAT_PENDV d.val) 0))) ∧
    (m.dieState d.val ≠ 3 → Does (.dormantEntryDone d) s m) ∧
    (m.dieState d.val = 3 → ∃ k, Does (.dormantEntryDone d) s k ∧ (m.get (F.MODE_DIE_WAKEPEND d.val) = 0 → k.dieState d.val = 4) ∧
      (m.get (F.MODE_DIE_WAKEPEND d.val) = 1 → k.dieState d.val = 5)) ∧
    (m.sys.back ≠ none → Does (.dieWakeRequest d) s (refuse 4)) ∧
    (m.sys.back = none → m.dieState d.val = 3 → Does (.dieWakeRequest d) s (m.set (F.MODE_DIE_WAKEPEND d.val) 1)) ∧
    (m.sys.back = none → m.dieState d.val ≠ 3 → m.dieState d.val ≠ 4 → Does (.dieWakeRequest d) s m) ∧
    (m.sys.back = none → m.dieState d.val = 4 → ∃ k, Does (.dieWakeRequest d) s k ∧ k.dieState d.val = 5 ∧ k.get (F.MODE_DIE_WAKEPEND d.val) = 0)) ∧
  ([0, 1, 2, 3, 4, 5, 6, 7].map plMv = [600, 600, 620, 650, 700, 750, 800, 850]) ∧
  (∀ (s : State) (d : Fin 8) (v : Word), let m := s.main
    let k := m.set (F.PWR_REQ_LEVEL d.val) (v.toNat % 8)
    let t := Nat.min (v.toNat % 8) (m.get (F.PWR_STAT_CAP d.val))
    let cur := m.get (F.PWR_STAT_CUR d.val)
    (m.compute d.val = false ∨ m.dieState d.val ≠ 1 ∨ m.sys.back ≠ none → Does (.pwrReqWrite d v) s m) ∧
    (m.compute d.val = true → m.dieState d.val = 1 → m.sys.back = none →
      (m.flag (F.PWR_STAT_CHANGING d.val) = false → t = cur → Does (.pwrReqWrite d v) s k) ∧
      (m.flag (F.PWR_STAT_CHANGING d.val) = false → cur < t → Does (.pwrReqWrite d v) s
        ((((k.set (F.PWR_STAT_TARGET d.val) t).set (F.PWR_STAT_CHANGING d.val) 1).putPwrChg { die := d.val, to_ := t, up := true, phase := 0, at_ := m.now, reps := 0 }).busJoin d.val)) ∧
      (m.flag (F.PWR_STAT_CHANGING d.val) = false → t < cur → Does (.pwrReqWrite d v) s
        (((k.set (F.PWR_STAT_TARGET d.val) t).set (F.PWR_STAT_CHANGING d.val) 1).putPwrChg { die := d.val, to_ := t, up := false, phase := 3, at_ := m.now, reps := 0 })) ∧
      (m.flag (F.PWR_STAT_CHANGING d.val) = true → m.flag (F.PWR_STAT_PENDV d.val) = false → Does (.pwrReqWrite d v) s
        ((k.set (F.PWR_STAT_PEND d.val) t).set (F.PWR_STAT_PENDV d.val) 1)) ∧
      (m.flag (F.PWR_STAT_CHANGING d.val) = true → m.flag (F.PWR_STAT_PENDV d.val) = true → Does (.pwrReqWrite d v) s
        (((((k.set (F.PWR_STAT_REQ_REPLACED d.val) 1).bump (F.PWR_STAT_REPLACES d.val)).set (F.PWR_STAT_PEND d.val) t).set (F.PWR_STAT_PENDV d.val) 1))))) ∧
  (∀ (s : State) (d : Fin 8) (x : PwrChg), s.main.pwrChg d.val = some x → let m := s.main
    (x.phase = 0 → m.sys.busq.head? = some d.val → Does (.voutCommandDone d) s (m.busDone.putPwrChg { x with phase := 1, at_ := m.now })) ∧
    (x.phase ≠ 0 ∨ m.sys.busq.head? ≠ some d.val → Does (.voutCommandDone d) s m) ∧
    (x.phase = 1 → let due := x.at_ + 1000 * Nat.max 1 (Nat.min 1000 (m.get (F.PWR_CFG_VSETTLE d.val)))
      (m.now < due → Does (.voltageSettleExpiry d) s m) ∧ (due ≤ m.now → Does (.voltageSettleExpiry d) s ((m.putPwrChg { x with phase := 2, at_ := m.now }).busJoin d.val))) ∧
    (x.phase ≠ 1 → Does (.voltageSettleExpiry d) s m) ∧
    (x.phase = 3 → (x.up = true → Does (.frequencySwitch d) s ((m.set (F.PWR_STAT_CUR d.val) x.to_).pwrEnd d.val true)) ∧
      (x.up = false → Does (.frequencySwitch d) s (((m.set (F.PWR_STAT_CUR d.val) x.to_).putPwrChg { x with phase := 0, at_ := m.now }).busJoin d.val))) ∧
    (x.phase ≠ 3 → Does (.frequencySwitch d) s m) ∧
    (∀ mv : BitVec 16, let near := mv.toNat ≤ plMv x.to_ + 15 ∧ plMv x.to_ ≤ mv.toNat + 15
      (m.sys.busq.head? ≠ some d.val → Does (.voutReadback d mv) s m) ∧
      (x.phase = 2 → m.sys.busq.head? = some d.val →
        (near → x.up = true → Does (.voutReadback d mv) s (m.busDone.putPwrChg { x with phase := 3, at_ := m.now })) ∧
        (near → x.up = false → Does (.voutReadback d mv) s (m.busDone.pwrEnd d.val true)) ∧
        (¬ near → x.reps < 8 → Does (.voutReadback d mv) s (m.busDone.putPwrChg { x with phase := 1, at_ := m.now, reps := x.reps + 1 })) ∧
        (¬ near → 8 ≤ x.reps → let y := (m.busDone.set (F.PWR_STAT_VFAIL d.val) 1).vcoreRail d.val
          Does (.voutReadback d mv) s ((y.2.raiseSrc 38 0 d.val y.1).pwrEnd d.val false))))) ∧
  (∀ (m : Main) (d : Nat) (ok : Bool), m.sys.dorm = [] → d < 8 → m.get (F.PWR_STAT_PENDV d) = 0 →
    (m.pwrEnd d ok).get (F.PWR_STAT_CHANGING d) = 0 ∧ (m.pwrEnd d ok).get (F.PWR_STAT_TARGET d) = m.get (F.PWR_STAT_CUR d) % 8 ∧
    (m.pwrEnd d ok).sys.chgs = m.sys.chgs.filter (fun x => x.die != d)) ∧
  (∀ (cap : Nat) (tj : Int), (1160 < tj → capNext cap tj = 3) ∧ (tj ≤ 1160 → 1120 < tj → capNext cap tj = if cap = 3 then 3 else 5) ∧
    (tj ≤ 1120 → 1080 < tj → capNext cap tj = 5) ∧ (tj ≤ 1080 → 1040 < tj → capNext cap tj = if cap = 7 then 7 else 5) ∧ (tj ≤ 1040 → capNext cap tj = 7)) ∧
  (∀ (s : State) (p : Fin 8) (tj : BitVec 12), let m := s.main
    let hot := decide (1240 < tj.toInt)
    let h : Main := { m.set (F.SURVEY_TEMP_TJ p.val) (uns 16 tj.toInt) with sys := { m.sys with hot := m.sys.hot.filter (fun x => x != p.val) ++ (if hot then [p.val] else []) } }
    let k := if hot && !(m.sys.hot.contains p.val) then h.raiseSrc 4 p.val p.val tj.toNat else h
    (m.mode = 0 ∨ m.mode = 10 ∨ m.pop p.val = false ∨ m.dieLive p.val = false → Does (.temperatureUpdate p tj) s m) ∧
    (m.mode ≠ 0 → m.mode ≠ 10 → m.pop p.val = true → m.dieLive p.val = true →
      (1 ≤ p.val → p.val ≤ 5 → Does (.temperatureUpdate p tj) s
        (((k.set (F.PWR_THERM_TJ p.val) tj.toNat).retBlock p.val (decide (1000 < tj.toInt))).capSet p.val (capNext (m.get (F.PWR_STAT_CAP p.val)) tj.toInt) tj.toNat)) ∧
      (6 ≤ p.val → Does (.temperatureUpdate p tj) s (k.set (F.MEMCTL_STAT_REFX p.val) (if 1000 < tj.toInt then 2 else if 680 < tj.toInt then 1 else 0))))) ∧
  (∀ (m : Main) (d cap tj : Nat), cap < 8 → d < 8 → (m.capSet d (m.get (F.PWR_STAT_CAP d)) tj = m) ∧ (cap ≠ m.get (F.PWR_STAT_CAP d) → m.flag (F.PWR_STAT_CHANGING d) = true → m.get (F.PWR_STAT_CAP d) < cap →
    m.get (F.PWR_REQ_LEVEL d) ≤ m.get (F.PWR_STAT_CUR d) → m.capSet d cap tj = (m.set (F.PWR_STAT_CAP d) cap).event (944 + d) (cap + tj * 2 ^ 16))) ∧
  (∀ (m : Main) (d r : Nat), (List.range 16).filter (fun k => m.flag (F.PMB_RAIL_EN k) && m.get (F.PMB_RAIL_KIND k) == d) = [r] → m.vcoreRail d = (r, m))

/-- R14 to R16, R78, R518, R521, R525 to R530, R536: the resets. A field of a register in the scope of a reset keeps its value where its Kept-by mark names the kind, and returns to its reset value otherwise; the island's registers stay. A tuft reset empties one
tuft and breaks the contexts that had work there; a context reset makes the context FREE; a die reset puts the die in RESETTING, through DEGRADED where ISOLATE asks for it; a warm, pin or power-on reset restarts the main
domains, never the island (R525).
The order of the rails of one kind at power-on is log 239. -/
def Obligations.Resets : Prop :=
  (∀ mask : Nat, ResetKind.powerOn.keeps mask = false ∧ (ResetKind.pin.keeps mask = true ↔ bitsOf mask 0 1 = 1) ∧ (ResetKind.warm.keeps mask = true ↔ bitsOf mask 1 1 = 1) ∧
    (ResetKind.die.keeps mask = true ↔ bitsOf mask 2 1 = 1) ∧ (ResetKind.tuft.keeps mask = true ↔ bitsOf mask 3 1 = 1) ∧
    (ResetKind.context.keeps mask = true ↔ bitsOf mask 4 1 = 1)) ∧
  (∀ (m : Main) (k : ResetKind) (p : RegAt → Bool) (f : Fld) (a : RegAt), m.regAt (f.key / 64 * 8) = some a →
    (p a = false ∨ a.row.name.islandHolds = true → (m.resetRegs k p).get f = m.get f) ∧
    (∀ x, p a = true → a.row.name.islandHolds = false → a.row.fields.find? (fun y => y.lo == f.key % 64) = some x →
      (m.resetRegs k p).get f = if k.keeps x.kept then m.get f else f.rst)) ∧
  (∀ (s : State) (d t : Fin 8), let m := s.main
    let p := fun (x y : Fin 8) => x.val == d.val && y.val == t.val
    (m.compute d.val = false ∨ m.dieLive d.val = false ∨ m.sys.pow ≠ 0 ∨ m.sys.warm = true → Does (.tuftReset d t) s m) ∧
    (m.compute d.val = true → m.dieLive d.val = true → m.sys.pow = 0 → m.sys.warm = false → ∃ k, Does (.tuftReset d t) s k ∧
      k.tuft.ms = m.tuft.ms.filter (fun e => !p e.die e.tuft) ∧ k.tuft.spill = m.tuft.spill.filter (fun e => !p e.die e.tuft) ∧
      k.tuft.recs = m.tuft.recs.filter (fun e => !p e.die e.tuft) ∧ k.tok.ready = m.tok.ready.filter (fun f => !p f.die f.tuft) ∧
      (∀ e ∈ k.tuft.weir, p e.die e.tuft = false) ∧ (∀ c ∈ m.tuftWork p, m.dead c.toNat = false → k.run c.toNat = 3) ∧
      (∀ c, c < 256 → BitVec.ofNat 8 c ∉ m.tuftWork p → k.run c = m.run c))) ∧
  (∀ (s : State) (c : BitVec 8), (c = 0 ∨ c = 255 ∨ s.main.sys.pow ≠ 0 ∨ s.main.sys.warm = true → Does (.contextReset c) s s.main) ∧
    (c ≠ 0 → c ≠ 255 → s.main.sys.pow = 0 → s.main.sys.warm = false → ∃ k, Does (.contextReset c) s k ∧ k.run c.toNat = 0 ∧ k.get F.MODE_CTXRST_BUSY = 1 ∧
      k.tuft.ms = s.main.tuft.ms.filter (fun e => e.ctx != c) ∧ k.tuft.spill = s.main.tuft.spill.filter (fun e => e.ctx != c) ∧
      k.tuft.recs = s.main.tuft.recs.filter (fun e => e.ctx != c) ∧ (∀ t ∈ k.tok.inflight, t.ctx ≠ c) ∧
      (∀ f ∈ k.tok.ready, f.ctx ≠ c) ∧ ∀ o ∈ k.ref.outs, o.ctx ≠ c.toNat) ∧
    Does .contextResetDone s (s.main.set F.MODE_CTXRST_BUSY 0)) ∧
  (∀ (s : State) (d : Fin 8) (iso : Bool), let m := s.main
    (d = 0 ∨ m.pop d.val = false ∨ m.sys.pow ≠ 0 ∨ m.sys.warm = true → Does (.dieReset d iso) s m) ∧
    (d ≠ 0 → m.pop d.val = true → m.sys.pow = 0 → m.sys.warm = false →
      (m.dieState d.val = 5 ∨ m.dieState d.val = 6 → Does (.dieReset d iso) s m) ∧
      (m.dieState d.val = 3 → Does (.dieReset d iso) s (m.set (F.MODE_DIE_WAKEPEND d.val) 1)) ∧
      (m.dieState d.val = 4 → ∃ k, Does (.dieReset d iso) s k ∧ k.dieState d.val = 5) ∧
      (m.dieState d.val = 2 ∨ (m.dieState d.val = 1 ∧ (iso = false ∨ 6 ≤ d.val)) → ∃ k, Does (.dieReset d iso) s k ∧ k.dieState d.val = 6 ∧ k.mode = m.mode) ∧
      (m.dieState d.val = 1 → iso = true → d.val ≤ 5 → m.mode = 4 →
        ((∀ e ∈ m.computeDies, e ≠ d.val → m.dieState e = 2 ∨ e ∈ m.sys.isol) → ∃ k, Does (.dieReset d iso) s k ∧ k.dieState d.val = 6 ∧ k.mode = 7 ∧ k.sys.isol = m.sys.isol) ∧
        ((∃ e ∈ m.computeDies, e ≠ d.val ∧ m.dieState e ≠ 2 ∧ e ∉ m.sys.isol) → ∃ k, Does (.dieReset d iso) s k ∧ k.dieState d.val = 6 ∧ d.val ∈ k.sys.isol ∧
          k.mode = if (m.isolateAs d.val).1 = true then 7 else 6)))) ∧
  (∀ (s : State) (d : Fin 8), let m := s.main
    (m.dieState d.val ≠ 5 → m.dieState d.val ≠ 6 → Does (.dieRejoin d) s m) ∧
    (m.dieState d.val = 5 ∨ m.dieState d.val = 6 →
      (m.linkState d.val 0 0 d.val = 1 → Does (.dieRejoin d) s m) ∧
      (m.linkState d.val 0 0 d.val = 2 ∨ m.linkState d.val 0 0 d.val = 3 → (∃ x ∈ m.dieLinks d.val, m.linkState d.val x.1 x.2.1 x.2.2 = 1) → Does (.dieRejoin d) s m) ∧
      (m.linkState d.val 0 0 d.val = 2 ∨ m.linkState d.val 0 0 d.val = 3 → (∀ x ∈ m.dieLinks d.val, m.linkState d.val x.1 x.2.1 x.2.2 ≠ 1) → m.sys.dorm = [] → m.sys.waking = false → ∃ k, Does (.dieRejoin d) s k ∧
        k.dieState d.val = 1 ∧ d.val ∉ k.sys.isol ∧ (m.mode = 6 → m.sys.isol = [d.val] → k.mode = 4) ∧ (m.mode ≠ 6 → k.mode = m.mode)) ∧
      (m.linkState d.val 0 0 d.val = 4 → m.sys.waking = false → ∃ k, Does (.dieRejoin d) s k ∧ k.dieState d.val = 2 ∧ d.val ∈ k.sys.isol ∧
        ((∀ e ∈ m.computeDies, e = d.val ∨ e ∈ m.sys.isol) → m.mode = 3 ∨ m.mode = 4 ∨ m.mode = 6 → k.mode = 7)))) ∧
  (∀ (s : State) (p : Path), let m := s.main
    (m.asleep = false → m.pathLevel p < 2 → Does (.warmReset p) s ((m.touch p).extAnswer p 2 [])) ∧
    (m.asleep = false → 2 ≤ m.pathLevel p → m.sys.pow ≠ 0 ∨ m.sys.warm = true → Does (.warmReset p) s ((m.touch p).extAnswer p 0 [])) ∧
    (m.asleep = false → 2 ≤ m.pathLevel p → m.sys.pow = 0 → m.sys.warm = false → ∃ k, Does (.warmReset p) s k ∧ k.mode = 1 ∧ k.flag F.FAULT_ALIVE_START = false ∧ k.get F.FAULT_SUMMARY_STOPWHY = 1 ∧
      k.get F.MODE_RSTCAUSE_LAST = (if p = .usb ∨ p = .i2c then 3 else 2) ∧ k.get F.FAULT_LOGCTL_SEQ = m.get F.FAULT_LOGCTL_SEQ ∧
      k.tok.inflight = [] ∧ k.tok.arrived = [] ∧ k.tok.ready = [] ∧ k.tuft = Main.reset.tuft ∧ k.runnels = [] ∧ k.flumes = [] ∧ k.ref.slots = [] ∧ k.wall = m.wall ∧
      k.sys.warm = true ∧ (∀ d, d ≠ 0 → d < 8 → m.pop d = true → k.dieState d = if m.dieState d = 4 then 5 else 6) ∧ (∀ c, c < 256 → k.run c = 0))) ∧
  (∀ (s : State), let m := s.main
    (m.sys.pow = 0 → ∃ k, Does (.pinReset .start) s k ∧ k.mode = 0 ∧ k.sys.pow = 3 ∧ k.get F.MODE_RSTCAUSE_LAST = 1 ∧
      k.get F.FAULT_LOGCTL_SEQ = m.get F.FAULT_LOGCTL_SEQ ∧ k.wall = m.wall ∧ k.tok = Main.reset.tok ∧ k.mem = Main.reset.mem ∧ k.sys.rails = m.sys.rails ∧ (∀ c, c < 256 → k.run c = 0)) ∧
    (m.sys.pow ≠ 0 → Does (.pinReset .start) s m) ∧
    (m.sys.pow = 3 → ∃ k, Does (.pinReset .run) s k ∧ k.sys.pow = 6 ∧ k.mode = m.mode) ∧ (m.sys.pow ≠ 3 → Does (.pinReset .run) s m) ∧
    (m.sys.pow ≠ 5 → ∃ k, Does (.powerOnReset .start) s k ∧ k.mode = 0 ∧ k.sys.pow = 1 ∧ k.get F.FAULT_LOGCTL_SEQ = 0 ∧ k.wall = Main.reset.wall ∧ k.tok = Main.reset.tok ∧
      k.mem = Main.reset.mem ∧ k.sys.rails = []) ∧
    (m.sys.pow = 5 → Does (.powerOnReset .start) s m) ∧
    (m.sys.pow = 1 → (∀ k, m.railNext = some k → Does (.powerOnReset .run) s { m with sys := { m.sys with rails := m.sys.rails ++ [k], powAt := m.now } }) ∧
      (m.railNext = none → ∃ k, Does (.powerOnReset .run) s k ∧ k.sys.pow = 4 ∧ k.sys.rails = m.sys.rails)) ∧ (m.sys.pow ≠ 1 → Does (.powerOnReset .run) s m) ∧
    (m.sys.pow ≠ 4 → m.sys.pow ≠ 6 → Does (.powerOnReset .done) s m ∧ Does (.pinReset .done) s m) ∧
    (m.sys.pow = 4 ∨ m.sys.pow = 6 → (∀ d, d < 8 → m.pop d = true → ∀ x ∈ m.dieLinks d, m.linkState d x.1 x.2.1 x.2.2 ≠ 1) → ∃ k, Does (.powerOnReset .done) s k ∧
      Does (.pinReset .done) s k ∧ k.mode = 1 ∧ k.sys.pow = 0 ∧ ∀ d, d = 6 ∨ d = 7 → m.pop d = true → k.get (F.MEMCTL_STAT_READY d) = 1)) ∧
  (∀ (s : State) (k : Fin 16), (s.main.sys.pow ≠ 1 ∨ s.main.railNext ≠ some k.val ∨ s.main.now < s.main.sys.powAt + 10000000 → Does (.railConfirmTimeout k) s s.main) ∧
    (s.main.sys.pow = 1 → s.main.railNext = some k.val → s.main.sys.powAt + 10000000 ≤ s.main.now → Does (.railConfirmTimeout k) s
      (Main.set { s.main with sys := { s.main.sys with pow := 2, powAt := s.main.now, rails := [] } } F.MODE_RSTCAUSE_RAILFAIL (k.val + 1))) ∧
    (s.main.sys.pow = 2 → s.main.sys.powAt + 1000000000 ≤ s.main.now → Does .railRetry s { s.main with sys := { s.main.sys with pow := 1, powAt := s.main.now } }) ∧
    (s.main.sys.pow ≠ 2 ∨ s.main.now < s.main.sys.powAt + 1000000000 → Does .railRetry s s.main)) ∧
  (∀ (m : Main) (k : Nat), (k ∈ m.railOrder ↔ k < 16 ∧ bitsOf (m.otpWord (72 + k)) 19 1 = 1 ∧
      (bitsOf (m.otpWord (72 + k)) 15 4 ∈ [6, 7, 8, 9] ∨ bitsOf (m.otpWord (72 + k)) 15 4 ∈ m.computeDies)) ∧
    m.railNext = m.railOrder[m.sys.rails.length]?)

/-- R544 to R552, R555 to R557: boot, OTP, sessions and graph images. A boot source that SRCMASK denies fails with SRCDENIED, an image that does not come with TIMEOUT, and one that fails a check gives way to the other slot. An image that passes is applied: its hash
is recorded, its sections take effect, contexts 0 and 255 become ACTIVE, and the mode is the one it names. An unlock is refused in lockout or while another path holds a session; a failure is counted, and the fifth begins a lockout. The
byte order of OTP words and the random nonce are the model's (log 155, 12).
Sections are applied in order, and one that waits holds those behind it (log 258, 173). -/
def Obligations.BootAndAccess : Prop :=
  (∀ (s : State) (va vb : BitVec 32), let m := s.main
    let src := m.hw.bootStraps.toNat
    (m.mode ≠ 1 ∨ m.sec.boot ≠ none → Does (.bootStart va vb) s m) ∧
    (m.mode = 1 → m.sec.boot = none →
      (bitsOf (m.otpWord 2) src 1 = 0 → Does (.bootStart va vb) s (((m.set F.SEC_BOOT_SRC src).bump F.SEC_BOOT_COUNT).bootFail 1)) ∧
      (bitsOf (m.otpWord 2) src 1 = 1 → ∃ k, Does (.bootStart va vb) s k ∧ k.mode = 1 ∧ k.get F.SEC_BOOT_SRC = src ∧
        k.sec.boot = some { src := src, slots := if src < 2 then (if va.toNat < vb.toNat then [1, 0] else [0, 1]) else [0], at_ := m.now, staged := none }))) ∧
  (∀ (s : State) (img : List Byte) (b : BootSt), s.main.mode = 1 → s.main.sec.boot = some b → let m := s.main
    let tested := bitsOf (m.otpWord 2) 4 1 = 0 ∨ ((∀ x ∈ m.dredges, x.die = 0 → x.boot = false) ∧ m.flag (F.DREDGE_STAT_FAILED 0) = false)
    (2 ≤ b.src ∨ b.staged ≠ none ∨ ¬ tested → Does (.bootImageReadDone img) s m) ∧
    (b.src < 2 → b.staged = none → tested → ∃ k, Does (.bootImageReadDone img) s k ∧ k.sec.boot = some { b with staged := some img.length }) ∧
    (b.src = 3 → b.staged = none → tested → ∃ k, Does (.bootImageReceived (some img)) s k ∧ k.sec.boot = some { b with staged := some img.length }) ∧
    (b.src = 2 → b.staged = none → tested → ∃ n, Does (.bootImageReceived none) s { m with sec := { m.sec with boot := some { b with staged := some n } } }) ∧
    (b.staged ≠ none ∨ ¬ tested → ∀ o, Does (.bootImageReceived o) s m) ∧
    (2 ≤ b.src → b.staged = none → b.at_ + 60000000000 ≤ m.now → Does .bootTimeout s (m.bootFail 7)) ∧
    (b.src < 2 ∨ b.staged ≠ none ∨ m.now < b.at_ + 60000000000 → Does .bootTimeout s m)) ∧
  (∀ s : State, s.main.mode ≠ 1 ∨ s.main.sec.boot = none → Does .bootVerifyDone s s.main ∧ Does .bootTimeout s s.main ∧ (∀ o, Does (.bootImageReceived o) s s.main) ∧
    ∀ img, Does (.bootImageReadDone img) s s.main) ∧
  (∀ (s : State) (b : BootSt) (len : Nat) (img : List Nat), s.main.mode = 1 → s.main.sec.boot = some b → let m := s.main
    (∀ k, b.apply = some (img, k) → Does .bootVerifyDone s (m.bootApply b img k)) ∧ (b.apply = none → b.staged = none → Does .bootVerifyDone s m) ∧
    (b.apply = none → b.staged = some len → (m.stagedImage len = none → Does .bootVerifyDone s (m.bootNext b 2)) ∧
      (m.stagedImage len = some img →
        (m.imgFails img ≠ 0 → Does .bootVerifyDone s (m.bootNext b (m.imgFails img))) ∧
        (m.imgFails img = 0 → Does .bootVerifyDone s
          (((m.putHash F.SEC_MEAS_HASH (sha384 (img.take (img.length - 96)))).putHash F.SEC_GMEAS_HASH []).bootApply b img 0))))) ∧
  (∀ (m : Main) (img : List Nat) (k : Nat) (x : Section) (l : List Section),
    (m.sectionWaits img x = true → m.secAll img k (x :: l) = (.waits, k, m)) ∧
    (m.sectionWaits img x = false → (m.secApply img x).1 = .done → m.secAll img k (x :: l) = (m.secApply img x).2.secAll img (k + 1) l) ∧
    (m.sectionWaits img x = false → (m.secApply img x).1 ≠ .done → m.secAll img k (x :: l) = ((m.secApply img x).1, k, (m.secApply img x).2))) ∧
  (∀ (m : Main) (b : BootSt) (code x y : Nat) (rest : List Nat), code < 16 →
    (b.slots = x :: y :: rest → y < 2 → (m.bootNext b code).get F.SEC_BOOT_SLOT = y ∧ (m.bootNext b code).get F.SEC_BOOT_BFAILED = 1 ∧
      (m.bootNext b code).sec.boot = some { b with slots := y :: rest, staged := none, apply := none } ∧ (m.bootNext b code).mode = m.mode) ∧
    (b.slots = [x] → (m.bootNext b code).mode = 11 ∧ (m.bootNext b code).get F.SEC_BOOT_FAIL = code ∧ (m.bootNext b code).sec.boot = none)) ∧
  (∀ (m : Main) (img : List Nat), m.imgFails img = 0 → imgNum img 0 4 = 0x4E4C4946 ∧ imgNum img 4 2 = 1 ∧ 1 ≤ imgNum img 6 2 ∧ imgNum img 6 2 ≤ 32 ∧ imgNum img 24 8 = img.length ∧
    m.keyOk (imgNum img 18 1) (imgBytes img 32 96) = true ∧ sigOk (imgBytes img 32 96) (sha384 (img.take (img.length - 96))) (img.drop (img.length - 96)) = true ∧
    ones 64 (m.otpWord 4) ≤ imgNum img 8 4 ∧ ∀ x ∈ imgSections img, x.off + x.len ≤ img.length - 96 ∧ (x.kind = 4 → x.dest = 0)) ∧
  (∀ (m n : Main) (b : BootSt) (img : List Nat) (i j : Nat), let r := m.secAll img i ((imgSections img).drop i)
    (r = (.failed, j, n) → m.bootApply b img i = n.bootFail 6) ∧
    (r = (.waits, j, n) → m.bootApply b img i = { n with sec := { n.sec with boot := some { b with apply := some (img, j) } } }) ∧
    (r = (.done, j, n) → n.isolated = false → let z := m.bootApply b img i
      z.mode = initMode (imgNum img 16 1) ∧ z.run 0 = 1 ∧ z.run 255 = 1 ∧ z.sec.boot = none ∧ z.get F.SEC_BOOT_VERSION = imgNum img 12 4 % 2 ^ 32)) ∧
  (∀ n : Nat, initMode n = if n = 2 ∨ n = 4 ∨ n = 8 then n else 3) ∧
  (∀ (s : State) (p : Path) (pw : List Byte), p = .usb ∨ p = .i2c ∨ p = .debug → s.main.asleep = false → ∃ n, p.number = some n ∧ let m := s.main.touch p
    let code := fun (c : Nat) (r : Nat × Main) => r.2.secAnswer p c r.1 []
    (∀ pec, s.main.pecBad p pec = true → Does (.unlockPw p pw pec) s (s.main.secAnswer p 0x20 6 []) ∧ Does (.response p pw pec) s (s.main.secAnswer p 0x22 6 []) ∧
      Does (.lock p pec) s (s.main.secAnswer p 0x23 6 []) ∧ Does (.setpw p pw pec) s (s.main.secAnswer p 0x24 6 []) ∧ Does (.secStatus p pec) s (s.main.secAnswer p 0x25 6 [])) ∧
    (∀ pec, s.main.pecBad p pec = false →
      Does (.unlockPw p pw pec) s (code 0x20 (m.unlock n 1 (decide (1 ≤ pw.length ∧ pw.length ≤ 32) && match m.pwSlot with
        | some k => m.otpBytes (37 + 4 * k) 4 == sha256 (bytesOf pw)
        | none => false))) ∧
      (∀ level, 2 ≤ level.toNat → level.toNat ≤ 4 → let bytes := leBytes 16 (m.takeFree.1 % 2 ^ 128)
        Does (.challenge p level pec) s (Main.secAnswer { m.takeFree.2 with sec := { m.sec with
          nonce := some { path := n, level := level.toNat, bytes := bytes, at_ := m.now } } } p 0x21 0 bytes)) ∧
      (∀ level, level.toNat < 2 ∨ 4 < level.toNat → Does (.challenge p level pec) s (m.secAnswer p 0x21 2 [])) ∧
      (m.flag F.SEC_STAT_LOCKOUT = true ∨ m.sessionElse n = true → Does (.response p pw pec) s (m.secAnswer p 0x22 2 [])) ∧
      (m.flag F.SEC_STAT_LOCKOUT = false → m.sessionElse n = false → ∀ x, m.sec.nonce = some x → x.path = n →
        let k : Main := { m with sec := { m.sec with nonce := none } }
        Does (.response p pw pec) s (code 0x22 (k.unlock n x.level (decide (m.now ≤ x.at_ + 60000000000) && k.macGood x (bytesOf pw))))) ∧
      Does (.lock p pec) s ((m.sessionEnd n).secAnswer p 0x23 0 []) ∧
      (∀ k, m.flag F.SEC_STAT_SESSION = true → m.get F.SEC_STAT_PATH = n → 2 ≤ m.get F.SEC_STAT_LEVEL → 8 ≤ pw.length → pw.length ≤ 32 → m.pwSlot = some k → k < 7 →
        ∃ z : Main, Does (.setpw p pw pec) s (z.secAnswer p 0x24 0 []) ∧ ∀ i, i < 4 → z.otpWord (37 + 4 * (k + 1) + i) =
          m.otpWord (37 + 4 * (k + 1) + i) ||| leNum (((sha256 (bytesOf pw)).drop (8 * i)).take 8) % 2 ^ 64) ∧
      (m.flag F.SEC_STAT_SESSION = false ∨ m.get F.SEC_STAT_PATH ≠ n ∨ m.get F.SEC_STAT_LEVEL < 2 ∨ pw.length < 8 ∨ 32 < pw.length ∨ m.pwSlot = some 7 →
        Does (.setpw p pw pec) s (m.secAnswer p 0x24 2 [])) ∧
      Does (.secStatus p pec) s (m.secAnswer p 0x25 0 (leBytes 8 m.secStat)))) ∧
  (∀ (m : Main) (n level : Nat), n < 4 → level < 8 →
    (m.flag F.SEC_STAT_LOCKOUT = true ∨ m.sessionElse n = true → ∀ good, m.unlock n level good = (2, m)) ∧
    (m.flag F.SEC_STAT_LOCKOUT = false → m.sessionElse n = false →
      (m.unlock n level true).1 = 0 ∧ (m.unlock n level true).2.flag F.SEC_STAT_SESSION = true ∧ (m.unlock n level true).2.get F.SEC_STAT_PATH = n ∧
      (m.unlock n level true).2.get F.SEC_STAT_LEVEL = level ∧ (m.unlock n level true).2.get F.SEC_STAT_FAILS = 0 ∧
      (m.unlock n level false).1 = 2 ∧ (m.get F.SEC_STAT_FAILS < 4 → (m.unlock n level false).2.get F.SEC_STAT_FAILS = m.get F.SEC_STAT_FAILS + 1 ∧
        (m.unlock n level false).2.flag F.SEC_STAT_LOCKOUT = false) ∧
      (m.get F.SEC_STAT_FAILS = 4 → (m.unlock n level false).2.flag F.SEC_STAT_LOCKOUT = true ∧ (m.unlock n level false).2.sec.lockEnd = some (m.now + 3600000000000)))) ∧
  (∀ (m : Main) (x : Nonce) (mac : List Nat), m.macGood x mac = true → (x.level = 3 ∨ x.level = 4 → m.dbgOff = false) ∧ (x.level = 3 → bitsOf (m.otpWord 69) 0 1 = 1) ∧
    (x.level = 2 ∨ x.level = 3 → mac = hmac256 (m.otpBytes 29 4) (x.bytes ++ m.otpBytes 0 2 ++ [x.level, x.path])) ∧
    (x.level = 4 → mac.take 32 = hmac256 (m.otpBytes 33 4) (x.bytes ++ m.otpBytes 0 2 ++ [4, x.path]) ∧
      mac.drop 32 = hmac256 (m.otpBytes 29 4) (x.bytes ++ m.otpBytes 0 2 ++ [0x84, x.path]))) ∧
  (∀ s : State, let m := s.main
    (∀ t, m.sec.lockEnd = some t → t ≤ m.now → ∃ k, Does .lockoutEnd s k ∧ k.flag F.SEC_STAT_LOCKOUT = false ∧ k.get F.SEC_STAT_FAILS = 0 ∧ k.sec.lockEnd = none) ∧
    (∀ t, m.sec.lockEnd = some t → m.now < t → Does .lockoutEnd s m) ∧ (m.sec.lockEnd = none → Does .lockoutEnd s m) ∧
    (m.flag F.SEC_STAT_SESSION = true → m.sec.last + 900000000000 ≤ m.now → Does .sessionTimeout s (m.sessionEnd (m.get F.SEC_STAT_PATH))) ∧
    (m.flag F.SEC_STAT_SESSION = false ∨ m.now < m.sec.last + 900000000000 → Does .sessionTimeout s m)) ∧
  (∀ (s : State) (p : Path) (v : Word), s.main.asleep = false → let m := s.main.touch p
    let key := bitsOf v.toNat 0 40
    (2 ≤ s.main.pathLevel p → bitsOf v.toNat 42 1 = 1 → m.sec.vfy = none → ∃ k, Does (.graphVerifyStart p v) s k ∧ k.get F.SEC_VFYKEY_BUSY = 1 ∧
      k.sec.vfy = some { addr := m.get F.SEC_VFY_ADDR, len := m.get F.SEC_VFYLEN_LEN, key := key, idx := bitsOf v.toNat 40 2 }) ∧
    (s.main.pathLevel p < 2 → Does (.graphVerifyStart p v) s (m.extAnswer p 2 []))) ∧
  (∀ s : State, (s.main.sec.vfy = none → Does .graphVerifyDone s s.main) ∧
    (∀ x, s.main.sec.vfy = some x → let r := s.main.vfyResult x
      let k := ((Main.set { s.main with sec := { s.main.sec with vfy := none } } F.SEC_VFYKEY_BUSY 0).set F.SEC_VFYKEY_GO 0).set F.SEC_VFYKEY_RESULT r.1
      (r.1 ≠ 0 → Does .graphVerifyDone s k) ∧
      (r.1 = 0 → Does .graphVerifyDone s (k.putHash F.SEC_GMEAS_HASH (sha384 ((List.range 6).flatMap (fun i => leBytes 8 (k.get (F.SEC_GMEAS_HASH i))) ++ r.2)))))) ∧
  (∀ (s : State) (p : Path) (v : Word), s.main.asleep = false → let m := s.main.touch p
    let w := bitsOf v.toNat 0 7
    let d := m.get F.OTP_PROGDATA_DATA
    (s.main.mayWrite p .OTP_PROG v.toNat = false → Does (.otpProgram p v) s (m.extAnswer p 2 [])) ∧
    (s.main.mayWrite p .OTP_PROG v.toNat = true → bitsOf v.toNat 7 1 = 1 → bitsOf v.toNat 9 1 = 0 →
      (m.sec.otp ≠ none → Does (.otpProgram p v) s (m.extAnswer p 0 [])) ∧
      (m.sec.otp = none → otpHidden w = true → m.otpWord w ≠ 0 → Does (.otpProgram p v) s ((m.set F.OTP_PROG_ERR 1).extAnswer p 0 [])) ∧
      (m.sec.otp = none → m.otpWord w ||| d ≠ d → Does (.otpProgram p v) s ((m.set F.OTP_PROG_ERR 1).extAnswer p 0 [])) ∧
      (m.sec.otp = none → (otpHidden w = true → m.otpWord w = 0) → m.otpWord w ||| d = d →
        Does (.otpProgram p v) s ((Main.set { m with sec := { m.sec with otp := some (w, d) } } F.OTP_PROG_BUSY 1).extAnswer p 0 [])))) ∧
  (∀ (s : State) (ok : Bool), (s.main.sec.otp = none → Does (.otpProgramDone ok) s s.main) ∧
    (∀ w d, s.main.sec.otp = some (w, d) →
      let k := Main.set { s.main with sec := { s.main.sec with otp := none } } F.OTP_PROG_BUSY 0
      Does (.otpProgramDone true) s (k.otpFuse w d) ∧
      ∃ x, Does (.otpProgramDone false) s ((k.takeFree.2.otpFuse w x).set F.OTP_PROG_ERR 1) ∧ x &&& d = x)) ∧
  (∀ (m : Main) (k d : Nat), (m.otpFuse k d).otpWord k = m.otpWord k ||| d % 2 ^ 64 ∧ ∀ j, j ≠ k → (m.otpFuse k d).otpWord j = m.otpWord j)

/-- R466: what is not the island's own work leaves the island alone: no command but the safety cycle's, the requests', the island's timers' and diagnostics', its pins', ALIVE_OUT's edge and VSAFE's changes the island's state, at any
security level, in any mode, and whatever the main domains hold. -/
def Obligations.IslandIsolated : Prop :=
  ∀ (c : Instr) (s t : State), exec c s = .next t →
    (∀ h, c ≠ .safetyCycle h) → (∀ a b, c ≠ .safeInputSample a b) → (∀ k l h, c ≠ .testPulse k l h) → (∀ p ∈ islandRequests, c ≠ p.1) →
    c ≠ .psetVerifyDone → c ≠ .psetLoadTimeout → (∀ d, c ≠ .ss1RampExpiry d) → c ≠ .statusPacketPeriod → c ≠ .heartbeatLoss → c ≠ .aliveLoss → c ≠ .aliveToggle →
    (∀ f, c ≠ .islandInitDone f) → (∀ f, c ≠ .islandFault f) → c ≠ .islandWatchdogReset → c ≠ .islandPowerOn → c ≠ .vsafePowerLoss → (∀ d, c ≠ .testDue d) →
    (∀ n a b, c ≠ .safeCounterEdge n a b) → (∀ d, c ≠ .safeCounterIndex d) →
    t.isl = s.isl

/-- R465, R467, R474, R477: the safe state of the island holds together after every step: outside RUN every STO pair is asserted, every brake applied and every gate closed; a channel's gate is open only while its STO is released; an
asserted STO has ended SS1, SS2 and SOS; a released brake belongs to a channel whose STO is released; and under HOLD no gate is open. -/
def Obligations.IslandStaysSafe : Prop := ∀ s t : State, s.isl.Safe → step s = .next t → t.isl.Safe
end

