-- ==== Sys2Proof/Laws/Answers.lean ====
section
/-! SUPPORT. Every command answers a next state, in every state: no arm of the dispatch faults and none refuses. -/

namespace Sys2Proof.Machine

/-- Every command answers a next state. -/
theorem exec_answers (c : Instr) (s : State) : ∃ t, exec c s = .next t := by
  cases c
  case surveyWinding ev =>
    show ∃ t, execSurveyWinding ev s = .next t
    unfold execSurveyWinding
    dsimp only
    repeat' split
    all_goals exact ⟨_, rfl⟩
  case psetVerifyDone =>
    show ∃ t, execPsetVerifyDone s = .next t
    unfold execPsetVerifyDone
    split <;> exact ⟨_, rfl⟩
  case islandInitDone fail =>
    show ∃ t, execIslandInitDone fail s = .next t
    unfold execIslandInitDone
    split <;> exact ⟨_, rfl⟩
  case islandFault code =>
    show ∃ t, execIslandFault code s = .next t
    unfold execIslandFault
    split <;> exact ⟨_, rfl⟩
  case islandWatchdogReset =>
    show ∃ t, execIslandWatchdogReset s = .next t
    unfold execIslandWatchdogReset
    split <;> exact ⟨_, rfl⟩
  case aliveToggle =>
    show ∃ t, execAliveToggle s = .next t
    unfold execAliveToggle
    dsimp only
    split <;> exact ⟨_, rfl⟩
  all_goals exact ⟨_, rfl⟩

/-- Every step answers a next state. -/
theorem step_answers (s : State) : ∃ t, step s = .next t := by
  unfold step
  split
  · exact ⟨_, rfl⟩
  · exact exec_answers _ _

end Sys2Proof.Machine
end

