-- ==== Sys2Proof/Laws/State.lean ====
section
/-! SUPPORT. What each of the updates that every family uses leaves of State: one lemma a field, true by rfl, so that no proof unfolds a record
update. -/

namespace Sys2Proof.Machine

/-! ### A write of a register field (R11) -/

@[simp] theorem Main.set_hw (m : Main) (f : Fld) (v : Nat) : (m.set f v).hw = m.hw := rfl
@[simp] theorem Main.set_regs (m : Main) (f : Fld) (v : Nat) : (m.set f v).regs = nmPut m.regs f.key (v % 2 ^ f.w) f.rst := rfl
@[simp] theorem Main.set_wall (m : Main) (f : Fld) (v : Nat) : (m.set f v).wall = m.wall := rfl
@[simp] theorem Main.set_fresh (m : Main) (f : Fld) (v : Nat) : (m.set f v).fresh = m.fresh := rfl
@[simp] theorem Main.set_mem (m : Main) (f : Fld) (v : Nat) : (m.set f v).mem = m.mem := rfl
@[simp] theorem Main.set_tok (m : Main) (f : Fld) (v : Nat) : (m.set f v).tok = m.tok := rfl
@[simp] theorem Main.set_tuft (m : Main) (f : Fld) (v : Nat) : (m.set f v).tuft = m.tuft := rfl
@[simp] theorem Main.set_req (m : Main) (f : Fld) (v : Nat) : (m.set f v).req = m.req := rfl
@[simp] theorem Main.set_placing (m : Main) (f : Fld) (v : Nat) : (m.set f v).placing = m.placing := rfl
@[simp] theorem Main.set_waiters (m : Main) (f : Fld) (v : Nat) : (m.set f v).waiters = m.waiters := rfl
@[simp] theorem Main.set_runnels (m : Main) (f : Fld) (v : Nat) : (m.set f v).runnels = m.runnels := rfl
@[simp] theorem Main.set_ust (m : Main) (f : Fld) (v : Nat) : (m.set f v).ust = m.ust := rfl
@[simp] theorem Main.set_flumes (m : Main) (f : Fld) (v : Nat) : (m.set f v).flumes = m.flumes := rfl
@[simp] theorem Main.set_dredges (m : Main) (f : Fld) (v : Nat) : (m.set f v).dredges = m.dredges := rfl
@[simp] theorem Main.set_culvs (m : Main) (f : Fld) (v : Nat) : (m.set f v).culvs = m.culvs := rfl
@[simp] theorem Main.set_ref (m : Main) (f : Fld) (v : Nat) : (m.set f v).ref = m.ref := rfl
@[simp] theorem Main.set_port (m : Main) (f : Fld) (v : Nat) : (m.set f v).port = m.port := rfl
@[simp] theorem Main.set_comm (m : Main) (f : Fld) (v : Nat) : (m.set f v).comm = m.comm := rfl
@[simp] theorem Main.set_surv (m : Main) (f : Fld) (v : Nat) : (m.set f v).surv = m.surv := rfl
@[simp] theorem Main.set_sys (m : Main) (f : Fld) (v : Nat) : (m.set f v).sys = m.sys := rfl
@[simp] theorem Main.set_sec (m : Main) (f : Fld) (v : Nat) : (m.set f v).sec = m.sec := rfl
@[simp] theorem Main.set_coll (m : Main) (f : Fld) (v : Nat) : (m.set f v).coll = m.coll := rfl

/-! ### An addition to a saturating counter -/

@[simp] theorem Main.bumpBy_hw (m : Main) (f : Fld) (n : Nat) : (m.bumpBy f n).hw = m.hw := rfl
@[simp] theorem Main.bumpBy_regs (m : Main) (f : Fld) (n : Nat) : (m.bumpBy f n).regs = nmPut m.regs f.key (satAdd f.w (m.get f) n % 2 ^ f.w) f.rst := rfl
@[simp] theorem Main.bumpBy_wall (m : Main) (f : Fld) (n : Nat) : (m.bumpBy f n).wall = m.wall := rfl
@[simp] theorem Main.bumpBy_fresh (m : Main) (f : Fld) (n : Nat) : (m.bumpBy f n).fresh = m.fresh := rfl
@[simp] theorem Main.bumpBy_mem (m : Main) (f : Fld) (n : Nat) : (m.bumpBy f n).mem = m.mem := rfl
@[simp] theorem Main.bumpBy_tok (m : Main) (f : Fld) (n : Nat) : (m.bumpBy f n).tok = m.tok := rfl
@[simp] theorem Main.bumpBy_tuft (m : Main) (f : Fld) (n : Nat) : (m.bumpBy f n).tuft = m.tuft := rfl
@[simp] theorem Main.bumpBy_req (m : Main) (f : Fld) (n : Nat) : (m.bumpBy f n).req = m.req := rfl
@[simp] theorem Main.bumpBy_placing (m : Main) (f : Fld) (n : Nat) : (m.bumpBy f n).placing = m.placing := rfl
@[simp] theorem Main.bumpBy_waiters (m : Main) (f : Fld) (n : Nat) : (m.bumpBy f n).waiters = m.waiters := rfl
@[simp] theorem Main.bumpBy_runnels (m : Main) (f : Fld) (n : Nat) : (m.bumpBy f n).runnels = m.runnels := rfl
@[simp] theorem Main.bumpBy_ust (m : Main) (f : Fld) (n : Nat) : (m.bumpBy f n).ust = m.ust := rfl
@[simp] theorem Main.bumpBy_flumes (m : Main) (f : Fld) (n : Nat) : (m.bumpBy f n).flumes = m.flumes := rfl
@[simp] theorem Main.bumpBy_dredges (m : Main) (f : Fld) (n : Nat) : (m.bumpBy f n).dredges = m.dredges := rfl
@[simp] theorem Main.bumpBy_culvs (m : Main) (f : Fld) (n : Nat) : (m.bumpBy f n).culvs = m.culvs := rfl
@[simp] theorem Main.bumpBy_ref (m : Main) (f : Fld) (n : Nat) : (m.bumpBy f n).ref = m.ref := rfl
@[simp] theorem Main.bumpBy_port (m : Main) (f : Fld) (n : Nat) : (m.bumpBy f n).port = m.port := rfl
@[simp] theorem Main.bumpBy_comm (m : Main) (f : Fld) (n : Nat) : (m.bumpBy f n).comm = m.comm := rfl
@[simp] theorem Main.bumpBy_surv (m : Main) (f : Fld) (n : Nat) : (m.bumpBy f n).surv = m.surv := rfl
@[simp] theorem Main.bumpBy_sys (m : Main) (f : Fld) (n : Nat) : (m.bumpBy f n).sys = m.sys := rfl
@[simp] theorem Main.bumpBy_sec (m : Main) (f : Fld) (n : Nat) : (m.bumpBy f n).sec = m.sec := rfl
@[simp] theorem Main.bumpBy_coll (m : Main) (f : Fld) (n : Nat) : (m.bumpBy f n).coll = m.coll := rfl

/-! ### An event in a saturating counter -/

@[simp] theorem Main.bump_hw (m : Main) (f : Fld) : (m.bump f).hw = m.hw := rfl
@[simp] theorem Main.bump_regs (m : Main) (f : Fld) : (m.bump f).regs = nmPut m.regs f.key (satAdd f.w (m.get f) 1 % 2 ^ f.w) f.rst := rfl
@[simp] theorem Main.bump_wall (m : Main) (f : Fld) : (m.bump f).wall = m.wall := rfl
@[simp] theorem Main.bump_fresh (m : Main) (f : Fld) : (m.bump f).fresh = m.fresh := rfl
@[simp] theorem Main.bump_mem (m : Main) (f : Fld) : (m.bump f).mem = m.mem := rfl
@[simp] theorem Main.bump_tok (m : Main) (f : Fld) : (m.bump f).tok = m.tok := rfl
@[simp] theorem Main.bump_tuft (m : Main) (f : Fld) : (m.bump f).tuft = m.tuft := rfl
@[simp] theorem Main.bump_req (m : Main) (f : Fld) : (m.bump f).req = m.req := rfl
@[simp] theorem Main.bump_placing (m : Main) (f : Fld) : (m.bump f).placing = m.placing := rfl
@[simp] theorem Main.bump_waiters (m : Main) (f : Fld) : (m.bump f).waiters = m.waiters := rfl
@[simp] theorem Main.bump_runnels (m : Main) (f : Fld) : (m.bump f).runnels = m.runnels := rfl
@[simp] theorem Main.bump_ust (m : Main) (f : Fld) : (m.bump f).ust = m.ust := rfl
@[simp] theorem Main.bump_flumes (m : Main) (f : Fld) : (m.bump f).flumes = m.flumes := rfl
@[simp] theorem Main.bump_dredges (m : Main) (f : Fld) : (m.bump f).dredges = m.dredges := rfl
@[simp] theorem Main.bump_culvs (m : Main) (f : Fld) : (m.bump f).culvs = m.culvs := rfl
@[simp] theorem Main.bump_ref (m : Main) (f : Fld) : (m.bump f).ref = m.ref := rfl
@[simp] theorem Main.bump_port (m : Main) (f : Fld) : (m.bump f).port = m.port := rfl
@[simp] theorem Main.bump_comm (m : Main) (f : Fld) : (m.bump f).comm = m.comm := rfl
@[simp] theorem Main.bump_surv (m : Main) (f : Fld) : (m.bump f).surv = m.surv := rfl
@[simp] theorem Main.bump_sys (m : Main) (f : Fld) : (m.bump f).sys = m.sys := rfl
@[simp] theorem Main.bump_sec (m : Main) (f : Fld) : (m.bump f).sec = m.sec := rfl
@[simp] theorem Main.bump_coll (m : Main) (f : Fld) : (m.bump f).coll = m.coll := rfl

/-! ### A highest value (R13) -/

@[simp] theorem Main.peak_hw (m : Main) (f : Fld) (v : Nat) : (m.peak f v).hw = m.hw := rfl
@[simp] theorem Main.peak_regs (m : Main) (f : Fld) (v : Nat) : (m.peak f v).regs = nmPut m.regs f.key (Nat.max (m.get f) (Nat.min v (2 ^ f.w - 1)) % 2 ^ f.w) f.rst := rfl
@[simp] theorem Main.peak_wall (m : Main) (f : Fld) (v : Nat) : (m.peak f v).wall = m.wall := rfl
@[simp] theorem Main.peak_fresh (m : Main) (f : Fld) (v : Nat) : (m.peak f v).fresh = m.fresh := rfl
@[simp] theorem Main.peak_mem (m : Main) (f : Fld) (v : Nat) : (m.peak f v).mem = m.mem := rfl
@[simp] theorem Main.peak_tok (m : Main) (f : Fld) (v : Nat) : (m.peak f v).tok = m.tok := rfl
@[simp] theorem Main.peak_tuft (m : Main) (f : Fld) (v : Nat) : (m.peak f v).tuft = m.tuft := rfl
@[simp] theorem Main.peak_req (m : Main) (f : Fld) (v : Nat) : (m.peak f v).req = m.req := rfl
@[simp] theorem Main.peak_placing (m : Main) (f : Fld) (v : Nat) : (m.peak f v).placing = m.placing := rfl
@[simp] theorem Main.peak_waiters (m : Main) (f : Fld) (v : Nat) : (m.peak f v).waiters = m.waiters := rfl
@[simp] theorem Main.peak_runnels (m : Main) (f : Fld) (v : Nat) : (m.peak f v).runnels = m.runnels := rfl
@[simp] theorem Main.peak_ust (m : Main) (f : Fld) (v : Nat) : (m.peak f v).ust = m.ust := rfl
@[simp] theorem Main.peak_flumes (m : Main) (f : Fld) (v : Nat) : (m.peak f v).flumes = m.flumes := rfl
@[simp] theorem Main.peak_dredges (m : Main) (f : Fld) (v : Nat) : (m.peak f v).dredges = m.dredges := rfl
@[simp] theorem Main.peak_culvs (m : Main) (f : Fld) (v : Nat) : (m.peak f v).culvs = m.culvs := rfl
@[simp] theorem Main.peak_ref (m : Main) (f : Fld) (v : Nat) : (m.peak f v).ref = m.ref := rfl
@[simp] theorem Main.peak_port (m : Main) (f : Fld) (v : Nat) : (m.peak f v).port = m.port := rfl
@[simp] theorem Main.peak_comm (m : Main) (f : Fld) (v : Nat) : (m.peak f v).comm = m.comm := rfl
@[simp] theorem Main.peak_surv (m : Main) (f : Fld) (v : Nat) : (m.peak f v).surv = m.surv := rfl
@[simp] theorem Main.peak_sys (m : Main) (f : Fld) (v : Nat) : (m.peak f v).sys = m.sys := rfl
@[simp] theorem Main.peak_sec (m : Main) (f : Fld) (v : Nat) : (m.peak f v).sec = m.sec := rfl
@[simp] theorem Main.peak_coll (m : Main) (f : Fld) (v : Nat) : (m.peak f v).coll = m.coll := rfl

/-! ### A token on its way (R52) -/

@[simp] theorem Main.send_hw (m : Main) (t : Token) : (m.send t).hw = m.hw := rfl
@[simp] theorem Main.send_regs (m : Main) (t : Token) : (m.send t).regs = m.regs := rfl
@[simp] theorem Main.send_wall (m : Main) (t : Token) : (m.send t).wall = m.wall := rfl
@[simp] theorem Main.send_fresh (m : Main) (t : Token) : (m.send t).fresh = m.fresh := rfl
@[simp] theorem Main.send_mem (m : Main) (t : Token) : (m.send t).mem = m.mem := rfl
@[simp] theorem Main.send_tok (m : Main) (t : Token) : (m.send t).tok = { m.tok with inflight := m.tok.inflight ++ [t] } := rfl
@[simp] theorem Main.send_tuft (m : Main) (t : Token) : (m.send t).tuft = m.tuft := rfl
@[simp] theorem Main.send_req (m : Main) (t : Token) : (m.send t).req = m.req := rfl
@[simp] theorem Main.send_placing (m : Main) (t : Token) : (m.send t).placing = m.placing := rfl
@[simp] theorem Main.send_waiters (m : Main) (t : Token) : (m.send t).waiters = m.waiters := rfl
@[simp] theorem Main.send_runnels (m : Main) (t : Token) : (m.send t).runnels = m.runnels := rfl
@[simp] theorem Main.send_ust (m : Main) (t : Token) : (m.send t).ust = m.ust := rfl
@[simp] theorem Main.send_flumes (m : Main) (t : Token) : (m.send t).flumes = m.flumes := rfl
@[simp] theorem Main.send_dredges (m : Main) (t : Token) : (m.send t).dredges = m.dredges := rfl
@[simp] theorem Main.send_culvs (m : Main) (t : Token) : (m.send t).culvs = m.culvs := rfl
@[simp] theorem Main.send_ref (m : Main) (t : Token) : (m.send t).ref = m.ref := rfl
@[simp] theorem Main.send_port (m : Main) (t : Token) : (m.send t).port = m.port := rfl
@[simp] theorem Main.send_comm (m : Main) (t : Token) : (m.send t).comm = m.comm := rfl
@[simp] theorem Main.send_surv (m : Main) (t : Token) : (m.send t).surv = m.surv := rfl
@[simp] theorem Main.send_sys (m : Main) (t : Token) : (m.send t).sys = m.sys := rfl
@[simp] theorem Main.send_sec (m : Main) (t : Token) : (m.send t).sec = m.sec := rfl
@[simp] theorem Main.send_coll (m : Main) (t : Token) : (m.send t).coll = m.coll := rfl

/-! ### A captured event (R55) -/

@[simp] theorem Main.event_hw (m : Main) (src word : Nat) : (m.event src word).hw = m.hw := rfl
@[simp] theorem Main.event_regs (m : Main) (src word : Nat) : (m.event src word).regs = m.regs := rfl
@[simp] theorem Main.event_wall (m : Main) (src word : Nat) : (m.event src word).wall = m.wall := rfl
@[simp] theorem Main.event_fresh (m : Main) (src word : Nat) : (m.event src word).fresh = m.fresh := rfl
@[simp] theorem Main.event_mem (m : Main) (src word : Nat) : (m.event src word).mem = m.mem := rfl
@[simp] theorem Main.event_tok (m : Main) (src word : Nat) : (m.event src word).tok = { m.tok with captured := m.tok.captured ++ [{ src := src, word := word % 2 ^ 32, time := m.now }] } := rfl
@[simp] theorem Main.event_tuft (m : Main) (src word : Nat) : (m.event src word).tuft = m.tuft := rfl
@[simp] theorem Main.event_req (m : Main) (src word : Nat) : (m.event src word).req = m.req := rfl
@[simp] theorem Main.event_placing (m : Main) (src word : Nat) : (m.event src word).placing = m.placing := rfl
@[simp] theorem Main.event_waiters (m : Main) (src word : Nat) : (m.event src word).waiters = m.waiters := rfl
@[simp] theorem Main.event_runnels (m : Main) (src word : Nat) : (m.event src word).runnels = m.runnels := rfl
@[simp] theorem Main.event_ust (m : Main) (src word : Nat) : (m.event src word).ust = m.ust := rfl
@[simp] theorem Main.event_flumes (m : Main) (src word : Nat) : (m.event src word).flumes = m.flumes := rfl
@[simp] theorem Main.event_dredges (m : Main) (src word : Nat) : (m.event src word).dredges = m.dredges := rfl
@[simp] theorem Main.event_culvs (m : Main) (src word : Nat) : (m.event src word).culvs = m.culvs := rfl
@[simp] theorem Main.event_ref (m : Main) (src word : Nat) : (m.event src word).ref = m.ref := rfl
@[simp] theorem Main.event_port (m : Main) (src word : Nat) : (m.event src word).port = m.port := rfl
@[simp] theorem Main.event_comm (m : Main) (src word : Nat) : (m.event src word).comm = m.comm := rfl
@[simp] theorem Main.event_surv (m : Main) (src word : Nat) : (m.event src word).surv = m.surv := rfl
@[simp] theorem Main.event_sys (m : Main) (src word : Nat) : (m.event src word).sys = m.sys := rfl
@[simp] theorem Main.event_sec (m : Main) (src word : Nat) : (m.event src word).sec = m.sec := rfl
@[simp] theorem Main.event_coll (m : Main) (src word : Nat) : (m.event src word).coll = m.coll := rfl

/-! ### A free value taken -/

@[simp] theorem Main.takeFree_hw (m : Main) : m.takeFree.2.hw = m.hw := rfl
@[simp] theorem Main.takeFree_regs (m : Main) : m.takeFree.2.regs = m.regs := rfl
@[simp] theorem Main.takeFree_wall (m : Main) : m.takeFree.2.wall = m.wall := rfl
@[simp] theorem Main.takeFree_fresh (m : Main) : m.takeFree.2.fresh = m.fresh + 1 := rfl
@[simp] theorem Main.takeFree_mem (m : Main) : m.takeFree.2.mem = m.mem := rfl
@[simp] theorem Main.takeFree_tok (m : Main) : m.takeFree.2.tok = m.tok := rfl
@[simp] theorem Main.takeFree_tuft (m : Main) : m.takeFree.2.tuft = m.tuft := rfl
@[simp] theorem Main.takeFree_req (m : Main) : m.takeFree.2.req = m.req := rfl
@[simp] theorem Main.takeFree_placing (m : Main) : m.takeFree.2.placing = m.placing := rfl
@[simp] theorem Main.takeFree_waiters (m : Main) : m.takeFree.2.waiters = m.waiters := rfl
@[simp] theorem Main.takeFree_runnels (m : Main) : m.takeFree.2.runnels = m.runnels := rfl
@[simp] theorem Main.takeFree_ust (m : Main) : m.takeFree.2.ust = m.ust := rfl
@[simp] theorem Main.takeFree_flumes (m : Main) : m.takeFree.2.flumes = m.flumes := rfl
@[simp] theorem Main.takeFree_dredges (m : Main) : m.takeFree.2.dredges = m.dredges := rfl
@[simp] theorem Main.takeFree_culvs (m : Main) : m.takeFree.2.culvs = m.culvs := rfl
@[simp] theorem Main.takeFree_ref (m : Main) : m.takeFree.2.ref = m.ref := rfl
@[simp] theorem Main.takeFree_port (m : Main) : m.takeFree.2.port = m.port := rfl
@[simp] theorem Main.takeFree_comm (m : Main) : m.takeFree.2.comm = m.comm := rfl
@[simp] theorem Main.takeFree_surv (m : Main) : m.takeFree.2.surv = m.surv := rfl
@[simp] theorem Main.takeFree_sys (m : Main) : m.takeFree.2.sys = m.sys := rfl
@[simp] theorem Main.takeFree_sec (m : Main) : m.takeFree.2.sec = m.sec := rfl
@[simp] theorem Main.takeFree_coll (m : Main) : m.takeFree.2.coll = m.coll := rfl

/-! ### Bytes put into memory -/

@[simp] theorem Main.poke_hw (m : Main) (pa v n : Nat) : (m.poke pa v n).hw = m.hw := rfl
@[simp] theorem Main.poke_regs (m : Main) (pa v n : Nat) : (m.poke pa v n).regs = m.regs := rfl
@[simp] theorem Main.poke_wall (m : Main) (pa v n : Nat) : (m.poke pa v n).wall = m.wall := rfl
@[simp] theorem Main.poke_fresh (m : Main) (pa v n : Nat) : (m.poke pa v n).fresh = m.fresh := rfl
@[simp] theorem Main.poke_mem (m : Main) (pa v n : Nat) : (m.poke pa v n).mem = { m.mem with cells := bytesPut m.mem.cells (plainPa pa) v n } := rfl
@[simp] theorem Main.poke_tok (m : Main) (pa v n : Nat) : (m.poke pa v n).tok = m.tok := rfl
@[simp] theorem Main.poke_tuft (m : Main) (pa v n : Nat) : (m.poke pa v n).tuft = m.tuft := rfl
@[simp] theorem Main.poke_req (m : Main) (pa v n : Nat) : (m.poke pa v n).req = m.req := rfl
@[simp] theorem Main.poke_placing (m : Main) (pa v n : Nat) : (m.poke pa v n).placing = m.placing := rfl
@[simp] theorem Main.poke_waiters (m : Main) (pa v n : Nat) : (m.poke pa v n).waiters = m.waiters := rfl
@[simp] theorem Main.poke_runnels (m : Main) (pa v n : Nat) : (m.poke pa v n).runnels = m.runnels := rfl
@[simp] theorem Main.poke_ust (m : Main) (pa v n : Nat) : (m.poke pa v n).ust = m.ust := rfl
@[simp] theorem Main.poke_flumes (m : Main) (pa v n : Nat) : (m.poke pa v n).flumes = m.flumes := rfl
@[simp] theorem Main.poke_dredges (m : Main) (pa v n : Nat) : (m.poke pa v n).dredges = m.dredges := rfl
@[simp] theorem Main.poke_culvs (m : Main) (pa v n : Nat) : (m.poke pa v n).culvs = m.culvs := rfl
@[simp] theorem Main.poke_ref (m : Main) (pa v n : Nat) : (m.poke pa v n).ref = m.ref := rfl
@[simp] theorem Main.poke_port (m : Main) (pa v n : Nat) : (m.poke pa v n).port = m.port := rfl
@[simp] theorem Main.poke_comm (m : Main) (pa v n : Nat) : (m.poke pa v n).comm = m.comm := rfl
@[simp] theorem Main.poke_surv (m : Main) (pa v n : Nat) : (m.poke pa v n).surv = m.surv := rfl
@[simp] theorem Main.poke_sys (m : Main) (pa v n : Nat) : (m.poke pa v n).sys = m.sys := rfl
@[simp] theorem Main.poke_sec (m : Main) (pa v n : Nat) : (m.poke pa v n).sec = m.sec := rfl
@[simp] theorem Main.poke_coll (m : Main) (pa v n : Nat) : (m.poke pa v n).coll = m.coll := rfl

/-! ### An observation of a context (R243) -/

@[simp] theorem Main.note_hw (m : Main) (t : TickFlags) : (m.note t).hw = m.hw := rfl
@[simp] theorem Main.note_regs (m : Main) (t : TickFlags) : (m.note t).regs = m.regs := rfl
@[simp] theorem Main.note_wall (m : Main) (t : TickFlags) : (m.note t).wall = m.wall := rfl
@[simp] theorem Main.note_fresh (m : Main) (t : TickFlags) : (m.note t).fresh = m.fresh := rfl
@[simp] theorem Main.note_mem (m : Main) (t : TickFlags) : (m.note t).mem = m.mem := rfl
@[simp] theorem Main.note_tok (m : Main) (t : TickFlags) : (m.note t).tok = m.tok := rfl
@[simp] theorem Main.note_tuft (m : Main) (t : TickFlags) : (m.note t).tuft = m.tuft := rfl
@[simp] theorem Main.note_req (m : Main) (t : TickFlags) : (m.note t).req = { m.req with ticks := m.req.ticks.filter (fun x => x.ctx != t.ctx) ++ [t] } := rfl
@[simp] theorem Main.note_placing (m : Main) (t : TickFlags) : (m.note t).placing = m.placing := rfl
@[simp] theorem Main.note_waiters (m : Main) (t : TickFlags) : (m.note t).waiters = m.waiters := rfl
@[simp] theorem Main.note_runnels (m : Main) (t : TickFlags) : (m.note t).runnels = m.runnels := rfl
@[simp] theorem Main.note_ust (m : Main) (t : TickFlags) : (m.note t).ust = m.ust := rfl
@[simp] theorem Main.note_flumes (m : Main) (t : TickFlags) : (m.note t).flumes = m.flumes := rfl
@[simp] theorem Main.note_dredges (m : Main) (t : TickFlags) : (m.note t).dredges = m.dredges := rfl
@[simp] theorem Main.note_culvs (m : Main) (t : TickFlags) : (m.note t).culvs = m.culvs := rfl
@[simp] theorem Main.note_ref (m : Main) (t : TickFlags) : (m.note t).ref = m.ref := rfl
@[simp] theorem Main.note_port (m : Main) (t : TickFlags) : (m.note t).port = m.port := rfl
@[simp] theorem Main.note_comm (m : Main) (t : TickFlags) : (m.note t).comm = m.comm := rfl
@[simp] theorem Main.note_surv (m : Main) (t : TickFlags) : (m.note t).surv = m.surv := rfl
@[simp] theorem Main.note_sys (m : Main) (t : TickFlags) : (m.note t).sys = m.sys := rfl
@[simp] theorem Main.note_sec (m : Main) (t : TickFlags) : (m.note t).sec = m.sec := rfl
@[simp] theorem Main.note_coll (m : Main) (t : TickFlags) : (m.note t).coll = m.coll := rfl

/-! ### A write that happens under a condition -/

@[simp] theorem Main.setIf_hw (m : Main) (c : Bool) (f : Fld) (v : Nat) : (m.setIf c f v).hw = m.hw := by
  cases c <;> rfl

@[simp] theorem Main.setIf_wall (m : Main) (c : Bool) (f : Fld) (v : Nat) : (m.setIf c f v).wall = m.wall := by
  cases c <;> rfl

@[simp] theorem Main.setIf_fresh (m : Main) (c : Bool) (f : Fld) (v : Nat) : (m.setIf c f v).fresh = m.fresh := by
  cases c <;> rfl

@[simp] theorem Main.setIf_mem (m : Main) (c : Bool) (f : Fld) (v : Nat) : (m.setIf c f v).mem = m.mem := by
  cases c <;> rfl

@[simp] theorem Main.setIf_tok (m : Main) (c : Bool) (f : Fld) (v : Nat) : (m.setIf c f v).tok = m.tok := by
  cases c <;> rfl

@[simp] theorem Main.setIf_tuft (m : Main) (c : Bool) (f : Fld) (v : Nat) : (m.setIf c f v).tuft = m.tuft := by
  cases c <;> rfl

@[simp] theorem Main.setIf_req (m : Main) (c : Bool) (f : Fld) (v : Nat) : (m.setIf c f v).req = m.req := by
  cases c <;> rfl

@[simp] theorem Main.setIf_placing (m : Main) (c : Bool) (f : Fld) (v : Nat) : (m.setIf c f v).placing = m.placing := by
  cases c <;> rfl

@[simp] theorem Main.setIf_waiters (m : Main) (c : Bool) (f : Fld) (v : Nat) : (m.setIf c f v).waiters = m.waiters := by
  cases c <;> rfl

@[simp] theorem Main.setIf_runnels (m : Main) (c : Bool) (f : Fld) (v : Nat) : (m.setIf c f v).runnels = m.runnels := by
  cases c <;> rfl

@[simp] theorem Main.setIf_ust (m : Main) (c : Bool) (f : Fld) (v : Nat) : (m.setIf c f v).ust = m.ust := by
  cases c <;> rfl

@[simp] theorem Main.setIf_flumes (m : Main) (c : Bool) (f : Fld) (v : Nat) : (m.setIf c f v).flumes = m.flumes := by
  cases c <;> rfl

@[simp] theorem Main.setIf_dredges (m : Main) (c : Bool) (f : Fld) (v : Nat) : (m.setIf c f v).dredges = m.dredges := by
  cases c <;> rfl

@[simp] theorem Main.setIf_culvs (m : Main) (c : Bool) (f : Fld) (v : Nat) : (m.setIf c f v).culvs = m.culvs := by
  cases c <;> rfl

@[simp] theorem Main.setIf_ref (m : Main) (c : Bool) (f : Fld) (v : Nat) : (m.setIf c f v).ref = m.ref := by
  cases c <;> rfl

@[simp] theorem Main.setIf_port (m : Main) (c : Bool) (f : Fld) (v : Nat) : (m.setIf c f v).port = m.port := by
  cases c <;> rfl

@[simp] theorem Main.setIf_comm (m : Main) (c : Bool) (f : Fld) (v : Nat) : (m.setIf c f v).comm = m.comm := by
  cases c <;> rfl

@[simp] theorem Main.setIf_surv (m : Main) (c : Bool) (f : Fld) (v : Nat) : (m.setIf c f v).surv = m.surv := by
  cases c <;> rfl

@[simp] theorem Main.setIf_sys (m : Main) (c : Bool) (f : Fld) (v : Nat) : (m.setIf c f v).sys = m.sys := by
  cases c <;> rfl

@[simp] theorem Main.setIf_sec (m : Main) (c : Bool) (f : Fld) (v : Nat) : (m.setIf c f v).sec = m.sec := by
  cases c <;> rfl

@[simp] theorem Main.setIf_coll (m : Main) (c : Bool) (f : Fld) (v : Nat) : (m.setIf c f v).coll = m.coll := by
  cases c <;> rfl

@[simp] theorem Main.setIf_true (m : Main) (f : Fld) (v : Nat) : m.setIf true f v = m.set f v := rfl

@[simp] theorem Main.setIf_false (m : Main) (f : Fld) (v : Nat) : m.setIf false f v = m := rfl

/-! ### The two halves of the device -/

/-- A command of the main domains answers a next state, and touches neither the queue nor the island. -/
@[simp] theorem State.onMain_eq (s : State) (g : Main → Main) : s.onMain g = .next { s with main := g s.main } := rfl

end Sys2Proof.Machine
end

