-- ==== Sys2Proof/Laws/Memory.lean ====
section
/-! SUPPORT. Memory keeps its canonical form: addresses strictly rising, no entry equal to what an unlisted address reads as. Every operation
that stores keeps it, every other leaves the bytes alone, and reset has it. -/

namespace Sys2Proof.Machine

/-- The canonical form, said of the list as a whole. -/
theorem cellsWf_iff (l : List Host.Cell) :
    cellsWf l = true ↔ l.Pairwise (fun a b => a.1 < b.1) ∧ ∀ c ∈ l, c.2 ≠ unwritten := by
  induction l with
  | nil => simp [cellsWf]
  | cons c t ih =>
    cases t with
    | nil => simp [cellsWf]
    | cons d t =>
      simp only [cellsWf, Bool.and_eq_true, bne_iff_ne, ne_eq, decide_eq_true_eq, ih]
      constructor
      · rintro ⟨⟨hc, hcd⟩, hp, hu⟩
        refine ⟨List.pairwise_cons.2 ⟨fun e he => ?_, hp⟩, ?_⟩
        · rcases List.mem_cons.1 he with rfl | he
          · exact hcd
          · exact Nat.lt_trans hcd ((List.pairwise_cons.1 hp).1 e he)
        · intro e he
          rcases List.mem_cons.1 he with rfl | he
          · exact hc
          · exact hu e he
      · rintro ⟨hp, hu⟩
        have h2 := List.pairwise_cons.1 hp
        exact ⟨⟨hu c (by simp), h2.1 d (by simp)⟩, h2.2, fun e he => hu e (by simp [he])⟩

theorem cellIns_mem {l : List Host.Cell} {a : Nat} {b : Byte} {c : Host.Cell} (h : c ∈ cellIns l a b) : c = (a, b) ∨ c ∈ l := by
  induction l with
  | nil => simpa [cellIns] using h
  | cons d t ih =>
    simp only [cellIns] at h
    split at h
    · simpa using h
    · split at h
      · rcases List.mem_cons.1 h with h | h
        · exact .inl h
        · exact .inr (by simp [h])
      · rcases List.mem_cons.1 h with h | h
        · exact .inr (by simp [h])
        · rcases ih h with h | h
          · exact .inl h
          · exact .inr (by simp [h])

theorem cellIns_wf {l : List Host.Cell} {a : Nat} {b : Byte} (hb : b ≠ unwritten) (h : cellsWf l = true) : cellsWf (cellIns l a b) = true := by
  rw [cellsWf_iff] at h ⊢
  refine ⟨?_, fun c hc => ?_⟩
  · induction l with
    | nil => simp [cellIns]
    | cons d t ih =>
      have hp := List.pairwise_cons.1 h.1
      have hu : ∀ c ∈ t, c.2 ≠ unwritten := fun c hc => h.2 c (by simp [hc])
      simp only [cellIns]
      split
      · rename_i hlt
        refine List.pairwise_cons.2 ⟨fun e he => ?_, h.1⟩
        rcases List.mem_cons.1 he with rfl | he
        · exact hlt
        · exact Nat.lt_trans hlt (hp.1 e he)
      · split
        · rename_i he
          exact List.pairwise_cons.2 ⟨fun e hm => he ▸ hp.1 e hm, hp.2⟩
        · rename_i h1 h2
          refine List.pairwise_cons.2 ⟨fun e he => ?_, ih ⟨hp.2, hu⟩⟩
          rcases cellIns_mem he with rfl | he
          · exact Nat.lt_of_le_of_ne (Nat.le_of_not_lt h1) h2
          · exact hp.1 e he
  · rcases cellIns_mem hc with rfl | hc
    · exact hb
    · exact h.2 c hc

/-- One byte written keeps the form. -/
theorem cellPut_wf {l : List Host.Cell} (a : Nat) (b : Byte) (h : cellsWf l = true) : cellsWf (cellPut l a b) = true := by
  unfold cellPut
  split
  · rw [cellsWf_iff] at h ⊢
    exact ⟨h.1.filter _, fun c hc => h.2 c (List.mem_filter.1 hc).1⟩
  · rename_i hb
    exact cellIns_wf hb h

/-- The bytes of a value written keep the form. -/
theorem bytesPut_wf (n : Nat) : ∀ {l : List Host.Cell} (a v : Nat), cellsWf l = true → cellsWf (bytesPut l a v n) = true := by
  induction n with
  | zero => intro l a v h; exact h
  | succ n ih => intro l a v h; exact ih _ _ (cellPut_wf a _ h)

theorem poke_wf {m : Main} (pa v n : Nat) (h : Memory.wf m.mem = true) : Memory.wf (m.poke pa v n).mem = true := bytesPut_wf n _ _ h

/-! ### What does not store leaves the bytes alone -/

@[simp] theorem Main.raiseEvent_mem (m : Main) (a b c d : Nat) (e : Bool) : (m.raiseEvent a b c d e).mem = m.mem := by
  unfold Main.raiseEvent
  split <;> rfl

@[simp] theorem Main.raiseSrc_mem (m : Main) (a b c d : Nat) : (m.raiseSrc a b c d).mem = m.mem := Main.raiseEvent_mem ..

@[simp] theorem Main.countUe_mem (m : Main) (wa src : Nat) : (m.countUe wa src).mem = m.mem := by
  unfold Main.countUe
  split <;> simp

@[simp] theorem Main.countCe_cells (m : Main) (wa : Nat) (b : Bool) : (m.countCe wa b).mem.cells = m.mem.cells := by
  unfold Main.countCe
  split <;> simp

@[simp] theorem Main.injectAt_cells (m : Main) (wa : Nat) : (m.injectAt wa).mem.cells = m.mem.cells := by
  unfold Main.injectAt
  split
  · dsimp only
    split <;> rfl
  · rfl

@[simp] theorem Main.freshWord_cells (m : Main) (wa : Nat) : (m.freshWord wa).mem.cells = m.mem.cells := by
  simp [Main.freshWord]

@[simp] theorem Main.wakeFor_cells (m : Main) (pa : Nat) : (m.wakeFor pa).mem.cells = m.mem.cells := by
  unfold Main.wakeFor
  split
  · split <;> rfl
  · rfl

@[simp] theorem Main.countGate_mem (m : Main) (id : AccId) (pa c : Nat) : (m.countGate id pa c).mem = m.mem := by
  unfold Main.countGate
  split
  · simp
  · split <;> simp

/-- A read leaves the bytes alone, whatever errors it counts. -/
@[simp] theorem Main.readMem_cells (m : Main) (pa n : Nat) : (m.readMem pa n).2.mem.cells = m.mem.cells := by
  have hf : ∀ (ws : List Nat) (k : Main), (ws.foldl (fun m wa => m.countCe wa false) k).mem.cells = k.mem.cells := by
    intro ws
    induction ws with
    | nil => intro k; rfl
    | cons w ws ih => intro k; simp [ih]
  unfold Main.readMem
  dsimp only
  split
  · simp
  · simp [hf]

/-- A checked read leaves the bytes alone. -/
@[simp] theorem Main.loadPhys_cells (m : Main) (id : AccId) (pa n : Nat) : (m.loadPhys id pa n).2.mem.cells = m.mem.cells := by
  unfold Main.loadPhys
  split
  · rfl
  · simp
  · have h := Main.readMem_cells m pa n
    split
    · rename_i heq
      rw [heq] at h
      simpa using h
    · rename_i heq
      rw [heq] at h
      simpa using h

/-! ### What stores keeps the form -/

/-- The form, from bytes that are the same. -/
theorem wf_of_cells {m k : Main} (h : k.mem.cells = m.mem.cells) (w : Memory.wf m.mem = true) : Memory.wf k.mem = true := by
  simpa [Memory.wf, h] using w

theorem writeMem_wf {m : Main} (pa v n : Nat) (h : Memory.wf m.mem = true) : Memory.wf (m.writeMem pa v n).2.mem = true := by
  unfold Main.writeMem
  dsimp only
  split
  · exact wf_of_cells (Main.freshWord_cells ..) (poke_wf pa v 8 h)
  · split
    · exact wf_of_cells (by simp) h
    · have hf : ∀ (ws : List Nat) (k : Main), Memory.wf k.mem = true →
          Memory.wf (ws.foldl (fun (m : Main) wa => ({ m with mem := { m.mem with ce := m.mem.ce.filter (· != wa) } } : Main)) k).mem = true := by
        intro ws
        induction ws with
        | nil => intro k hk; exact hk
        | cons w ws ih => intro k hk; exact ih _ hk
      have hi : ∀ (ws : List Nat) (k : Main), Memory.wf k.mem = true → Memory.wf (ws.foldl Main.injectAt k).mem = true := by
        intro ws
        induction ws with
        | nil => intro k hk; exact hk
        | cons w ws ih => intro k hk; exact ih _ (wf_of_cells (Main.injectAt_cells ..) hk)
      exact hi _ _ (poke_wf pa v n (hf _ _ h))

/-- An admitted write keeps the form. -/
theorem storeNow_wf {m : Main} (pa v n : Nat) (h : Memory.wf m.mem = true) : Memory.wf (m.storeNow pa v n).2.mem = true := by
  have put : ∀ (k : Main) (x : Nat), Memory.wf k.mem = true →
      Memory.wf (match k.writeMem pa x n with
        | (true, m) => (MemOut.ok 0, m)
        | (false, m) => (MemOut.fail 0x45 (regionOf pa).die, m)).2.mem = true := by
    intro k x hk
    have hw := writeMem_wf pa x n hk
    split <;> (rename_i heq; rw [heq] at hw; exact hw)
  unfold Main.storeNow
  dsimp only
  split
  · have hr := Main.readMem_cells m pa n
    split
    · rename_i heq
      rw [heq] at hr
      exact put _ _ (wf_of_cells hr h)
    · rename_i heq
      rw [heq] at hr
      exact wf_of_cells hr h
  · exact put _ _ h

/-- A checked write keeps the form. -/
theorem storePhys_wf {m : Main} (id : AccId) (pa v n : Nat) (h : Memory.wf m.mem = true) : Memory.wf (m.storePhys id pa v n).2.mem = true := by
  unfold Main.storePhys
  split
  · exact h
  · exact wf_of_cells (by simp) h
  · exact storeNow_wf pa v n h

/-- A write that the device itself makes keeps the form. -/
theorem storeHeld_wf {m : Main} (id : AccId) (pa v n : Nat) (h : Memory.wf m.mem = true) : Memory.wf (m.storeHeld id pa v n).2.mem = true := by
  have hs := storePhys_wf id pa v n h
  unfold Main.storeHeld
  split
  · rename_i heq
    rw [heq] at hs
    exact storeNow_wf pa v n (wf_of_cells (Main.wakeFor_cells ..) hs)
  · exact hs

/-- Counting a wait that nothing marks changes no byte. -/
theorem freeWait_mem (m : Main) (d : Nat) (b : Bool) (pa : Nat) : (m.freeWait d b pa).mem = m.mem := by
  unfold Main.freeWait
  repeat' split
  · unfold Main.portWait Main.countPort
    repeat' split
    all_goals rfl
  · rfl
  · rfl

/-- Words stored one after another keep the form. -/
theorem storeWords_wf (id : AccId) (ws : List Nat) : ∀ {m : Main} (pa : Nat), Memory.wf m.mem = true → Memory.wf (m.storeWords id pa ws).2.mem = true := by
  induction ws with
  | nil => intro m pa h; exact h
  | cons w ws ih =>
    intro m pa h
    have hs := storeHeld_wf id pa w 8 h
    unfold Main.storeWords
    split
    · rename_i heq
      rw [heq] at hs
      exact ih _ ((freeWait_mem ..).symm ▸ hs)
    · rename_i heq
      rw [heq] at hs
      exact hs

/-- The memory of reset has the form. -/
theorem reset_memory_wf : Memory.wf State.reset.main.mem = true := rfl

end Sys2Proof.Machine
end

