-- ==== Sys2Proof/Laws/Ops.lean ====
section
/-! SUPPORT. What the shared operations can do, once for each. -/

namespace Sys2Proof.Machine

/-! ### Registers -/

/-- A conditional write is the write or nothing. -/
theorem Main.setIf_eq (m : Main) (c : Bool) (f : Fld) (v : Nat) : m.setIf c f v = if c = true then m.set f v else m := rfl

/-- A discarded token is counted at the router of its die, and nothing else changes. -/
theorem Main.discard_eq (m : Main) (die : Nat) : m.discard die = m.bump (if die = 0 then F.FROUTER_STATS_DISCARDS else F.ROUTER_STATS_DISCARDS die) := by
  unfold Main.discard
  split <;> rfl

/-- The sticky word of a context is all that sticking a mask can change. -/
theorem Main.stick_regs_only (m : Main) (c mask : Nat) : ∃ l, m.stick c mask = { m with regs := l } := by
  have hone : ∀ (x : Main) (l : List (Nat × Nat)), x = { m with regs := l } → ∀ (p : Nat × Fld),
      ∃ k, (if mask / 2 ^ p.1 % 2 = 1 then x.set p.2 1 else x) = { m with regs := k } := by
    intro x l hx p
    split
    · exact ⟨_, by rw [hx]; rfl⟩
    · exact ⟨l, hx⟩
  have hall : ∀ (ps : List (Nat × Fld)) (x : Main) (l : List (Nat × Nat)), x = { m with regs := l } →
      ∃ k, ps.foldl (fun (m : Main) (p : Nat × Fld) => if mask / 2 ^ p.1 % 2 = 1 then m.set p.2 1 else m) x = { m with regs := k } := by
    intro ps
    induction ps with
    | nil => intro x l hx; exact ⟨l, hx⟩
    | cons p ps ih =>
      intro x l hx
      obtain ⟨k, hk⟩ := hone x l hx p
      exact ih _ k hk
  exact hall _ m m.regs rfl

/-! ### Fault sources and broken contexts -/

/-- An event on an error line is latched, joins those on their way to the collector, and is counted on a compute die; nothing else changes. -/
theorem Main.raiseEvent_frame (m : Main) (src die named detail : Nat) (severe : Bool) :
    let k := m.raiseEvent src die named detail severe
    k.coll.inbox = m.coll.inbox ++ [{ src := src, die := fin8 die, named := named, detail := detail, severe := severe, at_ := m.now }] ∧ k.tok = m.tok ∧ k.tuft = m.tuft ∧
    k.req = m.req ∧ k.mem = m.mem ∧ k.runnels = m.runnels ∧ k.flumes = m.flumes ∧ k.ref = m.ref ∧ k.port = m.port ∧ k.sys = m.sys ∧ k.sec = m.sec ∧
    k.fresh = m.fresh ∧ k.wall = m.wall ∧ k.hw = m.hw ∧ (¬(1 ≤ die ∧ die ≤ 5) → k.regs = m.regs) := by
  unfold Main.raiseEvent
  dsimp only
  split <;> rename_i h
  · exact ⟨rfl, rfl, rfl, rfl, rfl, rfl, rfl, rfl, rfl, rfl, rfl, rfl, rfl, rfl, fun hn => absurd h hn⟩
  · exact ⟨rfl, rfl, rfl, rfl, rfl, rfl, rfl, rfl, rfl, rfl, rfl, rfl, rfl, rfl, fun _ => rfl⟩

/-- A FREE or BROKEN context cannot break again. -/
theorem Main.breakCtx_dead (m : Main) (c cause die : Nat) (h : m.dead c = true) : m.breakCtx c cause die = m := by
  unfold Main.breakCtx
  rw [h]
  rfl

/-! ### Free values -/

/-- A free value is the next of the stream, and only the counter advances. -/
theorem Main.takeFree_eq (m : Main) : m.takeFree = (Config.freeValue m.fresh, { m with fresh := m.fresh + 1 }) := rfl

/-- An exact quotient takes no free value. -/
theorem Main.takeQuot_exact (m : Main) (num : Int) (den : Nat) (h : num % den = 0) : m.takeQuot num den = (num / den, m) := by
  unfold Main.takeQuot
  rw [if_pos h]

/-- Any other quotient is one of its two neighbours, and only the counter advances. -/
theorem Main.takeQuot_inexact (m : Main) (num : Int) (den : Nat) (h : num % den ≠ 0) :
    ((m.takeQuot num den).1 = num / den ∨ (m.takeQuot num den).1 = num / den + 1) ∧ (m.takeQuot num den).2 = { m with fresh := m.fresh + 1 } := by
  unfold Main.takeQuot
  rw [if_neg h]
  refine ⟨?_, rfl⟩
  rcases Nat.mod_two_eq_zero_or_one m.takeFree.1 with h0 | h1
  · exact .inl (by simp [h0])
  · exact .inr (by simp [h1])

/-! ### Tokens and results -/

/-- A result leaves as one token, or as none where there is no destination. -/
theorem Main.sendTo_eq (m : Main) (die tuft : Fin 8) (ctx : BitVec 8) (src : BitVec 20) (side : Bool) (frame : BitVec 24) (dest : BitVec 22)
    (o : Opnd) :
    m.sendTo die tuft ctx src side frame dest o = { m with tok := { m.tok with
      inflight := m.tok.inflight ++ if dest = noDest then [] else [m.mkToken die tuft ctx src side frame dest o] } } := by
  unfold Main.sendTo
  split
  · simp
  · rfl

/-- Two results leave together, and nothing else changes. -/
theorem Main.sendRet_tok_only (m : Main) (r : Ret) (o0 o1 : Option Opnd) :
    ∃ l, m.sendRet r o0 o1 = { m with tok := { m.tok with inflight := m.tok.inflight ++ l } } := by
  unfold Main.sendRet
  cases o0 <;> cases o1 <;> simp only [Main.sendTo_eq]
  · exact ⟨[], by simp⟩
  · exact ⟨_, rfl⟩
  · exact ⟨_, rfl⟩
  · exact ⟨_, by rw [List.append_assoc]⟩

/-- A firing that leaves the ready ones leaves everything else. -/
theorem Main.unready_eq (m : Main) (f : Firing) : m.unready f = { m with tok := { m.tok with ready := m.tok.ready.erase f } } := rfl

/-! ### Steps -/

/-- A firing of another operation is none of a command's. -/
theorem Main.fire_other (m : Main) (f : Firing) (op : Op) (body : Main → Main) (h : f.op ≠ some op) : m.fire f op body = m := by
  unfold Main.fire Main.fireIf
  rw [if_pos h]

end Sys2Proof.Machine
end

