-- ==== Sys2Proof/WellFormed.lean ====
section
/-! DEFINITION. Which commands can occur at all: a command that carries a firing of an operation carries one whose instruction
word decodes to that operation (R90), and a destination, slot or index lies in its range. -/

namespace Sys2Proof

open Sys2Proof.Machine

/-- A firing is well-formed for an operation: its word decodes to it, its literal and continuation slots are those that the
word asks for (R89), and its tuft is on a compute die (R1). -/
def Firing.wfFor (f : Firing) (o : Op) : Bool :=
  match decodeOp (IWord.ofWord f.word) with
  | none => false
  | some r =>
    let e := extSlots r (IWord.ofWord f.word)
    r.op == o && decide (1 ≤ f.die.val ∧ f.die.val ≤ 5) &&
    (if e.2 then f.lit.isSome == (e.1 == 1) && f.conts.isEmpty else f.lit.isNone && f.conts.length == e.1) && extOk r f.lit

end Sys2Proof
end

