-- ==== Sys2Proof/Tests/Slice0.lean ====
section
/-! SUPPORT. The model's own tests. A test shows what one command does in a small state, with values from the manual's examples or
worked by hand from its rules; a witness shows a state and operands that meet the hypotheses of a statement together. -/

namespace Sys2Proof.Tests

set_option Elab.async false

open Sys2Proof.Machine

/-! ### Small states -/

/-- A D8 in RUN, with context 1 ACTIVE. -/
def base : Main := { (Main.reset.set F.MODE_CUR_MODE 4).set (F.CTXTAB_STATE_RUN 1) 1 with sys := { Main.reset.sys with pow := 0 } }

/-- A state around the main domains. -/
def st (m : Main) : State := { State.reset with main := m }

/-- The word of an operation with plain MODE, TAGOP and FLAGS: DEST0 port 0 of IA 0x00040, no DEST1. -/
def wordOf (o : Op) : Word :=
  IWord.toWord { opc := BitVec.ofNat 10 o.row.opc, mode := if o = .const then 1 else 0, tagop := 0, flags := 0, dest0 := 0x100, dest1 := noDest }

/-- A firing of context 1 in tuft 0 of die 1, of a word with its operands. -/
def fireW (w : Word) (l r t : Opnd) : Firing :=
  { die := 1, tuft := 0, ctx := 1, frame := 0, ia := 0x00010, side := false, prio := 8, word := w, lit := none, conts := [], left := l, right := r,
    third := t, pres := 3, wsel := 0, pass := false, way := false, replay := none, epoch := none }

/-- A firing of an operation. -/
def fire (o : Op) (l r t : Opnd) : Firing := fireW (wordOf o) l r t

/-- Operands: INT64, BOOL, FP64, CONTROL. -/
def i (x : Nat) : Opnd := ⟨w64 x, tyInt⟩
def b (x : Nat) : Opnd := ⟨w64 x, tyBool⟩
def d (x : Nat) : Opnd := ⟨w64 x, tyFp64⟩
def ctl (x : Nat) : Opnd := ⟨w64 x, tyControl⟩

/-- The main domains after a command. -/
def after (c : Instr) (m : Main) : Option Main :=
  match exec c (st m) with
  | .next t => some t.main
  | _ => none

/-- VALUE and TYPE of the tokens in flight after a command. -/
def outs (c : Instr) (m : Main) : Option (List (Nat × Nat)) :=
  (after c m).map (fun k => k.tok.inflight.map (fun t => (t.value.toNat, t.typ.toNat)))

/-- A field after a command. -/
def field (c : Instr) (m : Main) (f : Fld) : Option Nat := (after c m).map (fun k => k.get f)

/-! ### Steps, reset and the register file -/

/-- R58: the set index of the manual's example. -/
theorem test_set_index : setIndex 9 0x000A12 0x041C0 = 0xB46 := by decide

/-- A step takes the front command, and leaves the queue's rest. -/
theorem test_step_takes_front : (match step { st base with pending := [.contextResetDone, .selfCheckFailure] } with
    | .next t => some t.pending
    | _ => none) = some [.selfCheckFailure] := by decide +kernel

theorem witness_StepRunsFront : (st base).pending = [] := by decide +kernel

/-- Two fields of one register are apart, and a list of two rises. -/
theorem witness_FieldWrite : F.MODE_CUR_PREV.key ≠ F.MODE_CUR_MODE.key ∧ base.regs.map (fun p => p.1) ≠ [] ∧
    base.regs.Pairwise (fun p q => p.1 < q.1) := by decide +kernel

/-- A write keeps no entry that equals the reset value. -/
theorem test_set_removes : ((Main.reset.set F.MODE_CUR_MODE 4).set F.MODE_CUR_MODE 0).regs = [] := by decide +kernel

/-! ### Instruction words (R85 to R95) -/

/-- R113: a slot of the manual's example: the fields of 0x1044_00A0_0382_800A. -/
theorem test_slot_of_R113 : (decodeOp (IWord.ofWord 0x104400A00382800A)).map (fun r => r.op) = some .loopenter := by decide +kernel

/-- R85: a word written out bit by bit: FADD (0x100), MODE 0, TAGOP 0, FLAGS S, DEST0 port 2 of IA 5, no DEST1. -/
theorem test_fadd_word :
    (decodeOp (IWord.ofWord ((0b0100000000 : BitVec 10) ++ (0b0000 : BitVec 4) ++ (0b000 : BitVec 3) ++ (0b001 : BitVec 3) ++
      (0b0000000000000000010110 : BitVec 22) ++ (0b1111111111111111111111 : BitVec 22)))).map (fun r => r.op) = some .fadd := by decide +kernel

/-- R90: what no word means: an unassigned OPC, TAGOP 6, a FLAGS bit of MOV, CONST without MODE.LIT, a MODE bit of BEXT. -/
theorem test_undecodable :
    decodeOp { opc := 0x00A, mode := 0, tagop := 0, flags := 0, dest0 := 0, dest1 := 0 } = none ∧
    decodeOp { opc := 0x001, mode := 0, tagop := 6, flags := 0, dest0 := 0, dest1 := 0 } = none ∧
    decodeOp { opc := 0x001, mode := 0, tagop := 0, flags := 1, dest0 := 0, dest1 := 0 } = none ∧
    decodeOp { opc := 0x008, mode := 0, tagop := 0, flags := 0, dest0 := 0, dest1 := 0 } = none ∧
    decodeOp { opc := 0x0AD, mode := 2, tagop := 0, flags := 0, dest0 := 0, dest1 := 0 } = none := by decide +kernel

/-- The operations, each with its words; and what a well-formed firing is. -/
theorem test_wellformed : Sys2Proof.Firing.wfFor (fire .add (i 1) (i 2) (i 0)) .add = true := by decide +kernel

/-- Each check of a firing refuses a firing that only it finds ill-formed: another operation's word, an undecodable word, a tuft off the
compute dies, a literal missing, a literal too many, a continuation too many, a LINK whose literal has high bits. -/
theorem test_illformed :
    Sys2Proof.Firing.wfFor (fire .add (i 1) (i 2) (i 0)) .sub = false ∧ Sys2Proof.Firing.wfFor (fireW 0 (i 1) (i 2) (i 0)) .add = false ∧
    Sys2Proof.Firing.wfFor { fire .add (i 1) (i 2) (i 0) with die := 0 } .add = false ∧ Sys2Proof.Firing.wfFor { fire .add (i 1) (i 2) (i 0) with die := 6 } .add = false ∧
    Sys2Proof.Firing.wfFor (fire .const (i 1) (i 2) (i 0)) .const = false ∧ Sys2Proof.Firing.wfFor { fire .add (i 1) (i 2) (i 0) with lit := some 1 } .add = false ∧
    Sys2Proof.Firing.wfFor { fire .add (i 1) (i 2) (i 0) with conts := [0] } .add = false ∧
    Sys2Proof.Firing.wfFor { fireW (IWord.toWord { opc := 0x045, mode := 1, tagop := 0, flags := 0, dest0 := 0, dest1 := 0 }) (i 1) (i 2) (i 0) with lit := some (2 ^ 22) } .link = false := by
  decide +kernel

/-- Every row of the operation tables has a well-formed instruction that decodes to it. -/
theorem test_rows_decode : ∀ r ∈ opRows, (fire r.op (i 1) (i 1) (i 1)).op = some r.op := by decide +kernel

theorem witness_InstructionWords : ∀ r ∈ opRows, opRows.filter (fun x => x.opc == r.opc) = [r] := by decide +kernel
/-! ### Tokens, matching, placement and events (R39 to R84) -/

/-- Block 0 of context 1 on tuft 0 of die 1, region 0, at every router. -/
def entry1 : Nat := 3
/-- The same block paired, with its partner on tuft 0 of die 2. -/
def entry12 : Nat := 3 + 2 ^ 10 + 2 * 2 ^ 11

/-- base with an entry for the block of context 1 at the field router and at dies 1 and 2, an ADD at IA 0x00010, and a MOV at 0x00011. -/
def placed (e : Nat) : Main :=
  (((((base.set (F.ROUTER_PLACE_ENTRY 0 256) e).set (F.ROUTER_PLACE_ENTRY 1 256) e).set (F.ROUTER_PLACE_ENTRY 2 256) e).setSlot 1 0 0x10 .instr
    (wordOf .add))).setSlot 1 0 0x11 .instr (wordOf .mov)

/-- A token of context 1 to a port of an IA. -/
def tok (ia : BitVec 20) (port : BitVec 2) (v : Nat) : Token :=
  { value := w64 v, ia := ia, port := port, typ := tyInt, wsel := 0, ctx := 1, frame := 0, stamp := 0, prio := 8, side := false, odie := 1, otuft := 0, pass := false,
    replay := none }

def field0 (t : Token) : Token := { t with odie := 0 }

theorem witness_TokenRouted : Routable (placed entry1) (tok 0x10 0 5) ∧ plPaired ((placed entry1).entryAt ((placed entry1).routerOf (tok 0x10 0 5)) (tok 0x10 0 5)) = false ∧
    Routable (placed entry12) (field0 (tok 0x10 0 5)) ∧ Routable (placed entry12) { field0 (tok 0x10 0 5) with side := true } ∧
    plPaired ((placed entry12).entryAt 0 (field0 (tok 0x10 0 5))) = true ∧ (placed entry12).sole 1 = false ∧
    (field0 (tok 0x10 0 5)).copied = false ∧ (placed entry1).staysIn { tok 0x10 0 5 with otuft := 1 } = false ∧ (placed entry1).dieState 1 ≠ 2 ∧ Main.reset.dead 1 = true ∧ Main.reset.sole 1 = false := by unfold Routable; dsimp only; decide +kernel

/-- A paired token from the field die arrives twice, with the two values of SIDE. -/
theorem test_token_route_paired : (after (.tokenRoute (field0 (tok 0x10 0 5)) ⟨.ok, [], []⟩) (placed entry12)).map (fun m => m.tok.arrived.map (fun a => (a.die.val, a.tok.side))) =
    some [(1, false), (2, true)] := by decide +kernel

/-- The placed state with one operand of the ADD in the store. -/
def half : Main := { placed entry1 with tuft := { (placed entry1).tuft with ms := [MsEntry.ofToken 1 0 (tok 0x10 0 5)] } }

/-- AtTuft, as a test. -/
def atTuft (m : Main) (die tuft : Fin 8) (t : Token) (r : OpRow) (w : Word) (lit : Option Word) (conts : List Word) : Bool :=
  let e := m.entryAt die.val t
  decide (m.dead t.ctx.toNat = false ∧ (plValid e = false ∨ (plDie e t.side = die.val ∧ plTuft e t.side = tuft.val)) ∧
  (t.released = true ∨ t.wsel.toNat = 0 ∨ 48 < t.wsel.toNat) ∧ t.typ.toNat < 12 ∧ (t.wsel.toNat < 49 ∨ 61 < t.wsel.toNat) ∧ t.replay = none) &&
  (match m.fetchFor die tuft t with
   | .instr r' w' l' c' => decide (r' = r ∧ w' = w ∧ l' = lit ∧ c' = conts)
   | .parked _ => false)

theorem AtTuft_of {m : Main} {die tuft : Fin 8} {t : Token} {r : OpRow} {w : Word} {lit : Option Word} {conts : List Word}
    (h : atTuft m die tuft t r w lit conts = true) : AtTuft m die tuft t r w lit conts := by
  unfold atTuft at h
  unfold AtTuft
  dsimp only at h ⊢
  split at h
  · next h2 =>
    simp only [Bool.and_eq_true, decide_eq_true_eq] at h
    obtain ⟨⟨h1, h2', h3, h4, h5, h6⟩, rfl, rfl, rfl, rfl⟩ := h
    exact ⟨h1, h2', h3, h4, h5, h2, h6⟩
  · simp at h

theorem witness_TokenMatched :
    AtTuft (placed entry1) 1 0 (tok 0x11 2 5) (Op.row .mov) (wordOf .mov) none [] ∧ AtTuft half 1 0 (tok 0x10 1 7) (Op.row .add) (wordOf .add) none [] ∧
    AtTuft (placed entry1) 1 0 (tok 0x10 1 7) (Op.row .add) (wordOf .add) none [] ∧
    (portsOf (Op.row .mov) (IWord.ofWord (wordOf .mov)) = [2] ∧ (placed entry1).tuftRun 1 0 1 ≠ 2 ∧ half.servedBefore 1 0 (tok 0x10 1 7) = false ∧ half.tuftRun 1 0 1 ≠ 2 ∧ (placed entry1).servedBefore 1 0 (tok 0x10 1 7) = false ∧ portsOf (Op.row .add) (IWord.ofWord (wordOf .add)) = [0, 1] ∧
    half.tuft.ms.find? (fun x => x.hasKey 1 0 (tok 0x10 1 7)) = some (MsEntry.ofToken 1 0 (tok 0x10 0 5)) ∧
    (MsEntry.ofToken 1 0 (tok 0x10 0 5)).at_ 1 = none ∧ ((MsEntry.ofToken 1 0 (tok 0x10 0 5)).at_ 0).isSome = true ∧
    (placed entry1).tuft.ms = [] ∧ (placed entry1).tuft.probes = [] ∧
    (((((placed entry1).unarrived 1 0 (tok 0x10 1 7)).noteFaultToken (tok 0x10 1 7)).occArrive 8 1).occCopy 8 1 = 0) ∧ (placed entry1).waysUsed 1 0 (setIndex 1 0 0x10) = (0, 0)) :=
  ⟨AtTuft_of (by decide +kernel), AtTuft_of (by decide +kernel), AtTuft_of (by decide +kernel), by decide +kernel⟩

/-- The second operand fires the ADD, its operands by port whatever the order. -/
theorem test_token_match_fires : (after (.tokenMatch 1 0 (tok 0x10 1 7) {}) half).map (fun m => m.tok.ready.map (fun f => (f.left.value.toNat, f.right.value.toNat))) =
    some [(5, 7)] := by decide +kernel

/-- R64, R69: a soakaway of context 1 in scratch of die 1, in bank 4, which it owns. -/
def soaked : Main :=
  ((((half.set (F.CTXTAB_SOAK_EN 1) 1).set (F.CTXTAB_SOAK_SIZE 1) 6).set (F.CTXTAB_SOAK_BASE 1) 0x9000400).set (F.BANK_OWN_KIND 1 4) 1).set (F.BANK_OWN_ID 1 4) 1 |>.set
    (F.BANK_OWN_DONE 1 4) 1

/-- The set of the ADD full of entries of SIDE 1, with their insertion counts, and a spill buffer of n entries; the second oldest count is 1. -/
def others : List MsEntry := [3, 1, 2, 4].map (fun a => { MsEntry.ofToken 1 0 { tok 0x10 0 5 with side := true } with age := a })
def crowded (m : Main) (n : Nat) : Main := { m with tuft := { m.tuft with ms := others, spill := (List.range n).map (fun _ => others.headD (MsEntry.ofToken 1 0 (tok 0x10 0 5))) } }

/-- The further clauses of TokenMatched and the failed spill of SoakawayKeepsEntries: a filled port; a full set with a soakaway, without one, and with
a full spill buffer. -/
theorem witness_TokenMatched_full :
    AtTuft half 1 0 (tok 0x10 0 9) (Op.row .add) (wordOf .add) none [] ∧ AtTuft (crowded soaked 0) 1 0 (tok 0x10 1 7) (Op.row .add) (wordOf .add) none [] ∧
    (half.servedBefore 1 0 (tok 0x10 0 9) = false ∧ half.tuft.ms.find? (fun x => x.hasKey 1 0 (tok 0x10 0 9)) = some (MsEntry.ofToken 1 0 (tok 0x10 0 5)) ∧
    ((MsEntry.ofToken 1 0 (tok 0x10 0 5)).at_ 0).isSome = true ∧ (crowded soaked 0).servedBefore 1 0 (tok 0x10 1 7) = false ∧
    (crowded soaked 0).tuft.ms.find? (fun x => x.hasKey 1 0 (tok 0x10 1 7)) = none ∧ (crowded soaked 0).tuft.probes = [] ∧
    (let n := (((crowded soaked 0).unarrived 1 0 (tok 0x10 1 7)).noteFaultToken (tok 0x10 1 7)).occArrive 8 1
     let v := others.getD 1 (MsEntry.ofToken 1 0 (tok 0x10 0 5))
     n.occCopy 8 1 = 0 ∧ n.waysUsed 1 0 (setIndex 1 0 0x10) = (4, 0) ∧ n.oldest 1 0 (setIndex 1 0 0x10) = some v ∧ v.err = 0 ∧
     n.flag (F.CTXTAB_SOAK_EN 1) = true ∧ n.soakFull v = false ∧ (n.spillOf 1 0).length = 0 ∧ (crowded half 0).flag (F.CTXTAB_SOAK_EN 1) = false ∧
     ((crowded soaked 16).spillOf 1 0).length = 16)) :=
  ⟨AtTuft_of (by decide +kernel), AtTuft_of (by decide +kernel), by decide +kernel⟩

/-- R61, R62, R66, R71: the oldest entry is spilled; a filled port parks the token; a spill that fails sets SOAK_FULL. -/
theorem test_token_match_full :
    (after (.tokenMatch 1 0 (tok 0x10 1 7) {}) (crowded soaked 0)).map (fun m => (m.tuft.spill.map (fun e => e.age), m.tuft.ms.length)) = some ([1], 4) ∧
    (after (.tokenMatch 1 0 (tok 0x10 0 9) {}) half).map (fun m => (m.tuft.ms.length, m.tok.ready.length)) = some (1, 0) ∧
    field (.tokenMatch 1 0 (tok 0x10 1 7) {}) (crowded half 0) (F.CTXTAB_STATE_SOAK_FULL 1) = some 1 := by decide +kernel

/-- R64: the manual's example: context 9 with SOAK.BASE 0x90_0040_0000 and SIZE 14; the home bucket 0x0B93 begins at 0x90_0045_C980. -/
theorem test_soak_home : ((((base.set (F.CTXTAB_SOAK_EN 9) 1).set (F.CTXTAB_SOAK_SIZE 9) 14).set (F.CTXTAB_SOAK_BASE 9) 0x9000400).soakSlots
    9 0x000A12 0x041C0).headD 0 = 0x900045C980 := by decide +kernel

/-- The entry of half in the spill buffer; the same in its slot of the soakaway, and the ADD's other operand at its probe; that probe with
nothing found. -/
def ent : MsEntry := { MsEntry.ofToken 1 0 (tok 0x10 0 5) with prio := 0 }
def spilled : Main := { soaked with tuft := { soaked.tuft with ms := [], spill := [ent] } }
def slots0 : List Nat := soaked.soakSlots 1 0 0x10
def probing (found : Bool) : Main :=
  let m := if found then (spilled.storeWords (ctxId 1 1) (slots0.headD 0) ent.soakWords).2 else spilled
  { m with tuft := { m.tuft with spill := [], probes := [{ die := 1, tuft := 0, tok := tok 0x10 1 7, waiting := [] }] } }

/-- What the hypotheses on a probe ask of a state, for the ADD at 0x00010. -/
def probeOk (m : Main) (found : Bool) : Bool :=
  let t := tok 0x10 1 7
  match Main.readBuckets { m with tuft := { m.tuft with probes := [] } } (ctxId 1 1) slots0 with
  | .ok k => !k.dead 1 && !k.sole 1 && (k.tuft.spill.find? (fun e => e.hasKey 1 0 t)).isNone &&
      (match k.fetchFor 1 0 t with | .instr r w _ _ => r.op == .add && portsOf r (IWord.ofWord w) == [0, 1] | .parked _ => false) &&
      (if found then k.soakValid (slots0.headD 0) && k.soakEntry 1 0 (slots0.headD 0) == ent && ent.at_ 1 == none && (ent.at_ 0).isSome
       else slots0.all (fun pa => !k.soakValid pa) && (match k.insertTok 1 0 t with | .room _ => true | _ => false))
  | _ => false

theorem witness_SoakawayKeepsEntries :
    ent.err = 0 ∧ ent.vals.length = 1 ∧ MsEntry.ofSoak 1 0 (ent.soakWords.getD 0 0) (ent.soakWords.getD 1 0) (ent.soakWords.getD 2 0) (ent.soakWords.getD 3 0) = ent ∧
    (spilled.spillOf 1 0)[0]? = some ent ∧
    (match spilled.readBuckets (ctxId 1 1) slots0 with
     | .ok m => slots0.find? (fun p => !m.soakValid p) == some (slots0.headD 0) && (m.storeWords (ctxId 1 1) (slots0.headD 0) ent.soakWords).1
     | _ => false) = true ∧ probeOk (probing true) true = true ∧ probeOk (probing false) false = true := by decide +kernel

/-- R66, R69: the entry is written and leaves the buffer; the probe finds it, and the ADD is ready. -/
theorem test_soakaway :
    (after (.spillWrite 1 0 0) spilled).map (fun m => (m.tuft.spill.length, m.soakValid (slots0.headD 0))) = some (0, true) ∧
    (after (.soakawayProbe 1 0 0 .ok) (probing true)).map (fun m => (m.tok.ready.map (fun f => (f.left.value.toNat, f.right.value.toNat)), m.soakValid (slots0.headD 0))) =
      some ([(5, 7)], false) := by decide +kernel

/-- A staged changeover whose descriptor names the RUN of context 1. -/
def naming4 : Main :=
  let m := base.set (F.CHG_STAT_STATE 0) 1
  { m with ref := { m.ref with slots := [{ k := 0, entries := [{ kind := 4, target := 1, value := 2 }], bad := none, armedAt := 0, seen := false, moved := [] }] } }

theorem witness_PlacementAndContextWrites :
    base.chgNames 2 256 = [] ∧ base.placeCheck 3 [] = .ok ∧ base.placeCheck (1 + 7 * 2) [] = .badDie ∧ base.placeCheck 3 [3] = .conflict ∧
    base.chgNames 4 1 = [] ∧ (naming4.chgNames 4 1 ≠ []) ∧ base.run 1 = 1 ∧ Main.reset.run 1 = 0 ∧ (base.set (F.CTXTAB_STATE_RUN 1) 2).run 1 = 2 ∧ (base.set (F.CTXTAB_STATE_RUN 1) 3).run 1 = 3 ∧
    base.get (F.CTXTAB_SOAKOCC_OCC 1) = 0 ∧ base.inScratch 0x9000400000 8192 = true ∧ base.hasParked 1 = false ∧ nmGet base.req.park.boost 1 0 ≤ base.now := by decide +kernel

/-- The two ends of a placement: the write takes the entry, the copies follow. -/
theorem test_placement : field (.placementWrite 256 3) base F.CTXTAB_PLACESTAT_BUSY = some 1 ∧
    (match after (.placementWrite 256 3) base with
     | some m => field .placementCopyDone m (F.ROUTER_PLACE_ENTRY 1 256)
     | none => none) = some 3 := by decide +kernel

/-- base with the route of event source 5 to context 1, its divider at n. -/
def routed (n : Nat) : Main := ((base.set (F.EVT_ROUTE_EN 5) 1).set (F.EVT_ROUTE_CTX 5) 1).set (F.EVT_DIV_DIVIDER 5) n

theorem witness_EventTokens :
    base.flag (F.EVT_ROUTE_EN 5) = false ∧ (routed 1).flag (F.EVT_ROUTE_EN 5) = true ∧ (routed 1).dead ((routed 1).get (F.EVT_ROUTE_CTX 5)) = false ∧
    (routed 3).get (F.EVT_DIV_PHASE 5) + 1 < (routed 3).get (F.EVT_DIV_DIVIDER 5) ∧ (routed 1).get (F.EVT_DIV_DIVIDER 5) ≤ (routed 1).get (F.EVT_DIV_PHASE 5) + 1 ∧
    (routed 1).tok.held = [] ∧ (routed 1).throttled 1 = false ∧
    (Main.setHeld (routed 1) [(5, tok 0 0 0)]).tok.held.find? (fun p => p.1 == 5) = some (5, tok 0 0 0) := by decide +kernel

/-- R55: a captured event makes a token of TYPE 6 whose VALUE holds the source and the capture word. -/
theorem test_event_capture : outs (.eventCapture 5 0x1A400482 77 false) (routed 1) = some [(0x1A4004820000 * 0x10000 + 5, 6)] ∧
    field (.eventCapture 5 0 77 false) (routed 3) (F.EVT_DIV_PHASE 5) = some 1 := by decide +kernel

/-! ### Firings: dispatch, steering, loops and calls (R86 to R110, R236) -/

/-- A firing of every operation table row executes in a D8 in RUN, its context ACTIVE. -/
def executes (m : Main) (f : Firing) (op : Op) : Bool :=
  decide (f.op = some op ∧ (m.dead f.ctx.toNat = false ∨ f.pass = true ∨ m.req.cmpWait.contains f = true) ∧ (m.dispatches f = true ∨ m.req.cmpWait.contains f = true) ∧
    f.replay.bind Replay.value = none)

theorem Executes_of {m : Main} {f : Firing} {op : Op} (h : executes m f op = true) : Executes m f op := by
  have h2 := of_decide_eq_true h
  exact h2

theorem rows_execute : ∀ r ∈ opRows, executes base (fire r.op (i 1) (i 1) (i 1)) r.op = true := by decide +kernel

theorem witness_executes : ∀ r ∈ opRows, Executes base (fire r.op (i 1) (i 1) (i 1)) r.op := fun r h => Executes_of (rows_execute r h)

/-- A firing that a replay supplies. -/
def supplied : Firing := { fire .add (i 1) (i 2) (i 0) with replay := some { handle := 5, by_ := (fire .mov (i 1) (i 1) (i 0)).ret, value := some (i 3, i 3) } }

theorem witness_FiringDispatch : (fire .add (i 1) (i 2) (i 0)).op = some .add ∧ Main.reset.dead 1 = true ∧ base.dead 1 = false ∧
    (base.set (F.CTXTAB_STATE_RUN 1) 2).dispatches (fire .add (i 1) (i 2) (i 0)) = false ∧
    base.req.cmpWait = [] ∧ (fire .add (i 1) (i 2) (i 0)).op ≠ some .sub ∧ base.dispatches supplied = true := by decide +kernel

theorem witness_ResultTokens : (fire .add (i 1) (i 2) (i 0)).replay = none ∧
    (resultToken base (fire .add (i 1) (i 2) (i 0)) true (some (i 3))).length = 1 := by decide +kernel

theorem witness_SteeringOps : (fire .fan (i 1) (i 2) (i 0)).replay = none ∧ (b 1).truth = true ∧ (b 0).truth = false ∧ (b 2).truth = false ∧ (i 2).truth = true ∧
    ((i 11).value.extractLsb' 0 4).toNat < 12 ∧ 12 ≤ ((i 12).value.extractLsb' 0 4).toNat := by decide +kernel

/-- R93 to R97: what each steering operation sends. -/
theorem test_steering :
    outs (.mov (fire .mov (i 9) (i 9) (i 0))) base = some [(9, 0)] ∧
    outs (.merge (fire .merge (i 9) (i 9) (i 0))) base = some [(9, 0)] ∧
    outs (.sink (fire .sink (i 9) (i 9) (i 0))) base = some [] ∧
    outs (.switch (fire .switch (i 9) (b 1) (i 0))) base = some [(9, 0)] ∧
    outs (.switch (fire .switch (i 9) (b 0) (i 0))) base = some [] ∧
    outs (.gate (fire .gate (i 9) (b 0) (i 0))) base = some [(9, 0)] ∧
    outs (.select (fire .select (i 9) (i 8) (b 0))) base = some [(8, 0)] ∧
    outs (.const (fire .const (i 9) (i 0x2A) (i 0))) base = some [(0x2A, 0)] ∧
    outs (.retype (fire .retype (i 9) (i 1) (i 0))) base = some [(9, 1)] := by decide +kernel

/-- Right operands of LOOPENTER: K = 2 and one value to hand out. -/
def loopArg (k x : Nat) : Opnd := i (k + x * 2 ^ 16)

/-- A loop record of the firing's tuft with one credit and one iteration left. -/
def recL : LoopRec := { newRec (fire .loopenter (i 3) (loopArg 2 1) (i 0)) 5 false with k := 2, credits := 1, xcnt := 1, remain := 1 }
def recC : LoopRec := { newRec (fire .frameget (i 3) (i 1) (i 0)) 5 true with xcnt := 1, link := 0 }
def withRec (r : LoopRec) : Main := { base with tuft := { base.tuft with recs := [r] } }
/-- A firing in the frame of record 5. -/
def inRec (o : Op) (l r : Opnd) : Firing := { fire o l r (i 0) with frame := recFrame 5 }

theorem HasRec_of {m : Main} {f : Firing} {c : Bool} {r : LoopRec}
    (h : decide ((m.recsOf f.die f.tuft).find? (fun r => r.idx == f.recIdx && r.call == c && r.ctx == f.ctx && r.block == f.ia.extractLsb' 12 8 &&
      (m.sole f.ctx.toNat || r.side == f.side)) = some r) = true) : m.HasRec f c r := by
  have h2 := of_decide_eq_true h
  exact h2

theorem loopArgsOk_of {f : Firing} (h : decide (0 < (f.right.value.extractLsb' 0 13).toNat ∧ (f.right.value.extractLsb' 0 13).toNat ≤ 4096 ∧
    f.right.value.extractLsb' 13 3 = 0 ∧ f.right.value.extractLsb' 21 43 = 0) = true) : loopArgsOk f := by
  have h2 := of_decide_eq_true h
  exact h2

theorem witness_LoopAndCallOps :
    loopArgsOk (fire .loopenter (i 0) (loopArg 4096 31) (i 0)) ∧ loopArgsOk (fire .loopenter (i 3) (loopArg 1 0) (i 0)) ∧
    ((withRec recL).executed (inRec .loopnext (i 1) (b 1))).HasRec (inRec .loopnext (i 1) (b 1)) false recL ∧
    ((withRec { recL with held := some (inRec .loopnext (i 1) (b 1)) }).executed (inRec .loopdone (i 1) (b 1))).HasRec (inRec .loopdone (i 1) (b 1)) false
      { recL with held := some (inRec .loopnext (i 1) (b 1)) } ∧
    ((withRec recC).executed (inRec .return_ (i 1) (b 1))).HasRec (inRec .return_ (i 1) (b 1)) true recC ∧
    ((i 0).value.toInt ≤ 0 ∧ 0 < (i 3).value.toInt ∧ (base.executed (fire .loopenter (i 3) (loopArg 1 0) (i 0))).freeRec 1 0 = some 1 ∧
    recL.held = none ∧ recL.ended = false ∧ 0 < recL.remain ∧ 0 < recL.credits ∧ recL.credits ≠ recL.k ∧ recL.xdone ≠ recL.xcnt ∧ recC.xdone ≠ recC.xcnt ∧
    (ctl 0x102).isControl 2 = true ∧ (ctl 1).isControl 1 = true ∧ (i 31).value.toNat ≤ 31 ∧ (fire .link (i 0) (i 1) (i 0)).right.value.extractLsb' 22 42 = 0) :=
  ⟨loopArgsOk_of (by decide +kernel), loopArgsOk_of (by decide +kernel), HasRec_of (by decide +kernel), HasRec_of (by decide +kernel),
    HasRec_of (by decide +kernel), by decide +kernel⟩

/-- With no record, none is found. -/
theorem witness_LoopAndCallOps_stale : ∀ r, ¬ (base.executed (inRec .loopnext (i 1) (b 1))).HasRec (inRec .loopnext (i 1) (b 1)) false r := by
  intro r h
  have e : (base.executed (inRec .loopnext (i 1) (b 1))).recsOf (inRec .loopnext (i 1) (b 1)).die (inRec .loopnext (i 1) (b 1)).tuft = [] := by decide +kernel
  unfold Main.HasRec at h
  rw [e] at h
  simp at h

/-- R100 to R110: a loop of no iteration, an iteration, a credit returned, an exit, and what LINK and FRAMEOF make. -/
theorem test_loops :
    outs (.loopenter (fire .loopenter (i 0) (loopArg 2 1) (i 0))) base = some [(0, 4)] ∧
    outs (.loopenter (fire .loopenter (i 3) (loopArg 2 1) (i 0))) base = some [(1, 4)] ∧
    outs (.loopnext (inRec .loopnext (i 1) (b 1))) (withRec recL) = some [(1, 4)] ∧
    outs (.loopnext (inRec .loopnext (i 1) (b 0))) (withRec recL) = some [(0, 4)] ∧
    outs (.loopnext (inRec .loopnext (i 1) (b 1))) (withRec { recL with credits := 0 }) = some [] ∧
    outs (.loopdone (inRec .loopdone (i 6) (b 1))) (withRec recL) = some [(6, 0)] ∧
    outs (.loopexit (inRec .loopexit (i 6) (b 1))) (withRec recL) = some [(6, 0)] ∧
    outs (.retag (fire .retag (i 6) (i 0x123) (i 0))) base = some [(6, 0)] ∧
    outs (.link (fire .link (i 0) (i 0x101) (i 0))) base = some [(0x10101, 9)] ∧
    outs (.frameof (fire .frameof (i 0) (i 0) (i 0))) base = some [(2, 9)] := by decide +kernel

/-- R106, R107: a call's frame goes to the callee's link and DEST0; a return sends its value to the link. -/
theorem test_calls :
    (outs (.frameget (fire .frameget (ctl 1) (i 1) (i 0))) base).map List.length = some 2 ∧
    outs (.return_ (inRec .return_ (i 6) (b 1))) (withRec recC) = some [(6, 0)] := by decide +kernel

/-! ### Integer operations (R114 to R120) -/

def m5 : Opnd := i (2 ^ 64 - 5)

theorem witness_IntegerArithmetic : ¬ ptrForm (fire .add (i 7) (i 5) (i 0)) ∧ ptrForm (fire .add ⟨7, tyPtr⟩ (i 5) (i 0)) ∧
    (fire .add ⟨7, tyPtr⟩ (i 5) (i 0)).sx = false ∧ (fire .add ⟨7, tyPtr⟩ (i 5) (i 0)).sat = false ∧
    (fire .add ⟨7, tyPtr⟩ (i 5) (i 0)).trap = false := by unfold ptrForm; decide +kernel

/-- R116: integer arithmetic on 64 bits, unsigned and wrapping. -/
theorem test_arithmetic :
    outs (.add (fire .add m5 (i 7) (i 0))) base = some [(2, 0)] ∧
    outs (.sub (fire .sub (i 7) (i 5) (i 0))) base = some [(2, 0)] ∧
    outs (.neg (fire .neg (i 5) (i 0) (i 0))) base = some [(2 ^ 64 - 5, 0)] ∧
    outs (.abs (fire .abs (i 5) (i 0) (i 0))) base = some [(5, 0)] ∧
    outs (.mul (fire .mul (i 7) (i 5) (i 0))) base = some [(35, 0)] ∧
    outs (.mulh (fire .mulh (i (2 ^ 63)) (i 6) (i 0))) base = some [(3, 0)] ∧
    outs (.mulx (fire .mulx (i (2 ^ 63)) (i 3) (i 0))) base = some [(2 ^ 63, 0)] ∧
    outs (.min (fire .min (i 7) (i 5) (i 0))) base = some [(5, 0)] ∧
    outs (.max (fire .max (i 7) (i 5) (i 0))) base = some [(7, 0)] ∧
    outs (.ext (fire .ext m5 (i 0) (i 0))) base = some [(2 ^ 64 - 5, 0)] ∧
    outs (.add (fire .add ⟨0x7FFFFFFFFFFF, tyPtr⟩ (i 1) (i 0))) base = some [(0xFFFF800000000000, tyPtr.toNat)] := by decide +kernel

/-- R116: an addition that wraps sets IOV; one that does not, does not. -/
theorem test_iov : field (.add (fire .add m5 (i 7) (i 0))) base (F.CTXTAB_FPSTICKY_IOV 1) = some 1 ∧
    field (.add (fire .add (i 3) (i 7) (i 0))) base (F.CTXTAB_FPSTICKY_IOV 1) = some 0 := by decide +kernel

/-- R119, R120: logic, shifts and bit operations. -/
theorem test_logic :
    outs (.and (fire .and (i 12) (i 10) (i 0))) base = some [(8, 0)] ∧ outs (.or (fire .or (i 12) (i 10) (i 0))) base = some [(14, 0)] ∧
    outs (.xor (fire .xor (i 12) (i 10) (i 0))) base = some [(6, 0)] ∧ outs (.andn (fire .andn (i 12) (i 10) (i 0))) base = some [(4, 0)] ∧
    outs (.not (fire .not (i 0) (i 10) (i 0))) base = some [(2 ^ 64 - 1, 0)] ∧ outs (.not (fire .not (b 1) (i 10) (i 0))) base = some [(0, 4)] ∧
    outs (.shl (fire .shl (i 3) (i 65) (i 0))) base = some [(6, 0)] ∧ outs (.shr (fire .shr (i (2 ^ 63)) (i 62) (i 0))) base = some [(2, 0)] ∧
    outs (.sar (fire .sar (i (2 ^ 63)) (i 63) (i 0))) base = some [(2 ^ 64 - 1, 0)] := by decide +kernel

theorem test_rotates_counts :
    outs (.rol (fire .rol (i (2 ^ 63 + 1)) (i 1) (i 0))) base = some [(3, 0)] ∧ outs (.ror (fire .ror (i 3) (i 1) (i 0))) base = some [(2 ^ 63 + 1, 0)] ∧
    outs (.popc (fire .popc m5 (i 0) (i 0))) base = some [(63, 0)] ∧ outs (.clz (fire .clz (i 1) (i 0) (i 0))) base = some [(63, 0)] := by decide +kernel

theorem test_bit_operations :
    outs (.ctz (fire .ctz (i 8) (i 0) (i 0))) base = some [(3, 0)] ∧
    outs (.bswap (fire .bswap (i 0x0102030405060708) (i 0) (i 0))) base = some [(0x0807060504030201, 0)] ∧
    outs (.brev (fire .brev (i 1) (i 0) (i 0))) base = some [(2 ^ 63, 0)] ∧
    outs (.bext (fire .bext (i 0xABCD) (i (8 * 256 + 4)) (i 0))) base = some [(0xBC, 0)] ∧
    outs (.bins (fire .bins (i 0xABCD) (i (8 * 256 + 4)) (i 0x12))) base = some [(0xA12D, 0)] := by decide +kernel

/-- What the hypotheses of the bit operations ask of n and v. -/
theorem witness_LogicComparisonsDivides :
    (i 10).typ ≠ tyBool ∧ (b 1).typ = tyBool ∧ (∀ k < 63, (i 1).value.getLsbD (64 - 1 - k) = false) ∧ (i 1).value.getLsbD (64 - 1 - 63) = true ∧
    (∀ k < 64, (i 0).value.getLsbD k = false) ∧
    (∀ k < 64, (0x0807060504030201 : Word).getLsbD k = (0x0102030405060708 : Word).getLsbD (64 - 8 - 8 * (k / 8) + k % 8)) ∧
    (∀ k < 64, (0x8000000000000000 : Word).getLsbD k = (1 : Word).getLsbD (64 - 1 - k)) ∧
    (∀ k < 64, (0xBC : Word).getLsbD k = if k < 8 then (0xABCD : Word).getLsbD (4 + k) else false) ∧
    (∀ k < 64, (0xA12D : Word).getLsbD k = if 4 ≤ k ∧ k < 12 then (0x12 : Word).getLsbD (k - 4) else (0xABCD : Word).getLsbD k) ∧
    (i (8 * 256 + 4)).value = BitVec.ofNat 64 (8 * 256 + 4) ∧ (fire .div (i 1) (i 2) (i 0)).trap = false := by decide +kernel

/-- R117: comparisons of 2^64−5 and 7, unsigned. -/
theorem test_comparisons :
    outs (.cmpeq (fire .cmpeq m5 (i 7) (i 0))) base = some [(0, 4)] ∧ outs (.cmpne (fire .cmpne m5 (i 7) (i 0))) base = some [(1, 4)] ∧
    outs (.cmplt (fire .cmplt m5 (i 7) (i 0))) base = some [(0, 4)] ∧ outs (.cmple (fire .cmple m5 (i 7) (i 0))) base = some [(0, 4)] ∧
    outs (.cmpgt (fire .cmpgt m5 (i 7) (i 0))) base = some [(1, 4)] ∧ outs (.cmpge (fire .cmpge (i 7) (i 7) (i 0))) base = some [(1, 4)] := by decide +kernel

/-- The main domains with an operation at work in divider 0 of tuft 0 of die 1. -/
def divAt (f : Firing) : Main := { base with tuft := { base.tuft with divs := [{ die := 1, tuft := 0, pair := 0, cur := f, queue := [] }] } }

theorem witness_dividers : base.tuft.divs = [] ∧ (divAt (fire .div (i 7) (i 2) (i 0))).tuft.divs.map (fun d => d.queue.length) = [0] := by decide +kernel

/-- R117, R191: 17 by 5; 17 by 0; a divide starts on an idle divider and sends nothing. -/
theorem test_divides :
    outs (.div (fire .div (i 17) (i 5) (i 0)) 0) base = some [] ∧
    outs (.dividerComplete 1 0 0) (divAt (fire .div (i 17) (i 5) (i 0))) = some [(3, 0)] ∧
    outs (.dividerComplete 1 0 0) (divAt (fire .rem (i 17) (i 5) (i 0))) = some [(2, 0)] ∧
    outs (.dividerComplete 1 0 0) (divAt (fire .divrem (i 17) (i 0) (i 0))) = some [(0, 0)] ∧
    outs (.dividerComplete 1 0 0) (divAt (fire .rem (i 17) (i 0) (i 0))) = some [(17, 0)] ∧
    field (.dividerComplete 1 0 0) (divAt (fire .div (i 17) (i 0) (i 0))) (F.CTXTAB_FPSTICKY_IDZ 1) = some 1 := by decide +kernel

/-! ### Floating point (R168 to R191) -/

def one : Nat := 0x3FF0000000000000
def two : Nat := 0x4000000000000000
def three : Nat := 0x4008000000000000

/-- R173: sums, products and fused operations of 1, 2 and 3 in binary64; the lesser and the greater; an integral value; conversions. -/
theorem test_fp_arithmetic :
    outs (.fadd (fire .fadd (d one) (d two) (i 0))) base = some [(three, 1)] ∧ outs (.fsub (fire .fsub (d three) (d two) (i 0))) base = some [(one, 1)] ∧
    outs (.fmul (fire .fmul (d two) (d three) (i 0))) base = some [(0x4018000000000000, 1)] ∧
    outs (.fma (fire .fma (d one) (d two) (d three))) base = some [(0x4014000000000000, 1)] ∧
    outs (.fms (fire .fms (d one) (d two) (d three))) base = some [(0xBFF0000000000000, 1)] ∧
    outs (.fnma (fire .fnma (d one) (d two) (d three))) base = some [(one, 1)] ∧
    outs (.fmin (fire .fmin (d one) (d two) (i 0))) base = some [(one, 1)] ∧ outs (.fmax (fire .fmax (d one) (d two) (i 0))) base = some [(two, 1)] ∧
    outs (.fminm (fire .fminm (d one) (d two) (i 0))) base = some [(one, 1)] ∧ outs (.fmaxm (fire .fmaxm (d one) (d two) (i 0))) base = some [(two, 1)] ∧
    outs (.frint (fire .frint (d 0x4004000000000000) (i 0) (i 0))) base = some [(two, 1)] := by decide +kernel

theorem test_fp_conversions :
    outs (.fcvtid (fire .fcvtid (i 3) (i 0) (i 0))) base = some [(three, 1)] ∧ outs (.fcvtdi (fire .fcvtdi (d three) (i 0) (i 0))) base = some [(3, 0)] ∧
    outs (.fcvtds (fire .fcvtds (d one) (d two) (i 0))) base = some [(0x400000003F800000, tyFp32.toNat)] ∧
    outs (.fcvtsd (fire .fcvtsd (i 0x400000003F800000) (i 0) (i 0))) base = some [(one, 1)] := by decide +kernel

theorem test_fp_bits :
    outs (.fneg (fire .fneg (d one) (i 0) (i 0))) base = some [(0xBFF0000000000000, 1)] ∧
    outs (.fabs (fire .fabs (d 0xBFF0000000000000) (i 0) (i 0))) base = some [(one, 1)] ∧
    outs (.fcpys (fire .fcpys (d one) (d 0xC000000000000000) (i 0))) base = some [(0xBFF0000000000000, 1)] ∧
    outs (.fcmpeq (fire .fcmpeq (d 0) (d 0x8000000000000000) (i 0))) base = some [(1, 4)] ∧
    outs (.fcmplt (fire .fcmplt (d one) (d two) (i 0))) base = some [(1, 4)] ∧ outs (.fcmple (fire .fcmple (d two) (d one) (i 0))) base = some [(0, 4)] ∧
    outs (.fcmpun (fire .fcmpun (d one) (d 0x7FF8000000000000) (i 0))) base = some [(1, 4)] ∧
    outs (.fsetf (fire .fsetf (i 0) (i 0) (i 0))) base = some [(0, 4)] := by decide +kernel

theorem test_fp_divides :
    outs (.fdiv (fire .fdiv (d one) (d two) (i 0)) 0) base = some [] ∧ outs (.fsqrt (fire .fsqrt (d one) (i 0) (i 0)) 0) base = some [] ∧
    outs (.dividerComplete 1 0 0) (divAt { fire .fdiv (d 0x4018000000000000) (d two) (i 0) with epoch := some (false, 0) }) = some [(three, 1)] ∧
    outs (.dividerComplete 1 0 0) (divAt { fire .fsqrt (d 0x4010000000000000) (i 0) (i 0) with epoch := some (false, 0) }) = some [(two, 1)] := by decide +kernel

/-- R170, R175, R177: 1/3 is inexact and rounded down in RNE; the least normal halved underflows to zero; a subnormal operand is none. -/
theorem test_fp_rounding : (b64.div 0 one three).bits = 0x3FD5555555555555 ∧ (b64.div 0 one three).flags = flagNX ∧
    b64.isSub 1 = true ∧ b64.isSub 0x0010000000000000 = false ∧ b64.isSub (b64.div 0 0x0010000000000000 two).bits = false := by decide +kernel

theorem witness_FloatingPointOps : noTrap base (fire .fadd (d one) (d two) (i 0)) ((fire .fadd (d one) (d two) (i 0)).lanes 2 (fun k x => k.add 0 false (x 0) (x 1))) ∧
    (base.set (F.CTXTAB_FPCTL_CT 1) 1).get (F.CTXTAB_FPCTL_CT 1) = 1 := by unfold noTrap; decide +kernel

theorem witness_NoSubnormalResults : b64.isSub one = false ∧ one < 2 ^ b64.width ∧ 0x3F800000 < 2 ^ b32.width ∧ b32.isSub 0x3F800000 = false := by decide +kernel

theorem witness_RoundsCorrectly : (b64.round 0 false 5 (-4)).tiny = false ∧ (b64.round 0 false 5 (-4)).flags = 0 ∧
    b64.exp (b64.round 0 false 5 (-4)).bits ≤ -4 ∧ b64.exp (b64.round 0 false 5 (-4)).bits ≤ b64.exp (b64.round 0 false 5 (-4)).bits ∧
    (b64.round 0 true (2 ^ 60 + 1) 0).flags = flagNX := by decide +kernel

/-- An FP epoch that waits for no report; one that waits for tuft 0 of die 1; three. -/
def closing (k : Nat) (w : List Nat) : Closing :=
  { epoch := k, fbar := (fire .fbar (i 0) (i 0) (i 0)).ret, flags := 1, traps := 0, ops := 2, waitFor := w }
def unitWith (cs : List Closing) : Main := base.putUnit { base.unitOf 1 false with closing := cs }

theorem witness_FpEpochs :
    (base.unitOf 1 false).closing.length < 3 ∧ ((unitWith [closing 0 [], closing 1 [], closing 2 []]).unitOf 1 false).closing.length = 3 ∧
    ((unitWith [closing 0 [8]]).unitOf 1 false).closing = [closing 0 [8]] ∧ (unitWith [closing 0 [8]]).undrained 1 0 1 false 0 = false ∧
    (unitWith [closing 0 [8]]).tuft.epochs = [] ∧ ((unitWith [closing 0 []]).unitOf 1 false).waiting = [] ∧ (unitWith [closing 0 []]).dead 1 = false ∧
    (unitWith [closing 0 []]).req.fpTraps = [] := by decide +kernel

/-- R183: FBAR opens the next epoch; its result is flags in [7:0], the epoch, traps and operations. -/
theorem test_fp_epochs : outs (.fbar (fire .fbar (i 0) (i 0) (i 0))) base = some [] ∧
    outs (.fbarResult 1 false) (unitWith [closing 3 []]) = some [(1 + 3 * 2 ^ 8 + 2 * 2 ^ 32, 0)] := by decide +kernel

/-! ### Memory (R121 to R139, R161 to R163, R263 to R280) -/

/-- base with translation on for context 1 and a page at VA 0x10000 in the FSRAM at 0x80_0010_0000. -/
def xl : Main :=
  let m := base.set (F.CTXTAB_PTROOT_EN 1) 1
  { m with tuft := { m.tuft with tlb := [{ owner := .tuft 1 0, ctx := 1, part := false, big := false, vpn := 1, pa := 0x8000100000, r := true, w := true,
                                            is_ := false }] } }

/-- xl with the page an I-structure page in bank 0 of die 1, which context 1 owns. -/
def xs : Main :=
  let m := (((base.set (F.CTXTAB_PTROOT_EN 1) 1).set (F.BANK_OWN_KIND 1 0) 1).set (F.BANK_OWN_ID 1 0) 1).set (F.BANK_OWN_DONE 1 0) 1
  { m with tuft := { m.tuft with tlb := [{ owner := .tuft 1 0, ctx := 1, part := false, big := false, vpn := 1, pa := 0x9000000000, r := true, w := true,
                                            is_ := true }] } }

def ptr (x : Nat) : Opnd := ⟨w64 x, tyPtr⟩

/-- A memory firing at VA 0x10000. -/
def memF (o : Op) : Firing := fire o (ptr 0x10000) (if o = .load ∨ o = .store ∨ o = .iload ∨ o = .istore ∨ o = .iclear then i 0 else i 3) (i 77)

/-- A request of such a firing. -/
def memQ (o : Op) (k : MemOp) (pa : Nat) : MemReq :=
  { f := memF o, op := k, pa := pa, bytes := 8, data := (k.data (memF o)).1, data2 := (k.data (memF o)).2 }

def asked (m : Main) (r : MemReq) : Main := { m with req := { m.req with reqs := [r] } }

theorem witness_MemoryOperationsIssue :
    xl.outstanding 1 0 < 64 ∧ (memF .load).left.isAddress = true ∧ (xl.executed (memF .load)).xlateOn 1 = true ∧
    (xl.tlbFind (xl.xlateOf (memF .load)) 0x10000).map (fun e => (e.paOf 0x10000, protDetail 1 .load (e.paOf 0x10000) e.r e.w, e.is_, MemOp.load.istr)) =
      some (0x8000100000, 0, false, false) ∧
    aliasOf 0x8000100000 = 0 ∧ aligned 0x8000100000 8 0 = true ∧
    (xs.tlbFind (xs.xlateOf (memF .iload)) 0x10000).map (fun e => (e.paOf 0x10000, protDetail 1 .iload (e.paOf 0x10000) e.r e.w, e.is_, MemOp.iload.istr)) =
      some (0x9000000000, 0, true, true) ∧ isScratch 0x9000000000 = true ∧
    (base.tlbFind (base.xlateOf (memF .load)) 0x10000) = none ∧ (base.set (F.CTXTAB_PTROOT_EN 1) 1).xlateOn 1 = true ∧
    64 ≤ ({ base with req := { base.req with walks := List.replicate 64 (memF .load) } } : Main).outstanding 1 0 := by decide +kernel

/-- Each memory operation becomes a request; on a miss it waits for a walk. -/
theorem test_memory_issue :
    (after (.load (memF .load)) xl).map (fun m => m.req.reqs.map (fun r => (r.pa, r.bytes))) = some [(0x8000100000, 8)] ∧
    (after (.store (memF .store)) xl).map (fun m => m.req.reqs.map (fun r => (r.pa, r.data.toNat))) = some [(0x8000100000, 77)] ∧
    (after (.aadd (memF .aadd)) xl).map (fun m => m.req.reqs.map (fun r => (r.pa, r.data.toNat))) = some [(0x8000100000, 3)] ∧
    (after (.acas (memF .acas)) xl).map (fun m => m.req.reqs.map (fun r => (r.data.toNat, r.data2.toNat))) = some [(3, 77)] ∧
    (after (.iload (memF .iload)) xs).map (fun m => m.req.reqs.map (fun r => r.pa)) = some [0x9000000000] ∧
    (after (.load (memF .load)) (base.set (F.CTXTAB_PTROOT_EN 1) 1)).map (fun m => m.req.walks.length) = some 1 := by decide +kernel

theorem witness_MemoryResponses :
    memQ .load .load 0x8000100000 ∈ (asked xl (memQ .load .load 0x8000100000)).req.reqs ∧ isRegs 0x8000100000 = false ∧
    xl.gate (memQ .load .load 0x8000100000).id 0x8000100000 false = .go ∧ xl.gate (memQ .store .store 0x8000100000).id 0x8000100000 true = .go ∧
    (∀ wa ∈ wordsOf 0x8000100000 8, xl.wordUe wa = false ∧ wa ∉ xl.mem.ce) ∧
    (xl.writeMem 0x8000100000 77 8).1 = true ∧ MemOp.aadd.atomic = true ∧
    (base.set (F.BANK_OWN_DONE 1 0) 0).gate { ctx := 1, die := 1, flume := none, external := false, debug := false } 0x9000000000 false ≠ .go ∧
    ((xs.set (F.BANK_PWR_STATE 1 0) 3).gate (memQ .load .load 0x9000000000).id 0x9000000000 false) = .wait ∧
    viaPortB 1 0x8000100000 = true ∧ aliasOf 0x8000100000 = 0 := by decide +kernel

/-- R124, R131: a byte is stored in little-endian order, and a load reads it; an atomic addition gives the old value and writes the sum. -/
theorem test_memory_response :
    (after (.memoryResponse (memQ .store .store 0x8000100000) .clear) (asked xl (memQ .store .store 0x8000100000))).map (fun m => m.peek 0x8000100000 8) = some 77 ∧
    outs (.memoryResponse (memQ .load .load 0x8000100000) .clear) (asked (xl.writeMem 0x8000100000 0x0201 8).2 (memQ .load .load 0x8000100000)) =
      some [(0x0201, 0)] ∧
    outs (.memoryResponse (memQ .aadd .aadd 0x8000100000) .clear) (asked (xl.writeMem 0x8000100000 40 8).2 (memQ .aadd .aadd 0x8000100000)) =
      some [(40, 0)] ∧
    (after (.memoryResponse (memQ .aadd .aadd 0x8000100000) .clear) (asked (xl.writeMem 0x8000100000 40 8).2 (memQ .aadd .aadd 0x8000100000))).map
      (fun m => m.peek 0x8000100000 8) = some 43 ∧
    (xl.writeMem 0x8000100000 0x0201 8).2.peek 0x8000100001 1 = 2 := by decide +kernel

theorem witness_MemoryKeepsBytes : cellsWf Main.reset.mem.cells = true ∧ cellsWf (xl.writeMem 0x8000100000 77 8).2.mem.cells = true ∧
    (xl.writeMem 0x8000100000 77 8).2.mem.cells ≠ [] := by decide +kernel

theorem witness_IStructures :
    memQ .iload .iload 0x9000000000 ∈ (asked xs (memQ .iload .iload 0x9000000000)).req.reqs ∧ isRegs 0x9000000000 = false ∧
    xs.gate (memQ .iload .iload 0x9000000000).id 0x9000000000 false = .go ∧ xs.gate (memQ .istore .istore 0x9000000000).id 0x9000000000 true = .go ∧
    xs.presence (Sys2Proof.Machine.wordOf 0x9000000000) = 0 ∧ (xs.setPresence (Sys2Proof.Machine.wordOf 0x9000000000) 1).presence (Sys2Proof.Machine.wordOf 0x9000000000) = 1 ∧
    (xs.setPresence (Sys2Proof.Machine.wordOf 0x9000000000) 2).presence (Sys2Proof.Machine.wordOf 0x9000000000) = 2 ∧
    xs.wordUe (Sys2Proof.Machine.wordOf 0x9000000000) = false ∧ xs.deferred (regionOf 0x9000000000).die < 8192 ∧
    (memQ .istore .istore 0x9000000000).port .clear = .clear ∧ (memF .iload).replay = none := by decide +kernel

/-- R137: a read of an EMPTY word waits; a write delivers to it. -/
theorem test_istructures :
    (after (.memoryResponse (memQ .iload .iload 0x9000000000) .clear) (asked xs (memQ .iload .iload 0x9000000000))).map
      (fun m => (m.presence (Sys2Proof.Machine.wordOf 0x9000000000), m.req.defer.length, m.tok.inflight.length)) = some (2, 1, 0) ∧
    (match after (.memoryResponse (memQ .iload .iload 0x9000000000) .clear) (asked xs (memQ .iload .iload 0x9000000000)) with
     | some m => outs (.memoryResponse (memQ .istore .istore 0x9000000000) .clear) (asked m (memQ .istore .istore 0x9000000000))
     | none => none) = some [(1, 4), (77, 0)] := by decide +kernel

/-- A walk from a root at FSRAM 0x80_0020_0000: level 1 entry 0, level 2 entry 0, level 3 entry 1 a leaf to 0x80_0010_0000 with R and W. -/
def walking : Main :=
  let m := ((base.set (F.CTXTAB_PTROOT_EN 1) 1).set (F.CTXTAB_PTROOT_ROOT 1) 0x8000200)
  let m := (m.writeMem 0x8000200000 (0x8000201000 + 1) 8).2
  let m := (m.writeMem 0x8000201000 (0x8000202000 + 1) 8).2
  let m := (m.writeMem 0x8000202008 (0x8000100000 + 0xF) 8).2
  { m with req := { m.req with walks := [memF .load] } }

theorem witness_TableWalks :
    memF .load ∈ walking.req.walks ∧ walking.xlateOn 1 = true ∧ walking.tlbFind (walking.xlateOf (memF .load)) 0x10000 = none ∧
    walking.wcFind (walking.xlateOf (memF .load)) 2 0 = none ∧ walking.wcFind (walking.xlateOf (memF .load)) 1 0 = none ∧
    walking.ptRoot 1 false = 0x8000200000 ∧ (walking.peek 0x8000200000 8) = 0x8000201001 ∧
    (match pteKind 1 0x8000201001 with | .ok false => true | _ => false) = true ∧ (match pteKind 3 0x800010000F with | .ok true => true | _ => false) = true ∧
    (match pteKind 1 0 with | .error 0 => true | _ => false) = true ∧ memF .load ∉ base.req.walks := by decide +kernel

/-- R271: the walk's mapping enters the TLB and the load becomes a request at the physical address. -/
theorem test_table_walk :
    (after (.tableWalk (memF .load)) walking).map (fun m => (m.req.reqs.map (fun r => r.pa), m.tuft.tlb.length)) = some ([0x8000100000], 1) := by decide +kernel

/-- A firing of context 0. -/
def priv (o : Op) (l r t : Opnd) : Firing := { fire o l r t with ctx := 0 }

/-- A locator of slot 7 of tuft 0 of die 1 (R161). -/
def loc7 : Nat := 2 ^ 18 + 7

theorem witness_PrivilegedOperations :
    executes (base.set (F.CTXTAB_STATE_RUN 0) 1) (priv .pload (i 0x8000100000) (i 0) (i 0)) .pload = true ∧ privileged 0 = true ∧ privileged 1 = false ∧
    base.outstanding 1 0 < 64 ∧ base.isPaired (priv .pload (i 0x8000100000) (i 0) (i 0)) = false ∧ (i 0x8000100000).isPhys = true ∧
    reservedFsram 0x8000100000 = false ∧ isRegs 0x8000100000 = false ∧ aligned 0x8000100000 8 0 = true ∧ locator loc7 = some (1, 0, 7) ∧
    base.compute 1 = true ∧ base.dieLive 1 = true ∧ base.req.walks = [] ∧ base.req.reqs = [] ∧ base.req.tlbInvs = [] := by decide +kernel

def base0 : Main := base.set (F.CTXTAB_STATE_RUN 0) 1

/-- R161 to R163: IMWRITE and IMREAD of a slot; TLBINV removes the page; PLOAD asks at the physical address. -/
theorem test_privileged :
    (after (.imwrite (priv .imwrite (i loc7) (i 1) (i 99))) base0).map (fun m => (m.slot 1 0 7).2.toNat) = some 99 ∧
    (outs (.imread (priv .imread (i loc7) (i 1) (i 99))) base0).map List.length = some 1 ∧
    (after (.tlbinv (priv .tlbinv (i 1) (i 0x10000) (i 0))) { base0 with tuft := xl.tuft }).map (fun m => m.tuft.tlb.length) = some 0 ∧
    (after (.pload (priv .pload (i 0x8000100000) (i 8) (i 0))) base0).map (fun m => m.req.reqs.map (fun r => r.pa)) = some [0x8000100008] ∧
    (after (.pstore (priv .pstore (i 0x8000100000) (i 8) (i 5))) base0).map (fun m => m.req.reqs.map (fun r => r.data.toNat)) = some [5] ∧
    (after (.pload (fire .pload (i 0x8000100000) (i 8) (i 0))) base).map (fun m => m.req.reqs.length) = some 0 := by decide +kernel

/-! ### Runnels (R140 to R147, R314 to R320) -/

def live1 (m : Main) (us : List UnitId) : Main := { m with ust := { m.ust with live := us } }

/-- base with runnel 5 of die 1 live, context 1 its producer and its consumer, CAP 4. -/
def rb : Main := live1 (((base.set (F.RUNNEL_PROD_ID 1 5) 1).set (F.RUNNEL_CONS_ID 1 5) 1).set (F.RUNNEL_CFG_CAP 1 5) 4) [.runnel 1 5]

/-- The identifier of runnel 5 of die 1. -/
def rid : Opnd := i (2 ^ 14 + 5)
def io : RnIo := { ecc := .ok, lag := 0 }
def rf (o : Op) (l : Opnd) : Firing := fire o l rid (i 0)
/-- The same with NOWAIT. -/
def rfNow (o : Op) (l : Opnd) : Firing :=
  fireW (IWord.toWord { opc := BitVec.ofNat 10 o.row.opc, mode := 0, tagop := 0, flags := 1, dest0 := 0x100, dest1 := 0x200 }) l rid (i 0)

/-- A packet of two words, and runnels that hold it, wholly or in part. -/
def pk : Packet := { serial := 0, words := [i 8, i 9], got := 0 }
def withPkts (ps : List Packet) : Main := { rb with runnels := [{ die := 1, idx := 5, pkts := ps, open_ := none, held := [], out := 0 }] }
def opened (ws : List Opnd) (doomed : Bool) : OpenPkt :=
  { serial := 7, next := ws.length, words := ws, doomed := doomed, aborted := false, by_ := some (rf .pktbegin (i 0)).ret, via := [] }
def withOpen (p : OpenPkt) : Main := { rb with runnels := [{ die := 1, idx := 5, pkts := [], open_ := some p, held := [], out := 0 }] }

def reachesB (m : Main) (f : Firing) (o : Op) (d i : Nat) : Bool :=
  decide (m.reaches f.die.val d = true ∧ m.live (.runnel d i) = true ∧
    (if o.producer then m.rnProd d i else m.rnCons d i) = (0, f.ctx.toNat) ∧ (o = .recv → m.rnPush d i = false) ∧ m.isPaired f = false)

theorem reaches_of {m : Main} {f : Firing} {o : Op} {d i : Nat} (h : reachesB m f o d i = true) : m.rnReaches f o d i := by
  have h2 := of_decide_eq_true h
  exact h2

theorem witness_RunnelSendRecv :
    (rb.requested (rf .send (i 8))).rnReaches (rf .send (i 8)) .send 1 5 ∧ ((withPkts [pk]).requested (rf .recv (i 8))).rnReaches (rf .recv (i 8)) .recv 1 5 ∧
    (runnelId (rf .send (i 8)).right.value.toNat = some (1, 5) ∧ rb.rnRoom (rb.rn 1 5) = true ∧ rb.rnDiscards 1 5 [i 8] = false ∧
    (withPkts [pk, pk]).rnRoom ((withPkts [pk, pk]).rn 1 5) = false ∧ (rfNow .send (i 8)).nowait = true ∧ (rf .send (i 8)).nowait = false ∧
    ((withPkts [pk]).rn 1 5).pkts = [pk] ∧ pk.words[pk.got]? = some (i 8) ∧ ((withPkts [pk]).rn 1 5).held = [] ∧ (rb.rn 1 5).pkts = [] ∧
    (rf .recv (i 8)).op = some .recv ∧ (withPkts [pk]).rnCrosses 1 5 = false ∧ (∀ r ∈ base.runnels, rf .recv (i 8) ∉ r.held)) :=
  ⟨reaches_of (by decide +kernel), reaches_of (by decide +kernel), by decide +kernel⟩

/-- R140, R146: a SEND commits a packet of one word; a RECV takes the oldest word; NOWAIT on an empty runnel sends nothing to DEST0. -/
theorem test_send_recv :
    (after (.send (rf .send (i 8)) io) rb).map (fun m => (m.rn 1 5).pkts.map (fun p => p.words.map (fun o => o.value.toNat))) = some [[8]] ∧
    outs (.recv (rf .recv (i 0)) io) (withPkts [pk]) = some [(8, 0)] ∧
    (after (.recv (rf .recv (i 0)) io) rb).map (fun m => (m.rn 1 5).held.length) = some 1 ∧
    (outs (.recv (rfNow .recv (i 0)) io) rb).map List.length = some 1 ∧
    (after (.send (rf .send (i 8)) io) (withPkts [pk, pk])).map (fun m => (m.rn 1 5).held.length) = some 1 ∧
    outs (.heldRunnelRequest (rf .recv (i 0)) io) { rb with runnels := [{ die := 1, idx := 5, pkts := [pk], open_ := none, held := [rf .recv (i 0)], out := 0 }] } =
      some [(8, 0)] := by decide +kernel

theorem pktOf_of {o : Opnd} {p : OpenPkt} {d i : Nat} (h : decide (o.isControl 0x10 = true ∧ bitsOf o.value.toNat 57 7 = 0 ∧
    runnelId (bitsOf o.value.toNat 8 17) = some (d, i) ∧ p.handles o = true) = true) : o.pktOf p d i := by
  have h2 := of_decide_eq_true h
  exact h2

/-- A packet handle of runnel 5 of die 1, serial 7, its next word. -/
def ph (n : Nat) : Opnd := pktVal 1 5 n 7
def pf (o : Op) (n : Nat) (v : Opnd) : Firing := fire o (ph n) v (i 0)

theorem witness_RunnelPackets :
    (ph 1).pktOf (opened [i 8] false) 1 5 ∧ (rb.requested (rf .pktbegin (i 0))).rnReaches (rf .pktbegin (i 0)) .pktbegin 1 5 ∧
    ((withOpen (opened [i 8] false)).requested (pf .pktword 1 (i 9))).rnReaches (pf .pktword 1 (i 9)) .pktword 1 5 ∧
    ((withOpen (opened [i 8] false)).requested (pf .pktcommit 1 (i 9))).rnReaches (pf .pktcommit 1 (i 9)) .pktcommit 1 5 ∧
    ((withOpen (opened [i 8] true)).requested (pf .pktabort 1 (i 9))).rnReaches (pf .pktabort 1 (i 9)) .pktabort 1 5 ∧
    ((withPkts [pk]).requested (rf .flush (i 9))).rnReaches (rf .flush (i 9)) .flush 1 5 ∧ ((withPkts [pk]).requested (rf .droprest (i 9))).rnReaches (rf .droprest (i 9)) .droprest 1 5 ∧
    ((rb.rn 1 5).open_ = none ∧ rb.rnRoom (rb.rn 1 5) = true ∧ ((withOpen (opened [i 8] false)).rn 1 5).open_ = some (opened [i 8] false) ∧
    (opened [i 8] false).words.length < (withOpen (opened [i 8] false)).rnCap 1 5 ∧ (withOpen (opened [i 8] false)).rnRoom ((withOpen (opened [i 8] false)).rn 1 5) = true ∧
    rb.rnPush 1 5 = false ∧ ({ pk with got := 1 } : Packet).got ≠ 0) :=
  ⟨pktOf_of (by decide +kernel), reaches_of (by decide +kernel), reaches_of (by decide +kernel), reaches_of (by decide +kernel), reaches_of (by decide +kernel),
    reaches_of (by decide +kernel), reaches_of (by decide +kernel), by decide +kernel⟩

/-- rb as a push runnel of context 1, IA 0x00020, SPAN 0, with a packet. -/
def pushed (p : Packet) : Main := ((withPkts [p]).set (F.RUNNEL_CFG_PUSH 1 5) 1).set (F.RUNNEL_PUSH_IA 1 5) 0x20

theorem witness_PushDelivery :
    ((pushed pk).rn 1 5).pkts = [pk] ∧ (pushed pk).live (.runnel 1 5) = true ∧ (pushed pk).rnPush 1 5 = true ∧ ((pushed pk).rnCons 1 5) = (0, 1) ∧ (pushed pk).dead 1 = false ∧
    (pushed pk).throttled 1 = false ∧ (pushed pk).get (F.RUNNEL_PUSH_CRED 1 5) = 0 ∧ pk.got ≤ (pushed pk).get (F.RUNNEL_PUSH_SPAN 1 5) ∧
    (pushed { pk with got := 1 }).get (F.RUNNEL_PUSH_SPAN 1 5) < ({ pk with got := 1 } : Packet).got := by decide +kernel

/-- R142 to R145, R317: a packet is begun, extended, committed whole, aborted, flushed, and dropped in part; a push runnel delivers its word. -/
theorem test_packets :
    (after (.pktbegin (rf .pktbegin (i 0)) io) rb).map (fun m => ((m.rn 1 5).open_.map (fun p => p.words.length))) = some (some 0) ∧
    (after (.pktword (pf .pktword 1 (i 9)) io) (withOpen (opened [i 8] false))).map (fun m => ((m.rn 1 5).open_.map (fun p => p.words.length))) = some (some 2) ∧
    (after (.pktcommit (pf .pktcommit 1 (i 9)) io) (withOpen (opened [i 8] false))).map (fun m => ((m.rn 1 5).open_.isNone, (m.rn 1 5).pkts.length)) = some (true, 1) ∧
    (after (.pktabort (pf .pktabort 1 (i 9))) (withOpen (opened [i 8] false))).map (fun m => ((m.rn 1 5).open_.isNone, (m.rn 1 5).pkts.length)) = some (true, 0) ∧
    (after (.flush (rf .flush (i 9))) (withPkts [pk, pk])).map (fun m => (m.rn 1 5).pkts.length) = some 0 ∧
    (after (.droprest (rf .droprest (i 9))) (withPkts [{ pk with got := 1 }, pk])).map (fun m => (m.rn 1 5).pkts.length) = some 1 ∧
    (after (.pushDelivery 1 5 io) (pushed pk)).map (fun m => m.tok.inflight.map (fun t => (t.ia.toNat, t.value.toNat))) = some [(0x20, 8)] ∧
    field (.pushDelivery 1 5 io) (pushed { pk with got := 1 }) (F.RUNNEL_STAT_PUSHTRUNC 1 5) = some 1 := by decide +kernel

/-! ### Weirs, references, outputs, changeover (R147 to R150, R192 to R231) -/

theorem witness_WeirOperations : refOperand (fire .wstamp (i 1) (i 48) (i 5)).right.value.toNat = some 48 ∧
    refOperand (fire .wstamp (i 1) (i 0) (i 5)).right.value.toNat = none ∧ refOperand 49 = none ∧ refOperand 1 = some 1 ∧
    (fire .wstamp (i 1) (i 48) (i 5)).replay = none := by decide +kernel

/-- R147 to R149: a stamped token; the WSEL of a token; a reference that the tuft has no frame for. -/
theorem test_weir_operations :
    (after (.wstamp (fire .wstamp (i 1) (i 2) (i 5))) base).map (fun m => m.tok.inflight.map (fun t => (t.wsel.toNat, t.stamp.toNat))) = some [(2, 5)] ∧
    outs (.winfo { fire .winfo (i 7) (i 0) (i 0) with wsel := 63 }) base = some [(7, 0)] ∧
    outs (.refget (fire .refget (i 7) (i 3) (i 0))) base = some [(0, 0)] ∧
    outs (.outst (fire .outst (i 1) (i 0) (i 0))) base = some [] := by decide +kernel

/-- base with the owner of timer channel 0x400 context 1, the channel live. -/
def ob : Main := live1 ((base.set (F.OUTSCHED_OWN_OWNED 0x400) 1).set (F.OUTSCHED_OWN_CTX 0x400) 1) [.channel 0x400]

/-- Channel 0x400 on reference 1, value 9, stamp x. -/
def outF (x : Nat) : Firing := fire .outst (i 9) (i (0x40000 + 1)) (i x)
def outE (x : Nat) (s : Bool) : OutEntry := { ch := 0x400, ref := 1, stamp := x, value := 9, ctx := 1, slot := none, seen := some s }

/-- ob with context 1 no owner but designated by an armed slot 0. -/
def od : Main :=
  let m := (live1 base [.channel 0x400]).set (F.CHG_STAT_STATE 0) 2
  { m with ref := { m.ref with slots := [{ k := 0, entries := [{ kind := 3, target := 0x400, value := 1 }], bad := none, armedAt := 0, seen := false, moved := [] }] } }

theorem witness_StampedOutputs :
    channelWord (outF 9).right.value.toNat = some (1, 0x400) ∧ refOperand 1 = some 1 ∧ ob.chanValueOk 0x400 9 = true ∧ ob.isPaired (outF 9) = false ∧
    ob.live (.channel 0x400) = true ∧ ob.mode ≠ 11 ∧ ob.outOwner 0x400 1 = true ∧ stampHolds (ob.refRule 1) 9 (ob.outWindow 0x400 1) none = false ∧
    stampHolds (ob.refRule 1) 0 (ob.outWindow 0x400 1) none = true ∧ ob.flag (F.OUTSCHED_CFG_LATEPOL 0x400) = false ∧
    (ob.set (F.OUTSCHED_CFG_LATEPOL 0x400) 1).flag (F.OUTSCHED_CFG_LATEPOL 0x400) = true ∧ ob.outRoom 0x400 = true ∧
    ((ob.set (F.OUTSCHED_CFG_CAP 0x400) 1).setOuts [outE 9 true]).outRoom 0x400 = false ∧
    base.outOwner 0x400 1 = false ∧ base.designate 0x400 1 = none ∧ od.outOwner 0x400 1 = false ∧ od.designate 0x400 1 = some 0 ∧ od.outRoom 0x400 = true := by decide +kernel

/-- R150, R216, R217: a stamp that is crossed applies at once; another waits; the step that finds it due applies it. -/
theorem test_outputs :
    (after (.outst (outF 9)) ob).map (fun m => m.ref.outs.length) = some 1 ∧
    (after (.outst (outF 0)) ob).map (fun m => m.ref.outs.length) = some 0 ∧ field (.outst (outF 0)) ob (F.OUTSCHED_STAT_LATE 0x400) = some 1 ∧
    (outs (.outnow (fire .outnow (i 9) (i 0x40000) (i 0))) ob).map List.length = some 1 ∧
    (after .outputSchedulerStep (ob.setOuts [outE 9 true])).map (fun m => m.ref.outs.length) = some 1 ∧
    (after .outputSchedulerStep { ob.setOuts [outE 9 true] with wall := { ns := 9 * 2 ^ 20, frac := 0, sec := 0 } }).map (fun m => m.ref.outs.length) = some 0 := by
  decide +kernel

theorem witness_OutputScheduler : ob.mode ≠ 10 ∧ ob.mode ≠ 11 ∧ (ob.setOuts [outE 9 true]).ref.outs = [outE 9 true] ∧ (ob.setOuts []).outHolds (outE 9 true) = false ∧
    ob.outHolds (outE 0 true) = true ∧ stampBefore (ob.travelUp 1) 0 1 = true ∧ (base.set F.MODE_CUR_MODE 10).mode = 10 ∧ chanOk 0x400 = true ∧ chanOk 0x43F = true ∧
    ob.chgNames 3 0x400 = [] ∧ ob.get (F.OUTSCHED_OWN_CTX 0x400) = 1 ∧ ob.flag (F.OUTSCHED_OWN_OWNED 0x400) = true ∧ od.chgNames 3 0x400 = [0] ∧
    (ob.setOuts [outE 9 true]).ref.outs.filter (fun o => o.ch == 0x400 && o.slot.isNone) ≠ [] := by decide +kernel

theorem test_output_owner :
    field (.outschedOwnWrite 0x400 0x102) ob (F.OUTSCHED_OWN_CTX 0x400) = some 2 ∧
    field (.outschedOwnWrite 0x400 0x102) (ob.setOuts [outE 9 true]) (F.OUTSCHED_STAT_CANCELLED 0x400) = some 1 ∧
    field (.outschedOwnWrite 0x400 0x102) od (F.CHG_STAT_LOCKHITS 0) = some 1 ∧
    (after (.outschedCancel 0x400) (ob.setOuts [outE 9 true])).map (fun m => m.ref.outs.length) = some 0 := by decide +kernel

/-- base with VIRTUAL reference 2 enabled at VEL 1.5. -/
def virt : Main := ((base.set (F.REF_SRC_KIND 2) 8).set (F.REF_SRC_EN 2) 1).set (F.REF_VEL_VEL 2) 0x18000
/-- base with an edge source as reference 3. -/
def edge (st : RefSt) : Main := ((base.set (F.REF_SRC_KIND 3) 2).set (F.REF_SRC_EN 3) 1).putRef st
def edgeSt : RefSt := { RefSt.zero 3 with edges := 2, lastAdv := some 5, periods := [10], dir := true, stand := false }
/-- base with a sampled source as reference 4. -/
def sampled : Main := ((base.set (F.REF_SRC_KIND 4) 9).set (F.REF_SRC_EN 4) 1).putRef { RefSt.zero 4 with samp := some (10, 20), samp2 := some (0, 10), stand := false }

theorem witness_ReferenceSteps :
    (base.set F.MODE_CUR_MODE 10).tick.mode = 10 ∧ base.sys.waking = false ∧ virt.tick.mode ≠ 10 ∧ virt.tick.refEn 2 = true ∧
    (∀ q ∈ List.range 49, 2 < q → virt.tick.refEn q = false) ∧ (∀ q ∈ List.range 49, 2 ≤ q → base.tick.refEn q = false) ∧ base.get F.TIME_RATE_TRIM = 0 ∧
    virt.refKind 2 = 8 ∧ (edge edgeSt).refKind 3 = 2 ∧ ((edge edgeSt).refSt 3).extrapolates = true ∧ (edge (RefSt.zero 3)).refKind 3 = 2 ∧
    ((edge (RefSt.zero 3)).refSt 3).extrapolates = false ∧ sampled.refKind 4 ∈ [3, 4, 5, 9] ∧ (sampled.refSt 4).samp = some (10, 20) ∧
    (sampled.refSt 4).samp2 = some (0, 10) ∧ (sampled.refSt 4).x = (sampled.refSt 4).far ∧ (sampled.refSt 4).stand = false := by decide +kernel

/-- R192, R204: a step is one nanosecond; the virtual reference advances by 1 and keeps half a count. -/
theorem test_reference_step :
    (after .referenceStep virt).map (fun m => (m.now, (m.refSt 2).pos, (m.refSt 2).rem)) = some (1, 1, 0x8000) := by decide +kernel

theorem witness_ReferenceCommands :
    base.refEn 2 = false ∧ virt.refEn 2 = true ∧ bitsOf (w64 0x408).toNat 0 4 < 10 ∧ bitsOf (w64 0x408).toNat 10 1 = 1 ∧ bitsOf (w64 8).toNat 10 1 = 0 ∧
    bitsOf (w64 8).toNat 0 4 = virt.refKind 2 ∧ bitsOf (w64 8).toNat 4 6 = virt.refSel 2 ∧ bitsOf (w64 8).toNat 6 2 ≠ 3 ∧ (virt.refSt 2).vneg = none ∧ (base.putRef { base.refSt 2 with vneg := some true }).refSt 2 = { base.refSt 2 with vneg := some true } ∧
    base.refKind 2 ≠ 8 ∧ sampled.refKind 4 = 9 ∧ sampled.refEn 4 = true ∧ (edge edgeSt).refEn 3 = true ∧ ((edge edgeSt).refSt 3).stand = false ∧
    (edge edgeSt).refStill ((edge edgeSt).refSt 3) (edge edgeSt).now = false ∧
    beyond (base.refUp (RefSt.zero 3)) (if base.refUp (RefSt.zero 3) then -300 else 300) 0 = false ∧ base.get (F.REF_WIN_REVHYST 3) < 300 := by decide +kernel

/-- R197, R199, R205: SRC starts a reference; a refused write records it; PRESET sets the position; VEL of the other sign reverses. -/
theorem test_reference_commands :
    field (.refSrcWrite 2 .src 0x408) base (F.REF_SRC_EN 2) = some 1 ∧ field (.refSrcWrite 2 .src 0x408) virt (F.REF_STAT_CFGREF 2) = some 1 ∧
    field (.refSrcWrite 2 .src 8) virt (F.REF_SRC_EN 2) = some 0 ∧
    (after (.refPresetWrite 2 100) base).map (fun m => (m.refSt 2).pos) = some 100 ∧ field (.refPresetWrite 2 100) virt (F.REF_STAT_PRESETREF 2) = some 1 ∧
    field (.refVelWrite 2 (0 - 1)) (virt.putRef { virt.refSt 2 with vneg := some false }) (F.REF_STAT_REVERSALS 2) = some 1 ∧
    field (.refVelWrite 2 (0 - 1)) virt (F.REF_STAT_REVERSALS 2) = some 0 ∧
    (after (.refSampletWrite 4 30) sampled).map (fun m => ((m.refSt 4).samp.map (fun p => p.2))) = some (some 30) ∧
    (after (.referenceStandstill 3) { edge edgeSt with wall := { ns := 2 ^ 33, frac := 0, sec := 0 } }).map (fun m => (m.refSt 3).stand) = some true := by decide +kernel

/-- base with a changeover slot 0 in a state, with entries. -/
def slot0 (st : Nat) (es : List ChgEntry) : Main := (base.set (F.CHG_STAT_STATE 0) st).putChg { k := 0, entries := es, bad := none, armedAt := 0, seen := false, moved := [] }

/-- base in CHANGEOVER, with another slot staging. -/
def ch5 : Main := (base.set F.MODE_CUR_MODE 5).set (F.CHG_STAT_STATE 1) 1

theorem witness_Changeover :
    base.get (F.CHG_STAT_STATE 0) ≠ 1 ∧ base.get (F.CHG_STAT_STATE 0) ≠ 2 ∧ (slot0 1 []).get (F.CHG_STAT_STATE 0) = 1 ∧ (slot0 2 []).get (F.CHG_STAT_STATE 0) = 2 ∧
    inFsram 0x8000100000 16 = true ∧ inFsram 0 16 = false ∧ base.inScratch 0 16 = false ∧
    (slot0 1 []).chgFirstErr 0 [] [] [] 0 = none ∧ ((slot0 1 []).chg 0).bad = none ∧ ((slot0 1 [⟨9, 0, 0⟩]).chgFirstErr 0 [⟨9, 0, 0⟩] [] [⟨9, 0, 0⟩] 0).isSome = true ∧
    stampHolds (base.refRule 1) 0 0 none = true ∧ stampHolds (base.refRule 1) 9 0 none = false ∧ (base.set (F.CHG_CTL_LATEACT 0) 1).flag (F.CHG_CTL_LATEACT 0) = true ∧
    base.flag (F.CHG_CTL_LATEACT 0) = false ∧ ((slot0 2 []).set (F.CHG_CTL_TMO 0) 1).get (F.CHG_CTL_TMO 0) ≠ 0 := by decide +kernel

/-- R221, R223, R226: an empty descriptor arms; the trigger on wall time 0 is crossed, so it commits; ABORT and TMO abort. -/
theorem test_changeover :
    field (.chgArm 0) ch5 (F.CHG_STAT_STATE 0) = some 3 ∧ field (.chgArm 0) (ch5.set (F.CHG_TRIG_STAMP 0) 9) (F.CHG_STAT_STATE 0) = some 2 ∧
    field (.chgArm 0) (ch5.set (F.CHG_DESC_BASE 0) 8) (F.CHG_STAT_ERR 0) = some 8 ∧ field (.chgAbort 0) (slot0 2 []) (F.CHG_STAT_ERR 0) = some 7 ∧
    field (.chgStagingDone 0) ((slot0 1 []).set (F.CHG_TRIG_STAMP 0) 9) (F.CHG_STAT_STATE 0) = some 2 ∧
    field (.chgTimeout 0) { (slot0 2 []).set (F.CHG_CTL_TMO 0) 1 with wall := { ns := 1000, frac := 0, sec := 0 } } (F.CHG_STAT_ERR 0) = some 6 ∧
    field (.chgCommit 0) (slot0 2 []) (F.CHG_STAT_STATE 0) = some 3 := by decide +kernel

/-- A token of a weir buffer on reference 1, held for a stamp. -/
def wt (x : Nat) (seen : Option Bool) : WeirTok :=
  { die := 1, tuft := 0, tok := { tok 0x11 2 5 with wsel := 1, stamp := w64 x |>.setWidth 32 }, entered := 0, seen := seen }
def weirAt (w : WeirTok) : Main := let m := base.set (F.REF_WEIR_TMO 1) 1; { m with tuft := { m.tuft with weir := [w] }, wall := { ns := 1000, frac := 0, sec := 0 } }

theorem witness_BusAndWeirs :
    base.compute 1 = true ∧ base.dieLive 1 = true ∧ (base.bus 1 0).seq = none ∧ (∀ k ∈ List.range 4, base.ref.frame.counts.getD k 0 = (base.bus 1 0).counts.getD k 0) ∧
    (base.putBus { base.bus 1 0 with seq := some 9, bad := 1 }).bus 1 0 = { base.bus 1 0 with seq := some 9, bad := 1 } ∧ base.ref.frame.seq ≠ 9 ∧
    (base.putBus { base.bus 1 0 with seq := some 9, bad := 2 }).bus 1 0 = { base.bus 1 0 with seq := some 9, bad := 2 } ∧
    (weirAt (wt 9 (some true))).weirHolds (wt 9 (some true)) = false ∧ (weirAt (wt 0 none)).weirHolds (wt 0 none) = true ∧
    (weirAt (wt 9 (some true))).get (F.REF_WEIR_TMO 1) ≠ 0 ∧ ((weirAt (wt 9 (some true))).bus 1 0).hold = false ∧
    (weirAt (wt 9 (some true))).flag (F.REF_WEIR_TMOACT 1) = false ∧ stampBefore (base.travelUp 1) 0 1 = true ∧ (MsEntry.ofToken 1 0 (tok 0x10 0 5)).tokens.length = 1 := by
  decide +kernel

/-- R206, R208, R213, R228: a frame is sent with the next number; the third bad one holds; a crossed token leaves late; one whose time is over leaves with
WSEL 62. -/
theorem test_weirs :
    field .refbusFrameSend base F.REFBUS_BUS_SEQ = some 1 ∧
    (after (.refbusFrameReceive 1 0 false) (base.putBus { base.bus 1 0 with seq := some 9, bad := 2 })).map (fun m => (m.bus 1 0).hold) = some true ∧
    (after (.refbusFrameReceive 1 0 true) (weirAt (wt 0 none))).map (fun m => m.tok.arrived.map (fun a => a.tok.wsel.toNat)) = some [63] ∧
    (after (.weirTimeout 1 0 (wt 9 (some true)).tok) (weirAt (wt 9 (some true)))).map (fun m => m.tok.arrived.map (fun a => a.tok.wsel.toNat)) = some [62] := by decide +kernel

/-! ### Sluices (R151 to R153, R335 to R344) -/

/-- base with sluice 37 live; and held by an identity. -/
def sb : Main := live1 base [.sluice 37]
def held (n : Nat) : Main := sb.slTake 37 n
/-- SLACQ or SLREL of sluice 37 with origin 2 and a timeout. -/
def slF (o : Op) (tmo : Nat) : Firing := fire o (i 0) (i (37 + 2 * 2 ^ 16 + tmo * 2 ^ 24)) (i 0)
def waiterW (dl : Nat) : Waiter := { sluice := 37, origin := 2, f := slF .slacq 1, joined := 0, deadline := some dl }

theorem witness_SluiceOperations :
    (sluiceWord (slF .slacq 5).right.value.toNat).isSome = true ∧ sb.isPaired (slF .slacq 5) = false ∧ sb.live (.sluice 37) = true ∧ sb.slHeld 37 = false ∧
    (held 0x102).slHeld 37 = true ∧ (held 0x102).holder 37 = 0x102 ∧ (held 0x305).holder 37 ≠ 0x102 ∧ (held 0x305).waiters.length < 2048 ∧
    2048 ≤ (({ held 0x305 with waiters := List.replicate 2048 (waiterW 1) } : Main)).waiters.length ∧
    ({ sb with waiters := [waiterW 0] } : Main).waiters[0]? = some (waiterW 0) ∧ (waiterW 5).deadline = some 5 ∧ ¬ 5 ≤ sb.now := by decide +kernel

/-- R151 to R153: a free sluice is taken by identity 0x0102; a second claim of it is a repeat; another's waits; SLREL frees it. -/
theorem test_sluice_operations :
    (after (.slacq (slF .slacq 0)) sb).map (fun m => (m.slHeld 37, m.holder 37)) = some (true, 0x102) ∧
    (after (.slacq (slF .slacq 5)) (held 0x305)).map (fun m => (m.holder 37, m.waiters.length)) = some (0x305, 1) ∧
    (after (.slrel (slF .slrel 0)) (held 0x102)).map (fun m => m.slHeld 37) = some false ∧
    (after (.sluiceWaitTimeout 0) { held 0x305 with waiters := [waiterW 0] }).map (fun m => m.waiters.length) = some 0 := by decide +kernel

theorem witness_SluiceExclusion :
    (held 0x305).slHeld 37 = true ∧ Path.ctx0.identity < 2 ^ 16 ∧ (w64 Path.ctx0.identity).toNat % 2 ^ 16 = Path.ctx0.identity ∧ sb.live (.sluice 37) = true ∧
    (held Path.ctx0.identity).holder 37 = Path.ctx0.identity ∧ (w64 Path.ctx0.identity).toNat / 2 ^ 16 % 2 = 0 ∧ (w64 0x10000).toNat / 2 ^ 16 % 2 = 1 ∧
    ({ sb with waiters := [waiterW 1] } : Main).bestWaiter 37 = some (waiterW 1) ∧ (∀ w ∈ sb.waiters, w.sluice ≠ 37) := by decide +kernel

/-- A RELEASE word of context 0 with FORCE. -/
def forced : Word := w64 (0x10000 + Path.ctx0.identity)

theorem test_sluice_registers :
    (after (.sluiceClaimWrite .ctx0 37 (w64 Path.ctx0.identity)) sb).map (fun m => (m.slHeld 37, m.holder 37)) = some (true, Path.ctx0.identity) ∧
    field (.sluiceClaimWrite .ctx0 37 0x0777) sb (F.SLUICE_STAT_BADCLAIM 37) = some 1 ∧
    (after (.sluiceReleaseWrite .ctx0 37 forced) (held 0x305)).map (fun m => m.slHeld 37) = some false ∧
    field (.sluiceReleaseWrite .ctx0 37 forced) (held 0x305) (F.SLUICE_HOLDER_ABANDONED 37) = some 1 := by decide +kernel

/-! ### Flumes (R154, R155, R279 to R291) -/

/-- xl with flume 2 of die 1 live, and a descriptor at VA 0x10000 of a fill: 8 bytes of 0x55 to VA 0x10100, one row. -/
def fl (len : Nat) : Main :=
  let m := live1 xl [.flume 1 2]
  let m := (m.writeMem 0x8000100000 0x5555555555555555 8).2
  let m := (m.writeMem 0x8000100008 0x10100 8).2
  let m := (m.writeMem 0x8000100010 len 8).2
  (m.writeMem 0x8000100020 8 8).2

def flF : Firing := fire .flissue (ptr 0x10000) (i (2 + 1 * 32)) (i 0)

/-- The flume at work on that descriptor, and one that waits for its descriptor. -/
def flDesc : FlumeDesc :=
  { src := 0x5555555555555555, dst := 0x10100, len := 8, rows := 0, sstride := 0, dstride := 0, chain := false, sphys := false, dphys := false, fill := true,
    descend := false, nphys := false, next := 0 }
def flX (d : Option FlumeDesc) : FlumeSt := { die := 1, idx := 2, ret := flF.ret, part := false, desc := d, handle := 0 }
def flAt (d : Option FlumeDesc) : Main :=
  let m := fl 8
  { m with flumes := [flX d], tuft := { m.tuft with tlb := m.tuft.tlb ++ (m.tuft.tlb.map (fun e => { e with owner := .flumes 1 })) } }

theorem witness_Flumes :
    flF.left.isAddress = true ∧ flumeId flF.right.value.toNat = some (1, 2) ∧ (fl 8).compute 1 = true ∧ (fl 8).dieLive 1 = true ∧ flF.i.flags.getLsbD 0 = false ∧
    (fl 8).live (.flume 1 2) = true ∧ (fl 8).xlateOn 1 = true ∧ (((fl 8).tlbFind ((fl 8).xlateOf flF) 0x10000).isSome = true) ∧ 0x8000100000 % 64 = 0 ∧
    (match ((fl 8).loadPhys (ctxId 1 1) 0x8000100000 64).1 with | .ok v => descValid 1 (wordAt v) && (FlumeDesc.ofWords (wordAt v)).len == 8 | _ => false) = true ∧
    (fl 8).flume 1 2 = none ∧ (flAt (some flDesc)).flume 1 2 = some (flX (some flDesc)) ∧ (flAt none).flume 1 2 = some (flX none) ∧ (flX none).handle = 0 ∧
    (flAt none).mode ≠ 11 ∧ (flAt none).req.park.slots = [] ∧ flDesc.len ≠ 0 ∧ flDesc.descend = false ∧ elemLen 0x10100 0 8 = 8 := by decide +kernel

/-- R154, R279, R281: a descriptor starts its flume; one of length 0 is done at once; an element is written and counted; KILL idles it. -/
theorem test_flumes :
    field (.flissue flF) (fl 8) (F.FLUME_STAT_STATE 1 2) = some 1 ∧ outs (.flissue flF) (fl 0) = some [(0, tyFlume.toNat)] ∧
    (after (.flumeElement 1 2 ⟨0, ((false, false), false)⟩) (flAt (some flDesc))).map (fun m => (m.peek 0x8000100100 8, m.get (F.FLUME_PROG_BYTES 1 2))) = some (0x5555555555555555, 8) ∧
    (after (.flumeKill 1 2) (flAt (some flDesc))).map (fun m => (m.flumes.length, m.tok.inflight.length)) = some (0, 1) := by decide +kernel

theorem test_flume_descriptor_read :
    (after (.flumeDescriptorRead 1 2) ((flAt none).set (F.FLUME_CUR_ADDR 1 2) 0x10000)).map (fun m => (m.flumes.map (fun x => x.desc.isSome))) = some [true] := by decide +kernel

/-! ### Faults, parked work, effect-once requests, deadlock (R76, R125 to R127, R156 to R160, R243 to R250, R347 to R360) -/

/-- base with a parking area in the FSRAM and a handler for context 1. -/
def pb : Main :=
  ((((base.set (F.CTXTAB_PARK_EN 1) 1).set (F.CTXTAB_PARK_SIZE 1) 1).set (F.CTXTAB_PARK_BASE 1) 0x8000100).set (F.CTXTAB_HANDLER_EN 1) 1).set
    (F.CTXTAB_HANDLER_IA 1) 0x77

def ffi : FaultInfo := (fire .add (i 1) (i 2) (i 0)).info 0x8123 5 0

theorem witness_TakingAFault :
    pb.dead 1 = false ∧ pb.flag (F.CTXTAB_PARK_EN 1) = true ∧ ((pb.fillSlot ffi (.token (tok 0x10 0 5))).map (fun r => r.1)) = some true ∧
    (pb.writeRing ffi 0).1 = true ∧ pb.flag (F.CTXTAB_HANDLER_EN 1) = true ∧ breaksCause 0x8123 5 = none ∧ 16 < pb.parkFree 1 ∧
    Main.reset.dead 1 = true ∧ base.flag (F.CTXTAB_PARK_EN 1) = false ∧ (pb.set (F.CTXTAB_PARK_SIZE 1) 0).flag (F.CTXTAB_PARK_EN 1) = true ∧ base.run 1 = 1 := by decide +kernel

/-- R347, R350: a software fault in a context with a handler: one FAULT token to the handler with its code and detail. -/
theorem test_raise : (after (.raise (fire .raise (i 5) (i 0x8123) (i 0))) pb).map (fun m => m.tok.inflight.map (fun t => (t.ia.toNat, t.port.toNat, t.typ.toNat,
      (t.value.extractLsb' 0 16).toNat, (t.value.extractLsb' 48 16).toNat))) =
    some [(0x10 - 0x10 + 0x77, 2, 7, 0x8123, 5)] := by decide +kernel

/-- pb with a token parked in slot 64, and its handle. -/
def slotT : ParkSlot := { ctx := 1, idx := 64, gen := 1, code := 3, detail := 0, work := .token (tok 0x10 0 5) }
def slotO : ParkSlot := { slotT with work := .operation { fire .add (i 1) (i 2) (i 0) with ia := 0x10 } }
def parkedIn (p : ParkSlot) : Main := let m := { placed entry1 with mem := pb.mem }; { m with req := { m.req with park := { m.req.park with slots := [p] } } }
def hd : Opnd := i ((mkHandle 1 1 64).toNat * 2 ^ 16)

def againB (m : Main) (g : Firing) : Bool :=
  match m.again g .ok with
  | .ready k ps _ => presOf ps == k.pres
  | _ => false

theorem witness_ParkedWork :
    (parkedIn slotT).slotOf 1 hd.handle = some slotT ∧ (parkedIn slotO).slotOf 1 hd.handle = some slotO ∧ base.slotOf 1 hd.handle = none ∧
    againB (((parkedIn slotO).executed (fire .replay hd (i 0) (i 0))).unpark slotO) { fire .add (i 1) (i 2) (i 0) with ia := 0x10 } = true ∧
    (match (((base.executed (fire .replay hd (i 0) (i 0))).unpark slotO).again (fire .add (i 1) (i 2) (i 0)) .ok) with | .fault _ _ => true | _ => false) = true ∧
    0x8000 ≤ (i 0x8123).value.toNat % 2 ^ 16 ∧ (i 31).value.toNat < 32 ∧ base.isPaired (fire .signal (i 1) (i 31) (i 0)) = false := by decide +kernel

/-- R157 to R160: a parked token goes to its router again, or with another value, or is dropped; a handle of no slot. -/
theorem test_parked_work :
    (after (.replay (fire .replay hd (i 0) (i 0)) .ok) (parkedIn slotT)).map (fun m => (m.tok.inflight.length, m.req.park.slots.length)) = some (1, 0) ∧
    (after (.replay (fire .replay hd (i 0) (i 0)) .ok) (parkedIn slotO)).map (fun m => (m.tok.ready.length, m.req.park.slots.length)) = some (1, 0) ∧
    (outs (.replayv (fire .replayv hd (i 42) (i 0)) .ok) (parkedIn slotT)).map (fun l => l.head?) = some (some (42, 0)) ∧
    (outs (.replayv2 (fire .replayv2 hd (i 42) (i 43)) .ok) (parkedIn slotO)).map (fun l => l.head?) = some (some (42, 0)) ∧
    (after (.parkdrop (fire .parkdrop hd (i 0) (i 0))) (parkedIn slotT)).map (fun m => (m.tok.inflight.length, m.req.park.slots.length)) = some (1, 0) ∧
    (outs (.replay (fire .replay hd (i 0) (i 0)) .ok) base).map List.length = some 1 ∧
    (after (.signal (fire .signal (i 7) (i 31) (i 0))) base).map (fun m => m.tok.captured.map (fun e => (e.src, e.word))) = some [(1023, 7)] := by decide +kernel

/-- R160: RESUME of a parked flume: with FLAGS[0] it is cancelled. -/
theorem test_resume : (outs (.resume (fire .resume hd (i 0) (i 0))) base).map List.length = some 1 := by decide +kernel

/-- A firing of context 1 in a block of two copies. -/
def pairM : Main := placed entry12
def pairF : Firing := { fire .store (ptr 0x10000) (i 0) (i 77) with ia := 0x10 }
def cmpE : CmpEntry :=
  { ctx := 1, frame := 0, ia := 0x10, opc := pairF.i.opc.toNat, left := pairF.left, right := pairF.right, third := pairF.third, first := true,
    answer := some { first := some (b 1), second := some (b 1) }, second := none, deadline := 5, expired := false }
def cmpM : Main := { pairM with req := { pairM.req with cmp := [cmpE] } }

theorem witness_EffectOnceAndDeadlock :
    base.isPaired pairF = false ∧ pairM.isPaired pairF = true ∧ pairM.cmpOf pairF = none ∧ pairM.flag (F.CTXTAB_PAIR_CMPEN 1) = false ∧ pairF ∉ pairM.req.cmpWait ∧
    cmpM.cmpOf pairF = some cmpE ∧ cmpE.first ≠ pairF.side ∧ pairF.replay = none ∧ (pairM.set (F.CTXTAB_PAIR_CMPEN 1) 1).flag (F.CTXTAB_PAIR_CMPEN 1) = true ∧
    ({ cmpE with deadline := 0 } : CmpEntry).deadline ≤ cmpM.now ∧ cmpM.now < cmpE.deadline ∧
    (base.set (F.CTXTAB_SCHED_DLTMO 1) 0).dltmo 1 = 0 ∧
    (base.set (F.CTXTAB_SCHED_DLACT 1) 2).get (F.CTXTAB_SCHED_DLACT 1) = 2 ∧ (base.set (F.CTXTAB_SCHED_DLACT 1) 1).get (F.CTXTAB_SCHED_DLACT 1) = 1 := by decide +kernel

theorem witness_EffectOnce_full : 1024 ≤ ({ pairM with req := { pairM.req with cmp := List.replicate 1024 { cmpE with frame := 9 } } } : Main).req.cmp.length :=
  Nat.le_of_eq (List.length_replicate (n := 1024)).symm

theorem witness_Deadlock_contexts : (∀ c : Fin 256, Main.reset.run c.val = 0) ∧ (∀ c : Fin 256, (base.run c.val = 0 ↔ c.val ≠ 1)) := by decide +kernel

/-- R247, R250: a window that passes; R243: a quiet context counts nothing while no token waits. -/
theorem test_window_and_deadlock :
    field (.pairWindowExpiry 1 0 0x10) { (pairM.set (F.CTXTAB_PAIR_CMPEN 1) 1) with req := { pairM.req with cmp := [{ cmpE with deadline := 0 }] } } (F.CTXTAB_PAIR_CMPTMO 1) = some 1 ∧
    field .deadlockTick base (F.CTXTAB_DLSTAT_QUIET 1) = some 0 := by decide +kernel

/-! ### Unit state table, culverts, banks, dredges (R259 to R332, R365 to R367) -/

theorem witness_UnitStateTable :
    (∀ b ∈ List.range 64, ∀ u ∈ ((UstReg.sluice 0).unit_ b).toList, base.ustOn u = (bitsOf (w64 0).toNat b 1 == 1)) ∧ (UstReg.sluice 0).unit_ 37 = some (.sluice 37) ∧
    base.pop (UnitId.sluice 37).die = true ∧ base.ustOn (.sluice 37) = false ∧ base.enableOk (.sluice 37) = true ∧ base.enableOk (.runnel 1 5) = false ∧
    sb.live (.sluice 37) = true ∧ base.live (.sluice 37) = false ∧ (∀ u ∈ base.ustUnits, base.live u = true) ∧ (∀ u ∈ base.ust.live, u ∈ base.ustUnits) ∧
    sb.ust.live = [.sluice 37] ∧ sb.ust.changes = [] := by decide +kernel

/-- R365, R366: an enable is accepted and made; a scrub counts itself and forces a unit that the table does not name. -/
theorem test_ust :
    field (.ustWrite (.sluice 0) (w64 (2 ^ 37))) base F.UST_STAT_BUSY = some 1 ∧
    (match after (.ustWrite (.sluice 0) (w64 (2 ^ 37))) base with
     | some m => (after .ustApplyDone m).map (fun m => (m.live (.sluice 37), m.get F.UST_STAT_BUSY))
     | none => none) = some (true, 0) ∧
    field .ustScrub base F.UST_STAT_PASSES = some 1 ∧ (after .ustScrub sb).map (fun m => m.live (.sluice 37)) = some false := by decide +kernel

def linkAt (st : Nat) : Main := base.linkSet 1 0 0 1 st
def flit0 : Flit := { vc := 0, payload := List.replicate 64 0, toks := [] }

theorem witness_Culverts :
    base.hw.part.partnerPort 1 0 = some (0, 1) ∧ (linkAt 2).linkState 1 0 0 1 = 2 ∧ (linkAt 1).linkState 1 0 0 1 = 1 ∧ (linkAt 4).linkState 1 0 0 1 = 4 ∧ (linkAt 5).linkState 1 0 0 1 = 5 ∧
    ((linkAt 2).culvEnd 0 1).replaying = false ∧ ((linkAt 2).culvEnd 0 1).buf.length < 64 ∧ flit0.payload.length = 64 ∧ flit0.vcOk = true ∧
    ({ flit0 with vc := 1, toks := [tok 0 0 0] } : Flit).toks ≠ [] ∧ ({ flit0 with vc := 1, toks := [tok 0 0 0] } : Flit).vc ≠ 0 ∧
    ((linkAt 2).culvEnd 0 1).seq = ((linkAt 2).culvEnd 1 0).rx ∧ base.dieLive 1 = true ∧ (linkAt 5).altUp 1 0 = false := by decide +kernel

/-- R324, R328, R329, R331: a good flit is taken; a changed one asks for a replay; a lost clock; a training that succeeds; RETRAIN. -/
theorem test_culverts :
    (after (.culvertFlitReceive 1 0 (some flit0) 0 [] false) (linkAt 2)).map (fun m => ((m.culvEnd 1 0).rx, (m.culvEnd 0 1).seq)) = some (1, 1) ∧
    (after (.culvertFlitReceive 1 0 (some flit0) 0 [1] false) (linkAt 2)).map (fun m => ((m.culvEnd 1 0).rx, m.get (F.CULV_ERR_CRCERR 1 0))) = some (0, 1) ∧
    (after (.linkDown 1 0 true) (linkAt 2)).map (fun m => m.linkState 1 0 0 1) = some 5 ∧
    (after (.linkTrainingDone 1 0 .full) (linkAt 1)).map (fun m => m.linkState 1 0 0 1) = some 2 ∧
    (after (.culvRetrain 1 0 1) (linkAt 4)).map (fun m => m.linkState 1 0 0 1) = some 1 := by decide +kernel

theorem test_culverts_lost :
    (after (.resyncComplete 1 0) ((linkAt 5).linkSet 1 1 2 2 2 |>.linkSet 2 0 0 2 2)).map (fun m => m.linkState 1 0 0 1) = some 1 ∧
    (after (.partnerUnreachable 1 0) (linkAt 5)).map (fun m => m.linkState 1 0 0 1) = some 4 := by decide +kernel

theorem witness_BanksAndControllers :
    base.compute 1 = true ∧ base.dieLive 1 = true ∧ base.drOn 1 0 = none ∧ 5 ≤ bitsOf (w64 5).toNat 0 3 ∧ bitsOf (w64 4).toNat 0 3 < 5 ∧
    bitsOf (w64 2).toNat 5 1 = 0 ∧ bitsOf (w64 2).toNat 0 2 < 3 ∧ base.get (F.BANK_PWR_STATE 1 0) = 0 ∧ (base.set (F.BANK_PWR_STATE 1 0) 3).get (F.BANK_PWR_STATE 1 0) = 3 ∧
    base.flag (F.BANK_DIE_RETBLK 1) = false ∧ (base.set (F.BANK_DIE_RETBLK 1) 1).flag (F.BANK_DIE_RETBLK 1) = true ∧ base.pop 6 = true ∧ base.dieLive 6 = true ∧
    ((base.set (F.MEMCTL_SCRUB_EN 6) 1).set (F.MEMCTL_STAT_READY 6) 1).flag (F.MEMCTL_SCRUB_EN 6) = true ∧
    xs.admits 1 0 { ctx := 1, die := 1, flume := none, external := false, debug := false } true = true := by decide +kernel

/-- base with a bank's power change waiting. -/
def chgB (req : Nat) : Main := { base with mem := { base.mem with change := [(64, req)] } }

/-- R259 to R265: ownership, power changes, injected errors, the patrol scrub. -/
theorem test_banks :
    field (.bankOwnWrite 1 0 0x101) base (F.BANK_OWN_ID 1 0) = some 1 ∧ field (.bankOwnWrite 1 0 0x105) base (F.BANK_OWN_ID 1 0) = some 0 ∧
    field (.bankHandoverDone 1 0) base (F.BANK_OWN_DONE 1 0) = some 1 ∧ (after (.bankPwrWrite 1 0 2) base).map (fun m => m.mem.change) = some [(64, 2)] ∧
    field (.bankPowerChangeDone 1 0) (chgB 2) (F.BANK_PWR_STATE 1 0) = some 2 ∧
    (after (.msctlInject 1 0 1) base).map (fun m => m.tuft.inj) = some [(8, 1)] ∧ (after (.memctlInject 6 2) base).map (fun m => m.mem.inj) = some [(6, 2)] ∧
    (after (.patrolScrubRead 6) ((base.set (F.MEMCTL_SCRUB_EN 6) 1).set (F.MEMCTL_STAT_READY 6) 1)).map (fun m => m.mem.scrub) = some [(6, 1)] := by decide +kernel

/-- A preserving dredge run on bank 0 of die 1, in a phase. -/
def drX (ph : DrPhase) : DredgeSt :=
  { die := 1, alg := 0, destr := false, dram := false, boot := false, bank := 0, first := 0, count := 2, phase := ph, cur := 0, tries := 0, next := 1, again := [],
    ending := none, repair := [] }
def drAt (x : DredgeSt) : Main := let m := base.set (F.DREDGE_STAT_STATE 1) 1; { m with dredges := [x] }
def drReady : Main := (base.set (F.DREDGE_RANGE_COUNT 1) 2).set (F.BANK_OWN_DONE 1 0) 1

theorem witness_Dredges :
    base.get (F.DREDGE_STAT_STATE 1) ≠ 1 ∧ base.get (F.DREDGE_STAT_STATE 1) ≠ 2 ∧ base.get (F.DREDGE_RANGE_COUNT 1) = 0 ∧ drReady.drCheck 1 = 0 ∧
    ((base.set (F.DREDGE_RANGE_COUNT 1) 2).set (F.DREDGE_CTL_ALG 1) 3).drCheck 1 ≠ 0 ∧ (drAt (drX .copy)).dredges.find? (fun y => y.die == 1) = some (drX .copy) ∧
    (drAt (drX .copy)).get (F.DREDGE_STAT_STATE 1) = 1 ∧ (drX .copy).next < (drX .copy).count ∧ ({ drX .copy with next := 2 } : DredgeSt).count ≤ 2 ∧
    (drAt (drX (.gap 5))).now < 5 ∧ (drAt (drX (.gap 0))).now ≥ 0 ∧ ((drAt (drX .copy)).set (F.BANK_CFG_URGENT 1 0) 1).flag (F.BANK_CFG_URGENT 1 0) = true ∧
    (drX .copy).tries + 1 < 8 ∧ (base.freeSpare 1).isSome = true := by decide +kernel

/-- R293 to R303: START of an empty and of a whole range; the phases of a strip; the gap; STOP; a yield; a repair. -/
theorem test_dredges :
    field (.dredgeStart 1) base (F.DREDGE_STAT_EMPTY 1) = some 1 ∧ field (.dredgeStart 1) drReady (F.DREDGE_STAT_STATE 1) = some 1 ∧
    (after (.dredgeElement 1 []) (drAt (drX .copy))).map (fun m => m.dredges.map (fun x => x.phase)) = some [.elem 0] ∧
    (after (.dredgeElement 1 []) (drAt (drX .restore))).map (fun m => m.dredges.map (fun x => (x.cur, x.phase))) = some [(1, .copy)] ∧
    (after (.dredgeGapExpiry 1) (drAt (drX (.gap 0)))).map (fun m => m.dredges.map (fun x => x.phase)) = some [.copy] ∧
    (after (.dredgePauseExpiry 1) (drAt (drX (.pause 1 0)))).map (fun m => m.dredges.map (fun x => x.phase)) = some [.elem 1] ∧
    (after (.dredgeStop 1 ⟨0, []⟩ true) (drAt (drX .copy))).map (fun m => m.dredges.map (fun x => x.ending)) = some [some 7] ∧
    field (.dredgeYield ⟨1, []⟩) ((drAt (drX .copy)).set (F.BANK_CFG_URGENT 1 0) 1) (F.DREDGE_STAT_YIELDS 1) = some 1 ∧
    field (.dredgeRepair 1) ((drAt { drX .copy with repair := [0] }).set (F.DREDGE_STAT_STATE 1) 2) (F.DREDGE_STAT_STATE 1) = some 1 := by decide +kernel

/-! ### Ports (R372 to R401) -/

def quad : Main := base.set (F.AXIS_CFG_MODE 0) 1
def ssi : Main :=
  let m := ((base.set (F.AXIS_CFG_MODE 0) 5).set (F.AXIS_SSI_BITS 0) 12).set (F.AXIS_SSI_PER 0) 5
  m.putAxis { m.axis 0 with clk := true }
/-- Its frame, in progress since time 0, at a time in ns. -/
def ssiAt (t : Nat) : Main := { ssi.putAxis { ssi.axis 0 with ssi := some { start := 0 } } with wall := { ns := t, frac := 0, sec := 0 } }
/-- base with a deaf receiver A of port 0. -/
def deaf0 : Main := base.withDeaf [{ port := 0, rx := 0, till := none, level := false }]
/-- Port 0 triggered by timer 3. -/
def ssiTim : Main := (ssi.set (F.AXIS_SSI_TRIGSRC 0) 1).set (F.AXIS_SSI_TIM 0) 3

theorem witness_AxisPorts :
    bitsOf (w64 6).toNat 0 4 < 7 ∧ base.refsOn [2, 3, 4] 0 = [] ∧ (edge edgeSt).refsOn [2, 3, 4] 0 ≠ [] ∧ 7 ≤ bitsOf (w64 7).toNat 0 4 ∧ base.mode ≠ 10 ∧ (base.axis 0).lost = 0 ∧
    base.surv.deaf = [] ∧ base.survPort 0 = false ∧ deaf0.survPort 0 = true ∧ (ssi.axis 0).clk = true ∧ (base.axis 0).clk = false ∧
    (ssiAt 100).now < 0 + (ssiAt 100).ssiTime 0 ∧ 0 + (ssiAt 100000).ssiTime 0 ≤ (ssiAt 100000).now ∧ (base.set (F.AXIS_CFG_MODE 0) 1).get (F.AXIS_CFG_MODE 0) = 1 ∧ (base.axis 0).z = false ∧ quadStep false false true true = none ∧ hallStep 1 4 = none ∧
    base.refsOn [2] 0 = [] ∧ bitsOf (base.get (F.AXIS_EVT_CAUSEEN 0)) 0 1 = 0 ∧ bitsOf ((base.set (F.AXIS_EVT_CAUSEEN 0) 1).get (F.AXIS_EVT_CAUSEEN 0)) 0 1 = 1 ∧
    bitsOf (base.axis 0).lost 0 1 = 0 ∧ (base.putAxis { base.axis 0 with lost := 1 }).axis 0 = { base.axis 0 with lost := 1 } ∧ bitsOf (losMask 1) 0 1 = 1 ∧
    bitsOf (losMask 6) 0 1 = 0 ∧ (base.axis 0).ssi = none ∧ (base.axis 0).ssiFree ≤ base.now ∧ base.get (F.AXIS_SSI_PER 0) ≠ 0 ∧
    base.flag (F.AXIS_STAT_LOS 0) = false ∧ (base.set (F.AXIS_STAT_LOS 0) 1).flag (F.AXIS_STAT_LOS 0) = true ∧ ssi.get (F.AXIS_CFG_MODE 0) = 5 ∧
    ssi.flag (F.AXIS_SSI_TRIGSRC 0) = false ∧ (ssi.axis 0).ssiLast = none ∧ (ssi.putAxis { ssi.axis 0 with ssiLast := some 0 }).now < 0 + 5000 ∧
    ((ssi.putAxis { ssi.axis 0 with ssiLast := some 0 }).axis 0).ssiLast = some 0 ∧
    (∀ k ∈ List.range 64, ((ssiTim.get (F.AXIS_CFG_MODE k) = 5 ∧ ssiTim.flag (F.AXIS_SSI_TRIGSRC k) = true ∧ ssiTim.get (F.AXIS_SSI_TIM k) = 3) ↔ k = 0)) := by decide +kernel


/-- R372, R373, R376, R379: the quadrature order A before B counts up; both lines at once are an error; an index; loss and return; an SSI frame. -/
theorem test_axis :
    field (.axisCfgWrite 0 1) base (F.AXIS_CFG_MODE 0) = some 1 ∧ field (.axisCfgWrite 0 7) base (F.AXIS_STAT_CFGERR 0) = some 1 ∧
    field (.axisPresetWrite 0 77) base (F.AXIS_CNT_CNT 0) = some 77 ∧ field (.axisEdge 0 true false false 5) quad (F.AXIS_CNT_CNT 0) = some 1 ∧
    field (.axisEdge 0 true true false 5) quad (F.AXIS_STAT_QERR 0) = some 1 ∧ field (.axisIndex 0 9) quad (F.AXIS_IDXTIME_TIME 0) = some 9 ∧
    field (.axisLossOfSignal 0 0) quad (F.AXIS_STAT_LOS 0) = some 1 ∧
    field (.axisSignalReturn 0 0 true) ((quad.putAxis { quad.axis 0 with lost := 1 }).set (F.AXIS_STAT_LOS 0) 1) (F.AXIS_STAT_LOS 0) = some 0 ∧
    (after (.ssiTrigger 0) ssi).map (fun m => (m.axis 0).ssi.isSome) = some true ∧
    field (.ssiFrameComplete 0 false 0x123 0) (ssiAt 100000) (F.AXIS_CNT_CNT 0) = some 0x123 ∧
    field (.ssiFrameComplete 0 false 0x123 0) (ssiAt 100) (F.AXIS_CNT_CNT 0) = some 0 := by decide +kernel

/-- R375: a SINCOS sample at a sine of 0 and a cosine of one is at phi 0; R120 quadrant corners. -/
theorem test_sincos : phiOf 0 5 = 0 ∧ phiOf 5 0 = 1024 ∧ phiOf 0 (-5) = 2048 ∧ phiOf (-5) 0 = 3072 ∧ phiOf 5 5 = 512 ∧
    (after (.sincosSample 0 0 20000 false) (base.set (F.AXIS_CFG_MODE 0) 4)).isSome = true := by decide +kernel

def resOn : Main := (base.set (F.ANA_RES_CFG_EN 0) 1).set (F.ANA_RES_CFG_LOSLIM 0) 100

/-- Pin 3 enabled with a SRC, and PERIODIC timer 5 on it. -/
def pin3 (src : Nat) : Main := (((base.set (F.GPIO_CFG_OE 3) 1).set (F.GPIO_CFG_SRC 3) src).set (F.TIMER_CFG_MODE 5) 1).set (F.TIMER_CFG_PIN 5) 3

/-- Resolver 0 held by a loss, or not. -/
def heldRes (h : Bool) : Main := { resOn with port := { resOn.port with ress := [{ i := 0, held := h, start := 0 }] } }
/-- An island whose channels are released. -/
def run2' (sto : Bool) : Island := { Island.zero with chs := List.replicate 16 { SafeCh.zero with sto := sto } }

theorem witness_AnalogAndPins :
    base.flag (F.ANA_RES_CFG_EN 0) = false ∧ resOn.flag (F.ANA_RES_CFG_EN 0) = true ∧ resOn.flag (F.ANA_RES_VAL_LOS 0) = false ∧ resOn.refsOn [5] 0 = [] ∧
    (base.set (F.ANA_IN_CFG_EN 0) 1).flag (F.ANA_IN_CFG_EN 0) = true ∧ ([(5 : BitVec 16)].map BitVec.toInt).foldl (· + ·) 0 = (5 : BitVec 16).toInt * 1 ∧
    base.mainsLast 0 = none ∧ base.refsOn [7] 0 = [] ∧ bitsOf (base.get (F.GPIO_IN_LEVEL 0)) 0 1 = 0 ∧ base.flag (F.OUTSCHED_OWN_OWNED 0x200) = false ∧
    base.enabled (.gpio 0) = false ∧ base.modeAllows base.mode (.gpio 0) = true ∧ (base.set (F.GPIO_GATEMAP_GATED 0) 0).gated (.gpio 0) = false ∧ base.gated (.dac 0) = true ∧ base.gateOpen (.dac 0) = false ∧
    (base.set (F.GPIO_CFG_OE 0) 1).enabled (.gpio 0) = true ∧ Main.reset.modeAllows 0 (.gpio 0) = false ∧
    ((base.set (F.TIMER_CFG_MODE 0) 1).set (F.TIMER_PER_PER 0) 500).get (F.TIMER_PER_PER 0) ≠ 0 ∧ (base.timer 0).newPer = none ∧ (base.timer 0).run = false ∧
    base.get (F.TIMER_CFG_MODE 0) = 0 ∧ base.timerPend 0 = 0 ∧ (base.set (F.TIMER_STEP_PEND 0) 3).timerPend 0 = 3 ∧
    (pin3 1).get (F.GPIO_CFG_INV 3) ≠ 1 ∧ (pin3 1).flag (F.GPIO_CFG_OE 3) = true ∧ (pin3 1).flag (F.GPIO_CFG_SRC 3) = true ∧ (pin3 0).flag (F.GPIO_CFG_SRC 3) = false ∧
    (pin3 1).flag (F.GPIO_CFG_OD 3) = false ∧ (pin3 0).gpioLatch 3 = false ∧ (pin3 1).get (F.TIMER_CFG_MODE 5) ≠ 0 ∧ (pin3 1).get (F.TIMER_CFG_PIN 5) = 3 ∧
    (∀ u ∈ List.range 5, (pin3 1).get (F.TIMER_CFG_MODE u) = 0) ∧ (pin3 1).mainsLast 0 = none ∧
    (base.timer 0).turn ≤ base.now ∧ (base.timer 0).pulseEnd ≤ base.now ∧ (base.timer 0).up = true ∧ (base.set (F.TIMER_STEP_PEND 0) (2 ^ 32 - 3)).timerPend 0 = -3 ∧
    base.port.ress.find? (fun y => y.i == 0) = none ∧ (heldRes true).port.ress.find? (fun y => y.i == 0) = some { i := 0, held := true, start := 0 } ∧
    (st base).isl.on = true ∧ State.reset.isl.on = true ∧ ({ Island.zero with on := false } : Island).on = false ∧ (base.motor 0).drv = false ∧
    base.live (.iface 0x20) = false ∧ base.mode ≠ 0 ∧ Main.reset.mode = 0 ∧ base.flag F.PCIE_LINK_UP = false ∧ (Island.zero.ch 0).sto = true ∧ ((run2' false).ch 0).sto = false := by
  decide +kernel

/-- R381, R382, R392, R394, R400, R401: a resolver's loss and angle; an analog mean; a mains period; a pin's edge; OUT; an enable and its refusal; a timer. -/
theorem test_pins :
    field (.resolverAngle 0 0x1234 50) resOn (F.ANA_RES_VAL_LOS 0) = some 1 ∧ field (.resolverAngle 0 0x1234 500) resOn (F.ANA_RES_VAL_ANGLE 0) = some 0x1234 ∧
    field (.analogSampleGroup 0 [5] false) (base.set (F.ANA_IN_CFG_EN 0) 1) (F.ANA_IN_VAL_CODE 0) = some 5 ∧
    field (.gpioEdge 3 true) base (F.GPIO_IN_LEVEL 0) = some 8 ∧ field (.gpioOutWrite 0 0xF0) base (F.GPIO_OUT_LATCH 0) = some 0xF0 ∧
    field (.outputEnableWrite (.gpio 0) true) (base.set (F.GPIO_GATEMAP_GATED 0) 0) (F.GPIO_CFG_OE 0) = some 1 ∧ field (.outputEnableWrite (.dac 0) true) base (F.AXIS_DAC_OE 0) = some 0 ∧
    (after (.timerExpiry 0) { (base.set (F.TIMER_CFG_MODE 0) 1).set (F.TIMER_PER_PER 0) 500 with wall := { ns := 500, frac := 0, sec := 0 } }).map
      (fun m => (m.get (F.TIMER_STAT_EXPIRIES 0), (m.timer 0).start)) = some (1, 500) ∧
    field (.timerStepPulse 0) ((base.set (F.TIMER_CFG_MODE 0) 3).set (F.TIMER_STEP_PEND 0) 3) (F.TIMER_STEP_PEND 0) = some 3 := by decide +kernel

theorem test_mains_crossing :
    field (.mainsCrossing 0 20000000) { ((base.set (F.ANA_IN_CFG_EN 0) 1).set (F.ANA_IN_CFG_MAINS 0) 1) with port := { base.port with mains := [{ j := 0, last := 10 }] } }
      (F.ANA_IN_VAL_PERIOD 0) = some 19999990 := by decide +kernel

/-- base with unit u bound to receive into runnel i of the field die, and to send from it. -/
def bound (u i : Nat) : Main :=
  live1 (((((base.set (F.UST_BIND_RXEN u) 1).set (F.UST_BIND_RX u) i).set (F.UST_BIND_TXEN u) 1).set (F.UST_BIND_TXBASE u) i).set (F.RUNNEL_CFG_CAP 0 i) 64)
    [.iface u, .runnel 0 i]
def sends (u i : Nat) (ws : List Nat) : Main :=
  { bound u i with runnels := [{ die := 0, idx := i, pkts := [{ serial := 0, words := ws.map (opnd tyInt), got := 0 }], open_ := none, held := [], out := 0 }] }

/-- base at ns nanoseconds, CMP of phase 0 of motor 0 at 300, its carrier of 1,000 ns having topped or not. -/
def motAt (ns : Nat) (topped : Bool) : Main :=
  let m := (base.set (F.MOTOR_CMP_ACTIVE 0) 300).set (F.MOTOR_PER_PERIOD 0) 1000
  { m.putMotor { m.motor 0 with topped := topped } with wall := { ns := ns, frac := 0, sec := 0 } }

def dacHeld (t : Nat) : Main := base.putDac { n := 0, start := some t, held := some 9 }

/-- Tape port 0 in step mode, with holes in hand. -/
def tapeBusy0 : Main :=
  let m := (base.set (F.TAPE_CFG_MODE 0) 2).set (F.TAPE_CFG_RUNMODE 0) 1
  (m.set (F.TAPE_CFG_SPW 0) 10).putTape { m.tape 0 with holes := some (3, 0) }

theorem witness_DrivesAndTapes :
    (dacHeld 0).dac 0 = { n := 0, start := some 0, held := some 9 } ∧ (dacHeld 0).now < 1000 ∧ (base.set (F.MOTOR_ADC_SAMPLE 0) 3).get (F.MOTOR_ADC_SAMPLE 0) = 3 ∧
    base.flag (F.MOTOR_CFG_TRIPLE 0) = false ∧ (base.set (F.MOTOR_CFG_TRIPLE 0) 1).flag (F.MOTOR_SHADOW_READY 0) = false ∧
    (motAt 1000 true).pointDue 0 false = true ∧ (motAt 500 false).pointDue 0 true = true ∧ (motAt 999 true).pointDue 0 false = false ∧ (motAt 499 false).pointDue 0 true = false ∧
    (motAt 400 false).idealOn 0 0 = true ∧ (motAt 200 false).idealOn 0 0 = false ∧ (motAt 700 true).idealOn 0 0 = false ∧ ((motAt 0 false).motor 0).written = [] ∧
    (motAt 0 false).flag (F.MOTOR_CTL_OE 0) = false ∧ ((motAt 0 false).set (F.MOTOR_CTL_OE 0) 1).flag (F.MOTOR_CTL_OE 0) = true ∧
    (((base.motor 0).phases[0]?).isSome = true) ∧ ({ base.motor 0 with group := true } : MotorSt).group = true ∧ (bound 0x60 5).unitRx 0x60 = some 5 ∧ base.unitRx 0x60 = none ∧
    (sends 0x60 5 [65]).unitTxRn 0x60 0 = some 5 ∧ (sends 0x60 5 [65]).live (.runnel 0 5) = true ∧ base.get (F.TAPE_CFG_MODE 0) ≠ 1 ∧ (base.tape 0).holes = none ∧
    (base.tape 0).want = false ∧ ({ base.motor 0 with group := true } : MotorSt).first + 200 * (base.motor 0).samples.length ≤ base.now ∧ (base.motor 0).group = false ∧
    ((motAt 1000 true).set (F.MOTOR_CFG_LOAD 0) 1).pointDue 0 false = true ∧ (base.set (F.MOTOR_ADC_SAMPLE 0) 0).get (F.MOTOR_ADC_SAMPLE 0) = 0 ∧ base.get (F.MOTOR_ADC_PEVT 0) = 0 ∧
    base.flag (F.MOTOR_CFG_ALIGN 0) = false ∧ 0 < (motAt 0 false).motorCmp 0 0 ∧ 2 * (motAt 0 false).motorCmp 0 0 < (motAt 0 false).motorPeriod 0 ∧
    tapeBusy0.tapeBusy 0 = true ∧ tapeBusy0.flag (F.TAPE_CFG_RUNMODE 0) = true ∧ tapeBusy0.flag (F.TAPE_STAT_RUNIN 0) = false := by decide +kernel

/-- R383, R385, R386, R388, R389, R395 to R397: a deferred DAC start; a carrier zero; an ideal signal; a sample group; a trip; tape characters. -/
theorem test_drives :
    field (.dacDeferredStart 0) { dacHeld 0 with wall := { ns := 1000, frac := 0, sec := 0 } } (F.AXIS_DAC_CODE 0) = some 9 ∧
    (after (.motorCarrierPoint 0 false) (motAt 1000 true)).map (fun m => (m.motor 0).periods) = some 1 ∧
    (after (.motorCarrierPoint 0 true) (motAt 500 false)).map (fun m => (m.motor 0).topped) = some true ∧
    (after (.idealSignalChange 0 0 true) (motAt 400 false)).map (fun m => ((m.motor 0).phases.map (fun p => p.on))) = some [true, false, false] ∧
    field (.motorAdcSample 0 9 0 0 io) ((base.putMotor { base.motor 0 with group := true }).set (F.MOTOR_ADC_OCLIM 0) 8) (F.MOTOR_CTL_OCTRIP 0) = some 1 ∧
    field (.motorAdcSample 0 5 6 7 io) (base.putMotor { base.motor 0 with group := true }) (F.MOTOR_IVAL_CUR 0) = some (5 + 6 * 2 ^ 16 + 7 * 2 ^ 32) := by decide +kernel

def tapeTx : Main := ((((sends 0x60 5 [65]).set (F.TAPE_CFG_MODE 0) 2).set (F.TAPE_CTL_GO 0) 1).set (F.TAPE_ENC_VALID 0 65) 1).set (F.TAPE_ENC_HOLES 0 65) 0x41

theorem test_tapes :
    (after (.tapeCharacterCapture 0 0x41 true io) ((bound 0x60 5).set (F.TAPE_CFG_MODE 0) 1)).map (fun m => m.get (F.TAPE_STAT_CHARS 0)) = some 1 ∧
    (after (.tapeCharacterSend 0 true io) tapeTx).map (fun m => (m.tape 0).holes.map (fun h => h.1)) = some (some 0x41) ∧
    field (.tapeCharacterSend 0 false io) (tapeTx.set (F.TAPE_STAT_RUNIN 0) 1) (F.TAPE_STAT_RUNIN 0) = some 0 ∧
    parityError false 0x41 = false ∧ parityError true 0x41 = true ∧ parityError false 0x01 = true := by decide +kernel

/-- R397: LOADTAB with the ISO code: hole pattern 0x41 is A, code 0x41. -/
theorem test_loadtab : bitsOf (isoDec 0x41) 0 8 = 0x41 ∧ bitsOf (isoDec 0x41) 10 1 = 1 := by decide +kernel

/-! ### Networks, host, service (R410 to R432) -/

/-- A broadcast frame of 60 bytes. -/
def frame60 : List (BitVec 8) := List.replicate 6 0xFF ++ List.replicate 54 0

theorem witness_Networks :
    base.live (.iface 0) = false ∧ (bound 0 5).live (.iface 0) = true ∧ 64 ≤ frame60.length + 4 ∧ frame60.length + 4 ≤ (bound 0 5).get (F.ETH_CFG_MAXLEN 0) ∧
    isPause (frame60.map BitVec.toNat) = false ∧ (bound 0 5).ethTakes 0 (List.replicate 6 0xFF) = true ∧ (bound 0 5).unitRx 0 = some 5 ∧
    ((bound 0 5).rnUnitCommit 5 [i 1, i 2, i 3] io).1 = true ∧ ((bound 0 5).set (F.RUNNEL_CFG_CAP 0 5) 2 |>.rnUnitCommit 5 [i 1, i 2, i 3] io).1 = false ∧
    (base.eth 0).txts.length < 16 ∧ (base.eth 0).oper.cycle = 0 ∧ base.comm.mdio = 0 ∧ bitsOf (w64 0x800).toNat 11 2 ≠ 0 ∧ base.wall.ns / 1000000000 ≤ base.wall.sec ∧
    ((bound 0x10 5).set (F.CAN_CFG_MODE 0) 1).get (F.CAN_CFG_MODE 0) ≠ 0 ∧ (bound 0x10 5).get (F.CAN_STAT_STATE 0) ≠ 2 ∧
    ((sends 0x10 5 [0, 0]).set (F.CAN_CFG_MODE 0) 1).canPick 0 = some (5, [0, 0]) ∧ canWellFormed false [0, 0] = true ∧ canWellFormed false [0] = false ∧
    canWellFormed true [2 ^ 31, 0] = true ∧ canWellFormed false [2 ^ 31, 0] = false ∧
    (base.uart 0).count = 0 ∧ (base.uart 0).bound = 0 ∧ (base.uart 0).dropping = false ∧ (sends 0x20 5 [0, 0]).unitHead 5 = some [0, 0] ∧
    (base.uart 0).txEnd ≤ base.now ∧ base.uartIdle 0 0 = false ∧
    (base.set (F.UART_MSG_IDLE 0) 1).uartIdle 0 1000000 = true := by decide +kernel

theorem witness_Networks_pause : isPause (([0x01, 0x80, 0xC2, 0x00, 0x00, 0x01] ++ List.replicate 6 0 ++ [0x88, 0x08, 0, 1] : List Nat)) = true := by decide +kernel

def can1 : Main := (bound 0x10 5).set (F.CAN_CFG_MODE 0) 1
def canF : CanFrame := { id := 5, ide := false, rtr := false, fdf := false, brs := false, esi := false, dlc := 0, data := [] }

/-- A frame of 14 bytes at the head of a runnel of port 0, and a longer preemptable one in transmission. -/
def ethTx : Main := sends 0 5 [14, 0, 0, 0]
def ethFlight : EthTx := { ws := [1400, 0], cls := 1, pre := true, done := 0, start := 0 }
def ethMid : Main := { base.putEth { base.eth 0 with tx := some ethFlight, busy := 2000000, hold := true } with wall := { ns := 100000, frac := 0, sec := 0 } }

/-- The frame of ethTx, 0.1 ms after it has come. -/
def ethLater : Main := { ethTx with wall := { ns := 100000, frac := 0, sec := 0 } }

theorem witness_Networks_transmit :
    (base.eth 0).latched = none ∧ base.gating 0 = false ∧ ethTx.now ≥ (ethTx.eth 0).busy ∧ (ethTx.eth 0).paused = none ∧
    ((ethTx.ethActs 0 false).map (fun a => (a.1, a.2.1, a.2.2.1, a.2.2.2))) = [(0, 5, [14, 0, 0, 0], .send)] ∧ ethTx.ethAct 0 0 5 [14, 0, 0, 0] false = .send ∧
    ethTx.ethAct 0 0 5 [3, 0, 0] false = .bad ∧ (base.ethActs 0 false) = [] ∧ ethMid.now < (ethMid.eth 0).busy ∧ (ethMid.eth 0).tx = some ethFlight ∧
    (ethMid.ethCut 0 ethFlight).isSome = true ∧ (ethMid.eth 0).hold = true ∧ bitsOf (([14, 0, 0, 0] : List Nat).getD 0 0) 16 1 = 0 ∧
    ethLater.lateFor 5 1 true = true ∧ ethLater.lateFor 5 1 false = false ∧ ethLater.lateFor 5 90000 true = false ∧
    base.gateMax 0 0 = none ∧ base.ethHeld 0 0 = false := by decide +kernel

theorem witness_Networks_serial :
    canF.fdf = false ∧ (can1.set (F.CAN_CFG_FD 0) 1).flag (F.CAN_CFG_FD 0) = true ∧ can1.canAccepts 0 canF = true ∧ can1.flag (F.CAN_CFG_FD 0) = false ∧
    bitsOf (([2 ^ 31, 0] : List Nat).getD 0 0) 31 1 = 1 ∧ base.get (F.UART_CFG_LINE 0) = 0 ∧ (sends 0x20 5 [1, 0, 0x41]).unitTxRn 0x20 0 = some 5 ∧
    (sends 0x20 5 [1, 0, 0x41]).unitHead 5 = some [1, 0, 0x41] ∧ (base.uart 0).txEnd ≤ base.now ∧ 3 = 2 + wordsFor (bitsOf 1 0 16) ∧
    ((base.set (F.UART_CFG_LINE 0) 2).set (F.UART_MSG_DEG 0) 1).uartLead 0 ≠ 0 ∧ (base.set (F.UART_CFG_LINE 0) 1).uartLead 0 = 0 := by decide +kernel

/-- R410, R412: a frame becomes a packet; one of a bad FCS is counted. -/
theorem test_ethernet :
    (after (.ethFrameReceive 0 frame60 true 7 io) (bound 0 5)).map (fun m => (m.rn 0 5).pkts.length) = some 1 ∧
    field (.ethFrameReceive 0 frame60 false 7 io) (bound 0 5) (F.ETH_STAT_RXERR 0) = some 1 ∧
    field (.ethLinkChange 0 false 0) ((bound 0 5).set (F.ETH_STAT_LINK 0) 1) (F.ETH_STAT_LINK 0) = some 0 ∧
    field (.ethGclChange 0) base (F.ETH_GCLCTL_CHG 0) = some 1 ∧ field (.ethGclEntry 0) base (F.ETH_GCLOPER_GATES 0) = some 0xFF ∧
    (after (.txtsRead 0) (base.putEth { base.eth 0 with txts := [(1, 2)] })).map (fun m => (m.eth 0).txts.length) = some 0 ∧
    field (.ethFrameTransmit 0 false ⟨[], []⟩) (sends 0 5 [3, 0]) (F.ETH_STAT_TXERR 0) = some 1 ∧
    field (.ethVerifyDone 0 true) (base.set (F.ETH_CFG_VERIFY 0) 1) (F.ETH_STAT_VERIFIED 0) = some 1 ∧
    (after (.ethGclAdopt 0) base).isSome = true ∧ field (.mdioFrame (.start 0x800)) base F.ETH_MDIO_BUSY = some 1 := by decide +kernel

/-- R418, R419: wall time is stepped forward by contexts 0 and 255; a second is an event. -/
theorem test_time :
    (after (.timeStepWrite .ctx0 5) base).map (fun m => m.now) = some 5 ∧ (after (.timeStepWrite .host 5) base).map (fun m => m.now) = some 0 ∧
    field (.timeStepWrite .ctx0 (0 - 5)) base F.TIME_STAT_STEPREF = some 1 ∧
    (after .wholeSecond { base with wall := { ns := 1000000000, frac := 0, sec := 0 } }).map (fun m => (m.wall.sec, m.tok.captured.map (fun e => e.src))) = some (1, [545]) := by
  decide +kernel


/-- R421 to R425: CAN and UART. -/
theorem test_serial :
    (after (.canFrameReceive 0 (.frame canF false) 0 io) can1).map (fun m => (m.rn 0 5).pkts.length) = some 1 ∧
    field (.canFrameReceive 0 .error 0 io) can1 (F.CAN_STAT_REC 0) = some 1 ∧
    field (.canFrameTransmit 0 .error false ⟨[], []⟩) ((sends 0x10 5 [0, 0]).set (F.CAN_CFG_MODE 0) 1) (F.CAN_STAT_TEC 0) = some 8 ∧
    field (.canBusOffRecovery 0) (((base.set (F.CAN_STAT_STATE 0) 2).set (F.CAN_CFG_AUTOREC 0) 1)) (F.CAN_STAT_STATE 0) = some 0 ∧
    (after (.uartCharacterReceive 0 0x41 false false false 0 io) (bound 0x20 5)).map (fun m => (m.uart 0).bytes) = some [0x41] ∧
    (after (.uartMessageEnd ⟨0, .ok⟩) (bound 0x20 5)).map (fun m => (m.uart 0).count) = some 0 ∧
    (after (.uartTransmit 0 [] false ⟨[], []⟩) (sends 0x20 5 [1, 0, 0x41])).map (fun m => (m.uart 0).wire) = some [0x41] := by decide +kernel

/-- The physical address of MODE.CUR. -/
def modeCur : BitVec 40 := 0x8E13000008

def hostOpen : Main := ((base.set F.SEC_STAT_SESSION 1).set F.SEC_STAT_PATH 3).set F.SEC_STAT_LEVEL 3

theorem witness_HostAndService :
    base.regsReach modeCur.toNat = true ∧ modeCur.toNat % 8 = 0 ∧ hostOpen.pathLevel .debug = 3 ∧ (base.set F.MODE_CUR_MODE 9).mode = 9 ∧ base.flag (F.PCIE_WIN_EN 0) = false ∧
    (base.set (F.PCIE_WIN_EN 0) 1).flag (F.PCIE_WIN_EN 0) = true ∧ base.memOpen .ctx0 0x8000100000 false = true ∧ base.memOpen .host 0x8000100000 false = false ∧
    base.asleep = false ∧ (base.set F.MODE_CUR_MODE 10).asleep = true ∧ base.extOwned 0x8000100000 false = false ∧
    base.gate { ctx := 256, die := 0, flume := none, external := true, debug := false } 0x8000100000 false = .go ∧ 0 < (3 : BitVec 3).toNat ∧
    base.pecBad .i2c .bad = true ∧ base.pecBad .i2c .good = false ∧ base.sys.back = none ∧ (bound 0x30 5).live (.iface 0x30) = true ∧ base.get F.USB_STAT_STATE = 0 ∧
    ((bound 0x38 5).set F.USB_STAT_STATE 3).get F.USB_STAT_STATE = 3 ∧ (bound 0x38 5).unitRx 0x38 = some 5 ∧ (sends 0x40 5 [1, 0, 0, 0]).unitHead 5 = some [1, 0, 0, 0] ∧
    (base.stor 0).cmd = none ∧ (base.stor 0).done = none ∧ base.flag F.PMB_CMD_GO = false ∧
    (List.range 16).filter (fun k => ((base.set (F.PMB_RAIL_EN 2) 1).set (F.PMB_RAIL_ADDR 2) 0x20).flag (F.PMB_RAIL_EN k) &&
      ((base.set (F.PMB_RAIL_EN 2) 1).set (F.PMB_RAIL_ADDR 2) 0x20).get (F.PMB_RAIL_ADDR k) == 0x20) = [2] := by decide +kernel

/-- R13: a read of MODE.CUR answers with its value: mode 4. -/
theorem test_register_read : (after (.readClearAccess .ctx0 modeCur) base).map (fun m => m.comm.ext.map (fun e => (e.status, e.data.head?))) = some (some (0, some 4)) := by
  decide +kernel

theorem witness_HostAndService_register : ((base.touch .ctx0).regAt modeCur.toNat).map (fun a => (base.touch .ctx0).mayRead .ctx0 a.row.name) = some true := by decide +kernel

def ringE : RingEnt := { addr := 0, len := 16, words := 1, dev := true, err := false, data := [7] }

/-- R413, R414, R426 to R432. -/
theorem test_host :
    (after (.hostWindowAccess (.bar2 0) 3 ⟨none, false⟩) base).map (fun m => m.comm.ext.map (fun e => e.status)) = some (some 1) ∧
    (after (.hostWindowAccess (.path .debug 0x8000100000) 3 ⟨none, false⟩) (hostOpen.writeMem 0x8000100000 5 8).2).map (fun m => m.comm.ext.map (fun e => e.data.head?)) = some (some (some 5)) ∧
    (after (.pcieDoorbell (w64 (5 * 2 ^ 32 + 3))) base).map (fun m => m.tok.captured.map (fun e => (e.src, e.word))) = some [(963, 5)] ∧
    field (.pcieLinkEvent (.up 3 4)) base F.PCIE_LINK_UP = some 1 ∧
    (after (.htdEntry 0 ringE io) (((bound 0x30 5).set (F.PCIE_CH_HTDCTL_LOGSIZE 0) 4).set (F.PCIE_CH_HTDCTL_TAIL 0) 1)).map (fun m => (m.rn 0 5).pkts.length) = some 1 ∧
    (after (.dthEntry 0 ringE ⟨[], []⟩) (((sends 0x30 5 [9]).set (F.PCIE_CH_DTHCTL_LOGSIZE 0) 4).set (F.PCIE_CH_DTHCTL_TAIL 0) 1)).map
      (fun m => m.comm.ring.map (fun e => (e.1, e.2.data))) = some (some (0, [9])) ∧
    (after (.msixWrite .ctx0 9) base).map (fun m => m.comm.vector) = some (some 9) := by decide +kernel

theorem test_usb_storage :
    (after (.usbOutTransfer 0 [1, 2] io) ((bound 0x38 5).set F.USB_STAT_STATE 3)).map (fun m => (m.rn 0 5).pkts.map (fun p => p.words.map (fun o => o.value.toNat))) =
      some [[2, 0x201]] ∧
    (after (.usbInTransfer 0 ⟨[], []⟩) ((sends 0x38 5 [2, 0x201]).set F.USB_STAT_STATE 3)).map (fun m => m.comm.usb.head?) = some (some [1, 2]) ∧
    field (.usbBusEvent (.attach true)) ((base.set F.USB_CFG_CONNECT 1).set F.USB_STAT_VBUS 1) F.USB_STAT_STATE = some 1 ∧
    (after (.storageCommand 1 ⟨[], []⟩) (sends 0x41 5 [1, 0, 0, 8])).map (fun m => (m.stor 1).cmd.isSome) = some true ∧
    (after (.storageCompletion 1 .card io) base).map (fun m => m.tok.captured.map (fun e => (e.src, e.word))) = some [(547, 2)] := by decide +kernel

/-- R427: an HTD entry is written back where it stands; R424: a character starts when CTS lets it. -/
theorem test_ring_and_cts :
    (after (.htdEntry 0 ringE io) ((((bound 0x30 5).set (F.PCIE_CH_HTDCTL_LOGSIZE 0) 4).set (F.PCIE_CH_HTDCTL_TAIL 0) 3).set (F.PCIE_CH_HTDCTL_HEAD 0) 2)).map
      (fun m => m.comm.ring.map (fun e => (e.1, e.2.dev))) = some (some (32, false)) ∧
    (after (.uartTransmit 0 [70] false ⟨[], []⟩) ((sends 0x20 5 [1, 0, 0x41]).set (F.UART_CFG_LINE 0) 1)).map (fun m => (m.uart 0).starts) = some [70] ∧
    (after (.ethFrameTransmit 0 false ⟨[], []⟩) ethTx).map (fun m => (m.eth 0).tx.isSome) = some true ∧
    (after (.ethFrameTransmit 0 false ⟨[], []⟩) ethMid).map (fun m => ((m.eth 0).tx.isSome, (m.eth 0).paused.isSome)) = some (false, true) := by decide +kernel

theorem test_service :
    (after (.svcRead .i2c 0x8000100000 ⟨.bad, false⟩) base).map (fun m => m.comm.svc) = some [6] ∧ (after (.svcWrite .i2c 0x8000100000 5 ⟨.good, false⟩) base).map (fun m => m.comm.svc) = some [2] ∧
    (after (.svcMode .i2c .good) base).map (fun m => m.comm.svc.head?) = some (some 0) ∧ (after .svcAddressWake base).isSome = true ∧
    field (.pmbusCommand (.start (w64 (2 ^ 32)))) base F.PMB_CMD_GO = some 1 ∧
    field (.pmbusAlert 0x20) ((base.set (F.PMB_RAIL_EN 2) 1).set (F.PMB_RAIL_ADDR 2) 0x20) F.PMB_ALERT_RAILS = some 4 ∧
    (after (.haltAndResumeOfDispatch 1 0 true) (hostOpen.set F.MODE_CUR_MODE 9)).map (fun m => m.tuft.halted) = some [8] := by decide +kernel

/-! ### The survey engine (R440 to R461) -/

/-- base in SURVEY with a run on one object of a kind: group g, first i. -/
def surv (mode kind g i param : Nat) : Main :=
  (((((base.set F.MODE_CUR_MODE mode).set F.SURVEY_STAT_STATE 1).set (F.SURVEY_PLAN_KIND 0) kind).set (F.SURVEY_PLAN_GROUP 0) g).set (F.SURVEY_PLAN_FIRST 0) i).set
    (F.SURVEY_PLAN_PARAM 0) param |>.set (F.SURVEY_PLAN_COUNT 0) 1

theorem witness_SurveyEngine :
    base.survRuns = false ∧ (surv 2 2 0 0 0).survRuns = true ∧ (List.range ((base.set F.SURVEY_CTL_NPLAN 1).survN)).find? (base.set F.SURVEY_CTL_NPLAN 1).survBad = some 0 ∧
    (List.range base.survN).find? base.survBad = none ∧
    (surv 2 2 0 0 0).survCur = some (2, 0, 0, 0) ∧ (surv 2 2 0 0 0).get F.SURVEY_STAT_ENTRIES < 8192 ∧ survStimulus 2 10 = true ∧
    (st (surv 2 2 0 0 10)).survReady 2 0 10 = true ∧ (st (surv 4 2 0 0 10)).survReady 2 0 10 = false ∧ (surv 4 1 3 0 0).survCur = some (1, 3, 0, 0) ∧
    (st (surv 3 5 0 0 0)).survReady 5 0 0 = false ∧ (surv 3 5 0 0 0).surv.wind = none ∧ base.mode ≠ 0 ∧ base.mode ≠ 10 ∧ base.railPresent 0 = true ∧
    base.surv.rails.find? (fun x => x.r == 0) = none ∧ (base.set F.SURVEY_WATCH_MAINSEN 1).flag F.SURVEY_WATCH_MAINSEN = true ∧ base.surv.mains = false := by decide +kernel

/-- The class of a pin: open; a short; a clamp of a diode on the positive side; a plain resistor; a driven one (R447). -/
theorem test_pin_class : pinClass 10 0 5000000 (-5000000) 20000000000 20000000000 true true = (1, some (-1)) ∧ pinClass 10 0 10 (-10) 10000 10000 false false = (2, none) ∧
    pinClass 10 0 700000 (-5000000) 700000 0 false true = (5, some 700000) ∧ pinClass 10 0 1000000 (-1000000) 1000000 1000000 false false = (3, none) ∧
    pinClass 10 200000 1000000 0 1000000 1000000 false false = (4, none) := by decide +kernel

/-- R443, R444, R446, R457, R460: START of a plan with a bad row fails on it; a supply entry's word 0; STOP; CLEAR; the mains watch. -/
theorem test_survey :
    field (.surveyStart (w64 0x101)) base F.SURVEY_STAT_STATE = some 3 ∧
    field (.surveySupply 900000 5) (surv 4 1 12 0 0) (F.SURVEY_RECORD_WORD 0 0) = some (1 + 12 * 4096 * 2 ^ 16) ∧
    field (.surveySupply 900000 5) (surv 4 1 12 0 0) (F.SURVEY_RECORD_WORD 0 1) = some 900000 ∧
    field (.surveyStop (w64 2)) (surv 4 1 12 0 0) F.SURVEY_STAT_ERR = some 3 ∧ field (.surveyClear (w64 4)) (base.set F.SURVEY_STAT_ENTRIES 7) F.SURVEY_STAT_ENTRIES = some 0 ∧
    field (.mainsWatch 1) (base.set F.SURVEY_WATCH_MAINSEN 1) F.SURVEY_MAINSVAL_OUT = some 1 ∧
    field (.surveyThermal 640) (surv 4 10 13 1 0) (F.SURVEY_RECORD_WORD 0 1) = some 640 ∧
    field (.supplyWatchSample 0 5) (base.set (F.SURVEY_RAIL_LO 0) 6) (F.SURVEY_RAIL_OUT 0) = some 1 := by decide +kernel

/-- Each measurement writes one entry of its kind for an object that may not be stimulated: REFUSED (2) in bits 11 to 8. -/
theorem test_survey_refused :
    field (.surveyPinload 0 ⟨[]⟩ ⟨[]⟩ 0) (surv 4 2 0 0 10) (F.SURVEY_RECORD_WORD 0 0) = some (2 + 2 * 2 ^ 8) ∧
    field (.surveyTdr false 0 0 0 0) (surv 4 3 0 0 0) (F.SURVEY_RECORD_WORD 0 0) = some (3 + 2 * 2 ^ 8) ∧
    field (.surveyDacload 0 ⟨[]⟩ ⟨[]⟩ 0) (surv 4 4 0 0 0) (F.SURVEY_RECORD_WORD 0 0) = some (4 + 2 * 2 ^ 8) ∧
    field (.surveyWinding .start) (surv 4 5 0 0 0) (F.SURVEY_RECORD_WORD 0 0) = some (5 + 2 * 2 ^ 8) ∧
    field (.surveyResolver 0 0 1 0 0) (surv 4 7 0 0 0) (F.SURVEY_RECORD_WORD 0 0) = some (7 + 2 * 2 ^ 8) := by decide +kernel

theorem test_survey_passive :
    field (.surveyMains 0 230) (surv 4 8 0 0 0) (F.SURVEY_RECORD_WORD 0 0) = some (8 + 7 * 2 ^ 8) ∧
    field (.surveyPartner 0x81 0) (surv 4 9 0 0 0) (F.SURVEY_RECORD_WORD 0 1) = some 1 ∧
    (after (.surveyEncoder ⟨0, 0, 0, 0, 0, 0, false, []⟩ 0) (surv 2 6 0 0 0)).map (fun m => m.get F.SURVEY_STAT_ENTRIES) = some 1 := by decide +kernel

/-! ### The safety island (R462 to R497) -/

/-- The island in RUN, taking requests, with no parameter set words but zeros, and every pair released or asserted. -/
def run2 (sto : Bool) : Island :=
  { Island.zero with st := 2, opn := true, budget := 8, pset := some (List.replicate 206 0), chs := List.replicate 16 { SafeCh.zero with sto := sto } }

/-- A request of code, index and argument, in two words, with the sequence number seq and its CRC. -/
def reqWords (code idx arg seq : Nat) : List Nat :=
  let w0 := code + idx * 2 ^ 8 + arg * 2 ^ 24
  [w0, seq + crc32 (leBytes 8 w0 ++ leBytes 2 seq) * 2 ^ 32]

def reqPkt (code idx arg seq : Nat) : List Opnd := (reqWords code idx arg seq).map (opnd tyInt)

/-- A state with a request at the front of the request runnel. -/
def asking (isl : Island) (pkt : List Opnd) : State :=
  { st { live1 base [.runnel 0 4095] with runnels := [{ die := 0, idx := 4095, pkts := [{ serial := 0, words := pkt, got := 0 }], open_ := none, held := [], out := 0 }] } with
    isl := isl }

def islAfter (c : Instr) (s : State) : Option Island :=
  match exec c s with
  | .next t => some t.isl
  | _ => none

theorem framed_of {ws : List Nat} (h : decide (2 ≤ ws.length ∧ ws.length = bitsOf (ws.headD 0) 16 8 + 2 ∧ bitsOf (ws.headD 0) 16 8 ≤ 64 ∧
    bitsOf (ws.getLastD 0) 16 16 = 0) = true) : framed ws := by
  have h2 := of_decide_eq_true h
  exact h2

theorem crcRight_of {ws : List Nat} (h : decide (bitsOf (ws.getLastD 0) 32 32 = crc32 ((ws.take (ws.length - 1)).flatMap (leBytes 8) ++
    leBytes 2 (bitsOf (ws.getLastD 0) 0 16))) = true) : crcRight ws := by
  have h2 := of_decide_eq_true h
  exact h2

theorem permitted_of {i : Island} {d : Nat} (h : decide (i.st = 2 ∧ i.hold = false ∧
    (∀ n ∈ List.range 32, i.demands n = true → i.inAct n ≠ 5 → i.inAct n ≠ 6 → i.inNames n d = false) ∧ (i.ch d).ss1 = none ∧ (i.ch d).ss2 = none) = true) :
    i.permitted d := by
  have h2 := of_decide_eq_true h
  exact ⟨h2.1, h2.2.1, fun n hn => h2.2.2.1 n (List.mem_range.2 hn), h2.2.2.2⟩

theorem seqRight_first {i : Island} (h : i.rseq = none) (seq : Nat) : i.seqRight seq := by
  intro r hr
  rw [h] at hr
  exact absurd hr (by simp)

theorem witness_IslandRequests :
    framed (pktWords (reqPkt 0x10 0 0 7)) ∧ crcRight (pktWords (reqPkt 0x10 0 0 7)) ∧ (run2 true).seqRight 7 ∧ (run2 true).permitted 15 ∧
    ((run2 true).works = true ∧ (run2 true).opn = true ∧ (asking (run2 true) (reqPkt 0x10 0 0 7)).main.live (.runnel 0 4095) = true ∧
    (asking (run2 true) (reqPkt 0x10 0 0 7)).main.rnPeekPkt 0 4095 = some (reqPkt 0x10 0 0 7) ∧ ((asking (run2 true) (reqPkt 0x10 0 0 7)).main.rnTakePkt 0 4095).isSome = true ∧
    (run2 true).budget ≠ 0 ∧ bitsOf ((pktWords (reqPkt 0x10 0 0 7)).headD 0) 0 8 = 0x10 ∧ 0x99 ∉ reqCodes ∧ 0x10 ∈ reqCodes ∧
    (pktWords (reqPkt 0x10 0 0 7)).length = 2 ∧ (run2 true).st = 2 ∧ (run2 true).chs.length = 16 ∧ (run2 true).brk.length = 8 ∧ Island.zero.st ≠ 2 ∧
    ((run2 true).ch 3).rstpend = false ∧ ((run2 true).ch 3).pairfault = false ∧ ((run2 false).ch 3).sto = false ∧ (run2 false).hold = false ∧
    ((run2 false).ch 3).ss1 = none ∧ (run2 false).slsVal 3 2 ≤ (run2 false).slsVal 3 ((run2 false).ch 3).sls) :=
  ⟨framed_of (by decide +kernel), crcRight_of (by decide +kernel), seqRight_first rfl 7, permitted_of (by decide +kernel), by decide +kernel⟩

/-- What a request of two words answers: the channel's STO, and the RESULT of its one ACK. -/
def asks (isl : Island) (c : Instr) (code idx arg : Nat) : Option (Option Nat) :=
  (islAfter c (asking isl (reqPkt code idx arg 7))).map (fun i => (i.outq.getLast?.bind List.head?).map (fun w => bitsOf w 8 8))

/-- R482 to R485: demands and permissions in RUN. -/
theorem test_requests :
    asks (run2 false) .sto 0x10 3 0 = some (some 0) ∧ asks (run2 true) .heartbeat 0x01 0 0 = some (some 0) ∧ asks (run2 false) .ss1 0x11 3 0 = some (some 0) ∧
    asks (run2 false) .ss2 0x12 3 0 = some (some 0) ∧ asks (run2 false) .sos 0x13 3 0 = some (some 0) ∧ asks (run2 false) .slsLower 0x14 3 2 = some (some 0) ∧
    asks (run2 false) .brakeApply 0x15 3 0 = some (some 0) ∧ asks (run2 false) .gateClose 0x16 3 0 = some (some 0) ∧ asks (run2 false) .sdi 0x17 3 1 = some (some 0) ∧
    asks (run2 true) .stoRelease 0x40 3 0 = some (some 0) ∧ asks (run2 true) .gateOpen 0x44 3 0 = some (some 1) := by decide +kernel

theorem test_permissions :
    asks (run2 false) .sosRelease 0x41 3 0 = some (some 0) ∧ asks (run2 false) .slsRaise 0x42 3 3 = some (some 0) ∧ asks (run2 false) .brakeRelease 0x43 3 0 = some (some 1) ∧
    asks (run2 false) .gateOpen 0x44 3 0 = some (some 0) ∧ asks (run2 false) .sdiOff 0x45 3 0 = some (some 0) ∧ asks (run2 true) .psetBegin 0x80 0 0 = some (some 0) ∧
    asks (run2 true) .psetData 0x81 0 0 = some (some 5) ∧ asks (run2 true) .psetCommit 0x82 0 0 = some (some 1) ∧ asks (run2 true) .psetAbort 0x83 0 0 = some (some 0) ∧
    asks (run2 true) .sto 0x10 99 0 = some (some 5) ∧ ((islAfter .sto (asking (run2 false) (reqPkt 0x10 3 0 7))).map (fun i => ((i.ch 3).sto, (i.ch 4).sto))) = some (true, false) ∧
    (islAfter .islandStatusRequest (asking (run2 true) (reqPkt 0x02 0 0 7))).map (fun i => i.outq.map List.length) = some [21, 1] := by decide +kernel

/-- The island in RUN with every channel's STO released, t cycles on, one channel in a state of its own. -/
def runC (t : Nat) (c : SafeCh) : Island := { run2 false with t := t, chs := List.replicate 3 { SafeCh.zero with sto := false } ++ [c] ++ List.replicate 12 { SafeCh.zero with sto := false } }
def stI (i : Island) : State := { st base with isl := i }

theorem witness_IslandCycle :
    ((run2 false).sample true true true 900 3300).st ≠ 3 ∧ ((run2 false).sample true true true 800 3300).st = 3 ∧ ({ Island.zero with on := false } : Island).on = false ∧
    (run2 false).works = true ∧ (run2 false).pset.isSome = true ∧ (run2 false).w 2 = 0 ∧ (run2 false).obs = false ∧
    ((stI (run2 false)).isl.works && (stI (run2 false)).isl.opn) = true ∧ (Island.zero.works && Island.zero.opn) = false ∧ Island.zero.ins.length = 32 ∧
    ({ run2 false with pset := some (List.replicate 206 1) } : Island).inMode 31 = 1 ∧ (run2 false).chs.length = 16 ∧ ((run2 false).ch 15).sdi = none ∧
    (run2 false).slsLimit 3 = 4 ∧ (runC 5 { SafeCh.zero with sto := false, sls := 1 }).slsLimit 3 = 1 ∧ (run2 false).chFlag 3 22 = false ∧
    (run2 false).tramp 3 = 0 ∧ ((runC 5 { SafeCh.zero with sto := false, ss1 := some ⟨0, 0, true, false⟩ }).ch 3).ss1 = some ⟨0, 0, true, false⟩ ∧
    20 < (runC 50 SafeCh.zero).t - ((runC 50 SafeCh.zero).ch 3).since ∧ (run2 false).hbDue = false ∧ (run2 false).aliveDue = true ∧ (run2 false).rst = false := by decide +kernel

/-- R468, R469, R476, R478: a cycle samples; a supply out of its window is FAULT; a demand asserts STO by limits; a stuck readback. -/
theorem test_island_cycle :
    (islAfter (.safetyCycle (.sample true true true 900 3300 [])) (stI (run2 false))).map (fun i => (i.st, i.t)) = some (2, 1) ∧
    (islAfter (.safetyCycle (.sample true true true 800 3300 [])) (stI (run2 false))).map (fun i => (i.st, i.fault, i.gates)) = some (3, 6, 0) ∧
    (islAfter (.safetyCycle (.act 0xFFFFFFFF 0 (0, 0) [])) (stI (run2 false))).map (fun i => i.opn) = some false ∧
    (islAfter (.safeInputSample 0 0) (stI (run2 false))).map (fun i => i.st) = some 2 ∧
    (islAfter (.testPulse 0 0 0) (stI (run2 false))).map (fun i => i.st) = some 2 ∧
    ((runC 5 { SafeCh.zero with sto := false, sos := some 100 }).limits 3 |>.ch 3).sto = true ∧ ((run2 false).limits 3 |>.ch 3).sto = false ∧
    ((runC 50 { SafeCh.zero with sto := false }).readSto 0 |>.ch 3).pairfault = true := by decide +kernel

/-- R473: SAFE_ALIVE changes every five cycles of 100 µs while the island works, and stands still otherwise. -/
theorem test_safe_alive : (run2 false).safeAlive = false ∧ (runC 5 SafeCh.zero).safeAlive = true ∧ (runC 9 SafeCh.zero).safeAlive = true ∧
    (runC 10 SafeCh.zero).safeAlive = false ∧ Island.safeAlive { runC 5 SafeCh.zero with on := false } = false := by decide +kernel

theorem test_island_timers :
    (islAfter (.ss1RampExpiry 3) (stI (runC 5 { SafeCh.zero with sto := false, ss1 := some ⟨0, 0, true, false⟩ }))).map (fun i => ((i.ch 3).sto, (i.ch 3).cause)) = some (true, 11) ∧
    (islAfter (.testDue 3) (stI (runC 6048000000 { SafeCh.zero with sto := false }))).map (fun i => (i.ch 3).testdue) = some true ∧
    (islAfter .aliveLoss (stI (run2 false))).map (fun i => (i.hold, i.alive)) = some (true, true) ∧ (islAfter .heartbeatLoss (stI (run2 false))).map (fun i => i.hold) = some false ∧
    (islAfter .statusPacketPeriod (stI (run2 false))).map (fun i => i.outq.length) = some 1 ∧
    (islAfter (.safeCounterEdge 0 true false) (stI { run2 false with pset := some (List.replicate 206 (2 ^ 17)) })).map (fun i => (i.ch 3).c0) = some (-1) ∧
    (islAfter (.safeCounterIndex 0) (stI { run2 false with pset := some (List.replicate 206 (2 ^ 21 + 2 ^ 17)) })).map (fun i => (i.ch 3).ref) = some true := by decide +kernel

theorem witness_ParameterSets :
    Island.zero.load = none ∧ Island.zero.nvKey = [] ∧ Island.zero.st = 0 ∧ Island.zero.locked = false ∧ (run2 false).on = true ∧ (run2 false).st ≠ 0 ∧
    setBad (List.replicate 206 0) = true ∧ Island.zero.judge { words := [], since := 0, key := 2 } = 5 ∧ (4 : Fin 12).val ∈ [1, 2, 3, 4, 6, 7] ∧ (5 : Fin 12).val ∉ [1, 2, 3, 4, 6, 7] ∧
    base.get F.SAFE_STATE_STATE = 0 := by decide +kernel

/-- R465, R473, R488, R493, R501: what begins, ends and resets a parameter set and the island. -/
theorem test_parameter_sets :
    (islAfter (.islandInitDone none) (stI Island.zero)).map (fun i => i.st) = some 1 ∧ (islAfter (.islandInitDone (some 4)) (stI Island.zero)).map (fun i => (i.st, i.fault)) = some (3, 4) ∧
    (islAfter (.islandFault 4) (stI (run2 false))).map (fun i => (i.st, (i.ch 9).sto)) = some (3, true) ∧ (islAfter .islandWatchdogReset (stI (run2 false))).map (fun i => (i.st, i.resets)) = some (0, 1) ∧
    (islAfter .psetLoadTimeout (stI { run2 false with t := 3000000, load := some { words := [], since := 0, key := 0 } })).map (fun i => i.load) = some none ∧
    (islAfter .psetVerifyDone (stI { run2 true with verify := [({ words := [], since := 0, key := 0 }, 9)] })).map (fun i => (i.verify, i.outq.map (fun w => w.map (fun x => bitsOf x 8 8)))) =
      some ([], [[5]]) ∧
    (islAfter .islandPowerOn (stI (run2 false))).map (fun i => i.st) = some 0 ∧ (islAfter .vsafePowerLoss (stI (run2 false))).map (fun i => i.on) = some false ∧
    (after .safeIslandPoll base).map (fun m => m.coll.polled.length) = some 19 := by decide +kernel

/-! ### The fault collector (R498 to R517) -/

def ev (src : Nat) (d : Fin 8) : FaultEvent := { src := src, die := d, named := d.val, detail := 3, severe := false, at_ := 0 }
def inbox (e : FaultEvent) : Main := { base with coll := { base.coll with inbox := [e] } }
def react0 : React := { seq := 0, cls := 5, src := 27, die := 0, named := 0, detail := 0, sev := 1, level := 1, at_ := 0 }
def reacting (r : React) : Main := { base with coll := { base.coll with reacts := [r] } }
def shadow0 : Shadow := { seq := 0, level := 4, scope := 3, src := 27, die := 0, named := 0, until_ := none }
def masked : Main := (inbox (ev 27 0)).set (F.FAULT_MAP_MASK 27) 1
def shadowed : Main := { (inbox (ev 27 0)).set F.FAULT_LOGCTL_SEQ 0 with coll := { (inbox (ev 27 0)).coll with shadows := [shadow0] } }
def atNs (m : Main) (t : Nat) : Main := { m with wall := { ns := t, frac := 0, sec := 0 } }

/-- R503: an event waits behind one of its die that was raised before it. -/
theorem test_fault_order :
    let two : Main := { base with coll := { base.coll with inbox := [{ ev 27 0 with at_ := 7 }, ev 28 0] } }
    (after (.faultEvent (.arrived 0)) two).map (fun m => m.coll.inbox.length) = some 2 ∧ (after (.faultEvent (.arrived 1)) two).map (fun m => m.coll.inbox.length) = some 1 ∧
    two.asleep = false ∧ (ev 28 0).before { ev 27 0 with at_ := 7 } = true ∧ ∀ x ∈ two.coll.inbox, x.before (ev 28 0) = false := by decide +kernel

/-- R505: a die that is isolated, and the last one that is not. -/
theorem witness_isolation :
    let lost : Main := { base with sys := { base.sys with isol := [1] } }
    lost.outcast 1 = true ∧ base.outcast 1 = false ∧ (∃ d ∈ base.computeDies, d ≠ 1 ∧ base.dieState d ≠ 2 ∧ d ∉ base.sys.isol) ∧
    ({ base with sys := { base.sys with isol := [2, 3, 4, 5] } } : Main).lastDie 1 = true ∧ base.sys.pow = 0 ∧ base.sys.warm = false ∧ base.dieState 1 = 1 := by decide +kernel

theorem witness_FaultCollector :
    (inbox (ev 27 0)).coll.inbox[0]? = some (ev 27 0) ∧ base.coll.inbox[255]? = none ∧ base.get (F.FAULT_MAP_MASK 27) = 0 ∧
    (base.set (F.FAULT_MAP_MASK 27) 1).get (F.FAULT_MAP_MASK 27) ≠ 0 ∧ base.coll.shadows = [] ∧ shadow0.isOpen 0 = true ∧ shadow0.covers (ev 27 0) = true ∧
    ({ shadow0 with scope := 1 } : Shadow).covers (ev 28 0) = false ∧ (base.set (F.MODE_DIE_STATE 1) 2).dieState 1 = 2 ∧ base.get F.FAULT_LOGCTL_NEXT < 256 ∧
    base.coll.counts = [] ∧ (base.classN 0 = 1 ∨ 2 ≤ base.classN 0) ∧ base.flag F.FAULT_SUMMARY_SELFFAIL = false ∧ base.coll.acks = [] ∧
    (reacting react0).coll.reacts[0]? = some react0 ∧ (reacting react0).reactDone react0 = true ∧ base.flag F.FAULT_ALIVE_START = false ∧ base.aliveMay = true ∧
    bitsOf (w64 0x400).toNat 10 1 = 1 ∧ bitsOf (w64 (0x200 + 28)).toNat 9 1 = 1 ∧ srcOn 28 0 = true ∧ srcOn 63 0 = false ∧ base.pop 0 = true ∧ 2 ≤ base.pathLevel .ctx0 ∧
    base.pathLevel .host = 0 ∧ base.now < base.coll.checkAt + 1000000 ∧ base.coll.checkAt + 1000000 ≤ (atNs base 1000000).now := by decide +kernel

/-- R503, R509, R510, R514: an event latches its bit; under a shadow it is logged only; what ends a count, a shadow, a reaction; ALIVE. -/
theorem test_collector :
    field (.faultEvent (.arrived 0)) masked (F.FAULT_DIESTAT_SRC 0) = some (2 ^ 27) ∧
    (after (.faultEvent (.arrived 0)) masked).map (fun m => m.coll.inbox.length) = some 0 ∧
    field (.faultEvent (.arrived 0)) shadowed F.FAULT_LOGCTL_SEQ = some 1 ∧
    (after (.countWindowEnd 0 27) { base with coll := { base.coll with counts := [{ die := 0, src := 27, n := 1, at_ := 0 }] } }).map (fun m => m.coll.counts.length) = some 1 ∧
    (after (.shadowEnd 0) { base with coll := { base.coll with shadows := [{ shadow0 with until_ := some 0 }] } }).map (fun m => m.coll.shadows.length) = some 0 ∧
    (after (.reactionComplete 0) (reacting react0)).map (fun m => m.coll.reacts.length) = some 0 ∧
    field (.reactionDeadline 0) (atNs (reacting react0) 10000) (F.FAULT_CLASS_STAT_FAILS 5) = some 1 ∧
    (after (.ackTimeout 5) { base with coll := { base.coll with acks := [react0] } }).map (fun m => m.coll.acks.length) = some 1 ∧
    field (.aliveStart .ctx0 0x400) base F.FAULT_ALIVE_START = some 1 ∧
    (after .aliveToggle (atNs (base.set F.FAULT_ALIVE_START 1) 1000000000)).map (fun m => m.coll.alive) = some true ∧
    field .selfCheckFailure base F.FAULT_SUMMARY_SELFFAIL = some 1 ∧ field .clockFailure base F.FAULT_SUMMARY_STOPWHY = some 3 := by decide +kernel

theorem test_collector_writes :
    (after (.faultInject .ctx0 (w64 (0x200 + 28))) base).isSome = true ∧
    field (.logClear .ctx0 (w64 0x200)) (base.set F.FAULT_LOGCTL_SEQ 9) F.FAULT_LOGCTL_SEQ = some 0 ∧
    field (.diestatClear .ctx0 0 2) (base.set (F.FAULT_DIESTAT_SRC 0) 3) (F.FAULT_DIESTAT_SRC 0) = some 1 ∧
    field (.classAck .ctx0 5 1) { base with coll := { base.coll with acks := [react0] } } (F.FAULT_CLASS_STAT_PEND 5) = some 7 ∧
    (after .selfCheck (atNs base 1000000)).map (fun m => m.coll.echoes) = some [0, 1, 2, 3, 4, 5, 6, 7] ∧
    field (.echoTimeout 0) (atNs { base with coll := { base.coll with echoes := [0] } } 10000) F.FAULT_SUMMARY_SELFFAIL = some 1 ∧
    (after .clkRef base).isSome = true ∧ (after (.faultRaiseWrite .ctx0 0x10005) base).isSome = true := by decide +kernel

/-! ### Modes, power, resets (R518 to R541) -/

def mode3 : Main := base.set F.MODE_CUR_MODE 3

theorem witness_ModesAndPower :
    mode3.pathLevel .ctx0 ≠ 0 ∧ mode3.pathLevel .host = 0 ∧ mode3.sys.back = none ∧ (4 : BitVec 4).toNat ∈ modeTargets mode3.mode ∧ (5 : BitVec 4).toNat ∉ modeTargets mode3.mode ∧
    mode3.modeBusy = false ∧ (slot0 1 []).modeBusy = true ∧ mode3.get F.SAFE_OUT_STOREL = 0 ∧ mode3.get F.SAFE_OUT_BRKREL = 0 ∧ mode3.sys.isol = [] ∧ base.wakeOn 2 = true ∧
    base.compute 1 = true ∧ base.dieState 1 = 1 ∧ base.sys.dorm = [] ∧ base.compute 0 = false ∧ base.flag (F.PWR_STAT_CHANGING 1) = false ∧
    (∀ e ∈ base.computeDies, e ≠ 1 → base.dieState e = 1) ∧ (base.set (F.MODE_DIE_STATE 1) 3).dieState 1 = 3 ∧ (base.set (F.MODE_DIE_STATE 1) 4).dieState 1 = 4 ∧
    base.get (F.PWR_STAT_CAP 1) = 7 ∧ base.pwrChg 1 = none ∧ base.mode ≠ 0 ∧ base.pop 6 = true := by decide +kernel

/-- R539: a die at 160 °C ends STANDBY, and counts THERMAL_FAULT. -/
theorem test_hot_wake :
    (after (.standbyWake (.temperature 1 1280)) { base.set F.MODE_CUR_MODE 10 with sys := { base.sys with back := some 3 } }).map
      (fun m => (m.mode, m.get F.MODE_STBY_LASTWAKE, m.coll.inbox.map (fun e => (e.src, e.die.val)))) = some (3, 2, [(4, 1)]) := by decide +kernel

/-- R9, R519, R521: the mode that a wake or a boot gives; L6 during a STANDBY entry. -/
theorem test_mode_back :
    let lost : Main := { base with sys := { base.sys with isol := [1] } }
    lost.modeBack 4 = 6 ∧ base.modeBack 6 = 4 ∧ lost.modeBack 3 = 3 ∧ ({ base with sys := { base.sys with isol := base.computeDies } } : Main).modeBack 4 = 7 ∧
    ({ base with sys := { base.sys with back := some 4 } } : Main).reactL6.sys.back = none := by decide +kernel

def chgP (ph : Nat) (up : Bool) : Main := { base.putPwrChg { die := 1, to_ := 5, up := up, phase := ph, at_ := 0, reps := 0 } with sys :=
  { (base.putPwrChg { die := 1, to_ := 5, up := up, phase := ph, at_ := 0, reps := 0 }).sys with busq := [1] } }

theorem witness_pwr : (chgP 0 true).pwrChg 1 = some { die := 1, to_ := 5, up := true, phase := 0, at_ := 0, reps := 0 } ∧ (chgP 0 true).sys.busq.head? = some 1 := by decide +kernel

/-- R520, R531, R534, R535: IDLE to RUN; a refused request; the steps of a change of level; a temperature's cap and refresh. -/
theorem test_modes_power :
    field (.modeRequest .ctx0 4) mode3 F.MODE_CUR_MODE = some 4 ∧ field (.modeRequest .ctx0 5) mode3 F.MODE_STAT_REASON = some 1 ∧
    field (.dieDormantRequest 1) base (F.MODE_DIE_STATE 1) = some 3 ∧ field (.dormantEntryDone 1) (base.set (F.MODE_DIE_STATE 1) 3) (F.MODE_DIE_STATE 1) = some 4 ∧
    field (.dieWakeRequest 1) (base.set (F.MODE_DIE_STATE 1) 4) (F.MODE_DIE_STATE 1) = some 5 ∧
    (after (.voutCommandDone 1) (chgP 0 true)).map (fun m => (m.pwrChg 1).map (fun x => x.phase)) = some (some 1) ∧
    (after (.voltageSettleExpiry 1) (atNs (chgP 1 true) 1000000)).map (fun m => (m.pwrChg 1).map (fun x => x.phase)) = some (some 2) ∧
    (after (.voutReadback 1 750) (chgP 2 true)).map (fun m => (m.pwrChg 1).map (fun x => x.phase)) = some (some 3) ∧
    field (.frequencySwitch 1) (chgP 3 true) (F.PWR_STAT_CUR 1) = some 5 ∧ field (.temperatureUpdate 1 1200) base (F.PWR_STAT_CAP 1) = some 3 ∧
    field (.temperatureUpdate 6 700) base (F.MEMCTL_STAT_REFX 6) = some 1 := by decide +kernel

theorem test_power_requests :
    field (.pwrReqWrite 1 3) base (F.PWR_REQ_LEVEL 1) = some 3 ∧ (after .standbyEntryDone base).map (fun m => m.mode) = some 4 ∧
    (after (.standbyWake .service) { (base.set F.MODE_STBY_SVCEN 1) with sys := { base.sys with back := some 3 } }).map (fun m => m.sys.wake) = some (some 1) := by decide +kernel

theorem witness_Resets :
    base.compute 1 = true ∧ base.dieLive 1 = true ∧ base.pop 1 = true ∧ (base.set (F.MODE_DIE_STATE 1) 6).dieState 1 = 6 ∧ (base.set (F.MODE_DIE_STATE 1) 6).linkState 1 0 0 1 ≠ 1 ∧
    ((base.set (F.MODE_DIE_STATE 1) 6).linkSet 1 0 0 1 2).linkState 1 0 0 1 = 2 ∧ 2 ≤ base.pathLevel .ctx0 ∧ base.mode = 4 ∧ base.dead 1 = false ∧
    ResetKind.warm.keeps 2 = true ∧ ResetKind.die.keeps 2 = false := by decide +kernel

theorem witness_Resets_registers : (base.regAt (F.MODE_CUR_MODE.key / 64 * 8)).isSome = true := by decide +kernel

/-- The power-on sequence with VFIELD in entry 0 of the OTP rail table. -/
def railing : Main := { base with sys := { base.sys with pow := 1 }, hw := { base.hw with otp := [(72, 2 ^ 19 + 6 * 2 ^ 15)] } }

theorem witness_rails : railing.railNext = some 0 ∧ { base with sys := { base.sys with pow := 1 } }.railNext = none ∧ base.outcast 1 = false := by decide +kernel

/-- R528: the rail of entry 0 is confirmed, and after it none is left. -/
theorem test_rail_up : (after (.powerOnReset .run) railing).map (fun m => (m.sys.pow, m.sys.rails, m.railNext)) = some (1, [0], none) := by decide +kernel

/-- R525 to R530: a tuft reset breaks the context with work there; a context reset frees its context; a die reset; a warm reset. -/
theorem test_resets :
    (after (.tuftReset 1 0) half).map (fun m => (m.tuft.ms.length, m.run 1)) = some (0, 3) ∧ (after (.contextReset 1) half).map (fun m => (m.tuft.ms.length, m.run 1)) = some (0, 0) ∧
    field .contextResetDone (base.set F.MODE_CTXRST_BUSY 1) F.MODE_CTXRST_BUSY = some 0 ∧ (after (.railConfirmTimeout 0) (atNs railing 10000000)).map (fun m => (m.sys.pow, m.get F.MODE_RSTCAUSE_RAILFAIL)) = some (2, 1) ∧
    (after .railRetry { base with sys := { base.sys with pow := 2 } }).map (fun m => m.sys.pow) = some 2 := by decide +kernel

theorem test_die_reset : field (.dieReset 1 false) base (F.MODE_DIE_STATE 1) = some 6 := by decide +kernel

theorem test_die_rejoin : field (.dieRejoin 1) ((base.set (F.MODE_DIE_STATE 1) 6).linkSet 1 0 0 1 2) (F.MODE_DIE_STATE 1) = some 1 := by decide +kernel

/-- R529, R36: a die whose other links still train does not rejoin yet; one whose uplink failed is isolated. -/
theorem test_die_rejoin_waits :
    field (.dieRejoin 1) (((base.set (F.MODE_DIE_STATE 1) 6).linkSet 1 0 0 1 2).linkSet 1 1 2 2 1) (F.MODE_DIE_STATE 1) = some 6 ∧
    field (.dieRejoin 1) ((base.set (F.MODE_DIE_STATE 1) 6).linkSet 1 0 0 1 4) (F.MODE_DIE_STATE 1) = some 2 := by decide +kernel

theorem test_pin_reset : (after (.pinReset .run) { base with sys := { base.sys with pow := 3 } }).map (fun m => m.sys.pow) = some 6 ∧
    (after (.powerOnReset .run) { base with sys := { base.sys with pow := 1 } }).map (fun m => m.sys.pow) = some 4 := by decide +kernel

/-! ### Boot and access (R544 to R557) -/

def boot1 : Main := Main.reset.set F.MODE_CUR_MODE 1
def booting (src : Nat) (staged : Option Nat) : Main :=
  { boot1 with sec := { boot1.sec with boot := some { src := src, slots := [0, 1], at_ := 0, staged := staged } }, dredges := [] }
def sessioned (level : Nat) : Main := ((base.set F.SEC_STAT_SESSION 1).set F.SEC_STAT_PATH 2).set F.SEC_STAT_LEVEL level

theorem witness_BootAndAccess :
    boot1.mode = 1 ∧ boot1.sec.boot = none ∧ bitsOf (boot1.otpWord 2) boot1.hw.bootStraps.toNat 1 = 0 ∧
    (booting 0 none).sec.boot = some { src := 0, slots := [0, 1], at_ := 0, staged := none } ∧ (booting 0 (some 100)).stagedImage 100 = none ∧
    base.pecBad .i2c .good = false ∧ base.flag F.SEC_STAT_LOCKOUT = false ∧ base.sessionElse 2 = false ∧ (sessioned 2).sessionElse 1 = true ∧
    (sessioned 2).flag F.SEC_STAT_SESSION = true ∧ (sessioned 2).get F.SEC_STAT_PATH = 2 ∧ base.get F.SEC_STAT_FAILS < 4 ∧ (base.set F.SEC_STAT_FAILS 4).get F.SEC_STAT_FAILS = 4 ∧
    base.sec.lockEnd = none ∧ base.sec.vfy = none ∧ base.sec.otp = none ∧ 2 ≤ base.pathLevel .ctx0 ∧ bitsOf (w64 (2 ^ 42)).toNat 42 1 = 1 ∧
    (sessioned 2).mayWrite .i2c .OTP_PROG (2 ^ 7 + 40) = true ∧ bitsOf (w64 (2 ^ 7 + 40)).toNat 7 1 = 1 ∧ bitsOf (w64 (2 ^ 7 + 40)).toNat 9 1 = 0 ∧ otpHidden 29 = true ∧ base.otpWord 29 = 0 ∧
    base.otpWord 40 ||| 5 = 5 := by decide +kernel

/-- R544, R551, R552, R556, R557: a boot source that OTP denies; a session; a lockout; programming. -/
theorem test_boot_access :
    (after (.unlockPw .i2c [1, 2] .good) base).map (fun m => m.get F.SEC_STAT_FAILS) = some 1 ∧
    (after (.unlockPw .i2c [1, 2] .good) (base.set F.SEC_STAT_FAILS 4)).map (fun m => m.get F.SEC_STAT_LOCKOUT) = some 1 ∧
    (after (.lock .i2c .good) (sessioned 2)).map (fun m => m.get F.SEC_STAT_SESSION) = some 0 ∧
    (after .sessionTimeout (atNs (sessioned 2) 900000000000)).map (fun m => m.get F.SEC_STAT_SESSION) = some 0 ∧
    (after .lockoutEnd { base.set F.SEC_STAT_LOCKOUT 1 with sec := { base.sec with lockEnd := some 0 } }).map (fun m => m.get F.SEC_STAT_LOCKOUT) = some 0 ∧
    (after (.graphVerifyStart .ctx0 (w64 (2 ^ 42))) base).map (fun m => m.sec.vfy.isSome) = some true ∧
    (after (.otpProgram .i2c (w64 (2 ^ 7 + 40))) ((sessioned 2).set F.OTP_PROGDATA_DATA 5)).map (fun m => m.sec.otp) = some (some (40, 5)) ∧
    (after (.otpProgramDone true) { base with sec := { base.sec with otp := some (40, 5) } }).map (fun m => m.otpWord 40) = some 5 ∧
    (after (.secStatus .i2c .good) base).map (fun m => m.comm.svc.head?) = some (some 0) ∧ (after (.setpw .i2c [1] .good) base).map (fun m => m.comm.svc.head?) = some (some 2) ∧
    (after (.response .i2c [] .good) (sessioned 2 |>.set F.SEC_STAT_PATH 1)).map (fun m => m.comm.svc.head?) = some (some 2) := by decide +kernel

theorem test_challenge : (match after (.challenge .i2c 2 .good) base with
    | some m => m.sec.nonce.isSome
    | none => false) = true ∧ (after (.challenge .i2c 1 .good) base).map (fun m => m.comm.svc) = some [2] := by decide +kernel

theorem test_boot :
    field (.bootStart 1 2) boot1 F.SEC_BOOT_FAIL = some 1 ∧ field .bootTimeout (atNs (booting 2 none) 60000000000) F.SEC_BOOT_FAIL = some 7 ∧
    (after (.bootImageReceived none) (booting 2 none)).map (fun m => m.sec.boot.map (fun b => b.staged.isSome)) = some (some true) ∧
    (after (.bootImageReadDone [1, 2, 3]) (booting 0 none)).map (fun m => m.sec.boot.map (fun b => b.staged)) = some (some (some 3)) ∧
    field .bootVerifyDone (booting 0 (some 100)) F.SEC_BOOT_SLOT = some 1 ∧ (after .graphVerifyDone base).isSome = true := by decide +kernel

/-! ### Standards: what the manual's checks rest on -/

theorem test_crc32 : crc32 [0x31, 0x32, 0x33, 0x34, 0x35, 0x36, 0x37, 0x38, 0x39] = 0xCBF43926 := by decide +kernel

/-! ### The island's invariants (R465, R466, R467) -/

theorem Safe_of {i : Island} (h : decide (i.chs.length = 16 ∧ i.ins.length = 32 ∧ i.brk.length = 8 ∧ i.gates < 2 ^ 17 ∧ i.st ≤ 3 ∧ i.st = 2 ∧
    (∀ d ∈ List.range 16, i.gate d = true → (i.ch d).sto = false) ∧
    (∀ d ∈ List.range 16, (i.ch d).sto = true → (i.ch d).ss1 = none ∧ (i.ch d).ss2 = none ∧ (i.ch d).sos = none) ∧
    (∀ k ∈ List.range 8, (i.brk.getD k (false, 0)).1 = false) ∧ i.hold = false ∧ i.pset.isSome = true) = true) : i.Safe := by
  have h2 := of_decide_eq_true h
  obtain ⟨h1, h2, h3, h4, h5, h6, h7, h8, h9, h10, h11⟩ := h2
  refine ⟨h1, h2, h3, h4, h5, ?_, ?_, ?_, ?_, ?_, ?_⟩
  · intro hn
    exact absurd h6 hn
  · intro d hd
    exact h7 d (List.mem_range.2 hd)
  · intro d hd
    exact h8 d (List.mem_range.2 hd)
  · intro k hk hb
    rw [h9 k (List.mem_range.2 hk)] at hb
    exact absurd hb (by simp)
  · intro hh
    rw [h10] at hh
    exact absurd hh (by simp)
  · refine ⟨fun _ => h11, fun h => ?_⟩
    omega

/-- An island in RUN with two channels released and their gates open is in a safe state. -/
theorem witness_IslandStaysSafe : ({ run2 false with gates := 3 } : Island).Safe := Safe_of (by decide +kernel)

theorem witness_IslandIsolated : exec .contextResetDone (st base) = .next { st base with main := base.set F.MODE_CTXRST_BUSY 0 } ∧
    (∀ h, Instr.contextResetDone ≠ .safetyCycle h) ∧ (∀ a b, Instr.contextResetDone ≠ .safeInputSample a b) ∧ (∀ k l h, Instr.contextResetDone ≠ .testPulse k l h) ∧
    (∀ p ∈ islandRequests, Instr.contextResetDone ≠ p.1) ∧ (∀ d, Instr.contextResetDone ≠ .ss1RampExpiry d) ∧ (∀ f, Instr.contextResetDone ≠ .islandFault f) ∧
    (∀ n a b, Instr.contextResetDone ≠ .safeCounterEdge n a b) := by
  refine ⟨rfl, fun _ => nofun, fun _ _ => nofun, fun _ _ _ => nofun, fun p hp h => ?_, fun _ => nofun, fun _ => nofun, fun _ _ _ => nofun⟩
  revert hp
  rw [show p = (Instr.contextResetDone, p.2) from by rw [h]]
  simp [islandRequests]

/-! ### Further witnesses: a clause of a statement, or the value where two of them meet -/

/-- Loop and call records at their limits: an iteration held or ended, no credit out, no exit left. -/
def recE : LoopRec := { recL with ended := true }
def recK : LoopRec := { recL with credits := 2 }
def recX : LoopRec := { recL with xdone := 1 }
def recCX : LoopRec := { recC with xdone := 1 }
def recsFull : Main := { base with tuft := { base.tuft with recs := List.replicate 4095 recL } }

theorem witness_LoopAndCallOps_order :
    ((withRec recE).executed (inRec .loopnext (i 1) (b 1))).HasRec (inRec .loopnext (i 1) (b 1)) false recE ∧
    ((withRec recK).executed (inRec .loopdone (i 1) (b 1))).HasRec (inRec .loopdone (i 1) (b 1)) false recK ∧
    ((withRec recX).executed (inRec .loopexit (i 1) (b 1))).HasRec (inRec .loopexit (i 1) (b 1)) false recX ∧
    ((withRec recCX).executed (inRec .return_ (i 1) (b 1))).HasRec (inRec .return_ (i 1) (b 1)) true recCX ∧
    (recE.ended = true ∧ recK.credits = recK.k ∧ recX.xdone = recX.xcnt ∧ recCX.xdone = recCX.xcnt ∧ executes (withRec recE) (inRec .loopnext (i 1) (b 1)) .loopnext = true ∧
    executes (withRec recK) (inRec .loopdone (i 1) (b 1)) .loopdone = true ∧ executes (withRec recX) (inRec .loopexit (i 1) (b 1)) .loopexit = true ∧
    executes (withRec recCX) (inRec .return_ (i 1) (b 1)) .return_ = true) :=
  ⟨HasRec_of (by decide +kernel), HasRec_of (by decide +kernel), HasRec_of (by decide +kernel), HasRec_of (by decide +kernel), by decide +kernel⟩

theorem witness_LoopAndCallOps_operands :
    recsFull.freeRec 1 0 = none ∧ executes base (fire .loopenter (i 3) (loopArg 0 0) (i 0)) .loopenter = true ∧ (ctl 2).isControl 1 = false ∧
    (i 32).value.toNat = 32 ∧ (ctl 1).isControl 2 = false ∧ (ctl 1).typ ≠ 0 ∧ (fire .link (i 0) (i (2 ^ 22)) (i 0)).right.value.extractLsb' 22 42 ≠ 0 ∧
    (fire .loopenter (i 3) (loopArg 0 0) (i 0)).right.value.extractLsb' 0 13 = 0 := by decide +kernel

theorem witness_LoopAndCallOps_badarg : ¬ loopArgsOk (fire .loopenter (i 3) (loopArg 0 0) (i 0)) := by
  unfold loopArgsOk
  decide +kernel

theorem witness_RoundsCorrectly_exact :
    b64.finite one = true ∧ b64.finite two = true ∧ b32.finite 0x3F800000 = true ∧ b64.signed one (-60) + b64.signed two (-60) ≠ 0 ∧ b64.isZero one = false ∧
    (b64.div 0 one three).tiny = false ∧ (b64.div 0 one three).flags = flagNX ∧ (-200 : Int) ≤ b64.exp one - b64.exp three ∧ (-200 : Int) ≤ b64.exp (b64.div 0 one three).bits ∧
    b64.signOf two = false ∧ 2 * (-200 : Int) ≤ b64.exp two ∧ (-200 : Int) ≤ b64.exp (b64.sqrt 0 two).bits ∧ (sgn 64 5 : Int) ≠ 0 ∧ b64.finite 0x7FF0000000000000 = false := by decide +kernel

def trapOf (e : Nat) : FpTrap := { handle := 5, die := 1, tuft := 0, ctx := 1, side := false, epoch := e }

theorem witness_FpEpochs_mask :
    (base.unitOf 1 false).closing = [] ∧ (trapOf 0).epoch = (base.unitOf 1 false).cur ∧ ((unitWith [closing 3 []]).unitOf 1 false).closing = [closing 3 []] ∧
    (closing 3 []).epoch = (trapOf 3).epoch ∧ (closing 0 [8]).waitFor ≠ [] := by decide +kernel

/-- Bank 0 of die 1 in a handover, with an access of a flume held before a request. -/
def heldBy (l : List HeldBy) : Main :=
  let m := asked (xs.set (F.BANK_OWN_DONE 1 0) 0) (memQ .load .load 0x9000000000)
  { m with mem := { m.mem with held := l.map (fun w => (64, w)) }, flumes := [{ die := 1, idx := 2, ret := (memF .load).ret, part := false, desc := none, handle := 0 }] }

theorem witness_MemoryResponses_held :
    bankOf 0x9000000000 = some 64 ∧ (heldBy []).draining 0x9000000000 = true ∧ xs.draining 0x9000000000 = false ∧
    (heldBy [.element 1 2]).heldFirst 0x9000000000 = some (.element 1 2) ∧ (HeldBy.element 1 2 ≠ .request (memQ .load .load 0x9000000000)) ∧
    (heldBy [.element 1 2]).heldAhead 0x9000000000 (.request (memQ .load .load 0x9000000000)) = true ∧ (heldBy []).heldAhead 0x9000000000 (.element 1 2) = false ∧
    (64, HeldBy.element 1 2) ∉ (heldBy []).mem.held ∧ (((heldBy [.element 1 2]).set (F.BANK_OWN_DONE 1 0) 1).gate (memQ .load .load 0x9000000000).id 0x9000000000 false) = .go := by decide +kernel

/-- A second miss of the tuft to the page that is being walked. -/
def walking2 : Main := { walking with req := { walking.req with walks := [memF .load, { memF .load with prio := 9 }] } }

theorem witness_TableWalks_joined :
    { memF .load with prio := 9 } ∈ walking2.joined (memF .load) (fun va => va / 2 ^ 16 == (memF .load).walkVa / 2 ^ 16) ∧
    (match pteKind 1 1 with | .error r => r ≠ 2 | _ => true) = true := by decide +kernel

theorem witness_PrivilegedOperations_user :
    executes base (fire .imwrite (i loc7) (i 1) (i 99)) .imwrite = true ∧ executes base (fire .imread (i loc7) (i 1) (i 99)) .imread = true ∧
    executes base (fire .tlbinv (i 1) (i 0x10000) (i 0)) .tlbinv = true ∧ privileged (fire .imwrite (i loc7) (i 1) (i 99)).ctx = false ∧ (i 1).value.toNat ≤ 3 ∧ (i 1).value.toNat < 256 ∧
    base.reaches 1 1 = true := by decide +kernel

/-- Runnel 5 of die 1 whose producer is a unit of the field die, and one with a consumer that is throttled. -/
def crossing (frees : List Nat) : Main :=
  { rb.set (F.RUNNEL_PROD_KIND 1 5) 1 with runnels := [{ die := 1, idx := 5, pkts := [], open_ := none, held := [], out := 0, frees := frees }] }

theorem witness_RunnelSendRecv_crossing :
    (crossing [7]).rnCrosses 1 5 = true ∧ rb.rnCrosses 1 5 = false ∧ ((crossing [7]).rn 1 5).frees = [7] ∧ (rb.rn 1 5).visible = false ∧
    ((withPkts [pk]).rn 1 5).visible = true ∧ ((pushed pk).set (F.CTXTAB_STATE_SOAK_FULL 1) 1).throttled 1 = true ∧ (rfNow .recv (i 0)).nowait = true ∧
    (let m : Main := { rb with runnels := [{ die := 1, idx := 5, pkts := [{ pk with words := [i 8] }], open_ := none, held := [rf .recv (i 0)], out := 0 }] }
     (m.rn 1 5).seen = 1 ∧ (m.rn 1 5).held.countP (fun h => h.op == some .recv) = 1 ∧ (m.rn 1 5).visible = true) := by decide +kernel

/-- Reference 2 derived from the virtual reference 3; an edge source whose port has lost a signal. -/
def derived : Main := ((((base.set (F.REF_SRC_KIND 2) 6).set (F.REF_SRC_SEL 2) 3).set (F.REF_SRC_EN 2) 1).set (F.REF_SRC_KIND 3) 8).set (F.REF_SRC_EN 3) 1

theorem witness_ReferenceSteps_derived :
    derived.tick.mode ≠ 10 ∧ derived.tick.refEn 2 = true ∧ derived.tick.refKind 2 = 6 ∧ derived.tick.refSel 2 = 3 ∧ derived.tick.refEn 3 = true ∧ derived.tick.refKind 3 ≠ 6 ∧
    (∀ k ∈ List.range 16, base.get (F.MOTOR_CFG_LOAD k) ≠ 3) ∧ base.runnels = [] ∧ base.surv.deaf = [] ∧ ((edge edgeSt).set (F.AXIS_STAT_LOS 0) 1).refLost 3 = true ∧
    (edge edgeSt).refLost 3 = false ∧ (base.set (F.REF_SRC_KIND 2) 1).refKind 2 = 1 := by decide +kernel

/-- A slot with one entry of each kind; a frame whose commit count of slot 0 has changed. -/
def placing4 (e : ChgEntry) : Main := slot0 2 [e]

theorem witness_Changeover_swaps :
    ((placing4 ⟨1, 5, 3⟩).chg 0).entries = [⟨1, 5, 3⟩] ∧ ((placing4 ⟨2, 65535, 3⟩).chg 0).entries = [⟨2, 65535, 3⟩] ∧ ((placing4 ⟨3, 0x400, 0x100⟩).chg 0).entries = [⟨3, 0x400, 0x100⟩] ∧
    ((placing4 ⟨4, 1, 2⟩).chg 0).entries = [⟨4, 1, 2⟩] ∧ (placing4 ⟨4, 1, 2⟩).run 1 = 1 ∧ (placing4 ⟨4, 1, 2⟩).ref.outs = [] ∧ chanOk 0x400 = true ∧
    ob.get (F.OUTSCHED_OWN_CTX 0x400) ≠ 0x102 % 256 ∧ base.mode ≠ 11 ∧ stampHolds (base.refRule 1) 0 (base.outWindow 0x400 1) none = true ∧
    stampHolds (base.refRule 1) 9 (base.outWindow 0x400 1) none = false ∧
    ({ base.ref.frame with counts := [1, 0, 0, 0] } : BusFrame).counts.getD 0 0 ≠ (base.bus 1 0).counts.getD 0 0 ∧
    ((base.putChg { k := 0, entries := [], bad := none, armedAt := 0, seen := false, moved := [256] }).chg 0).moved = [256] := by decide +kernel

theorem witness_SluiceOperations_levels :
    base.asleep = false ∧ 2 ≤ base.pathLevel .ctx0 ∧ base.pathLevel .host < 2 ∧ (base.set F.MODE_CUR_MODE 10).asleep = true ∧ sb.live (.sluice 36) = false := by decide +kernel

/-- The flume at work and another of a context that goes first. -/
def flTwo : Main :=
  let m := flAt (some flDesc)
  let m := m.set (F.CTXTAB_SCHED_BASE 2) 15
  { m with flumes := [flX (some flDesc), { flX (some flDesc) with idx := 3, ret := { flF.ret with ctx := 2 } }] }

theorem witness_Flumes_order :
    flTwo.eff 1 < flTwo.eff 2 ∧ (flTwo.flumes.map (fun y => y.ret.ctx.toNat)) = [1, 2] ∧ (∀ y ∈ (flAt (some flDesc)).flumes, ¬ (flAt (some flDesc)).eff 1 < (flAt (some flDesc)).eff y.ret.ctx.toNat) := by decide +kernel

/-- Context 1 at a limit of 10 ticks with nine quiet ones counted, and a token in its waiting store since the tick began. -/
def quiet9 : Main :=
  let m := (half.set (F.CTXTAB_SCHED_DLTMO 1) 10).set (F.CTXTAB_DLSTAT_QUIET 1) 9
  m.note { TickFlags.zero 1 with start := some (half.waitNow 1) }

/-- R243 to R245: the tenth quiet tick declares a deadlock. -/
theorem test_deadlock_declared : field .deadlockTick quiet9 (F.CTXTAB_DLSTAT_DECLARED 1) = some 1 ∧ field .deadlockTick quiet9 (F.CTXTAB_DLSTAT_COUNT 1) = some 1 ∧
    field .deadlockTick quiet9 (F.CTXTAB_DLSTAT_WAITSNAP 1) = some 1 ∧ field .deadlockTick quiet9 (F.CTXTAB_DLSTAT_QUIET 1) = some 0 := by decide +kernel

theorem witness_EffectOnceAndDeadlock_limit :
    quiet9.dltmo 1 = 10 ∧ satAdd 20 (quiet9.get (F.CTXTAB_DLSTAT_QUIET 1)) 1 = 10 ∧ (base.set (F.CTXTAB_SCHED_DLTMO 1) 1).dltmo 1 = 10 ∧
    base.get (F.CTXTAB_SCHED_DLACT 1) = 0 ∧ base.flag (F.CTXTAB_SCHED_DLHND 1) = false ∧ (base.set (F.CTXTAB_SCHED_DLHND 1) 1).flag (F.CTXTAB_SCHED_DLHND 1) = true ∧
    pb.flag (F.CTXTAB_HANDLER_EN 1) = true ∧ (cmpE.left == (i 1)) = false := by decide +kernel

theorem witness_Dredges_ends :
    (drX .copy).destr = false ∧ (drX .copy).dram = false ∧ ({ drX .copy with tries := 7 } : DredgeSt).tries + 1 = 8 ∧ (drX .copy).ending = none ∧ (drX (.elem 2)).phase = .elem 2 ∧
    ({ drX (.elem 2) with destr := true } : DredgeSt).destr = true ∧ ((drAt (drX .copy)).set (F.DREDGE_STAT_STATE 1) 2).get (F.DREDGE_STAT_STATE 1) = 2 ∧
    (drAt (drX .copy)).get (F.DREDGE_STAT_STATE 1) ≠ 2 := by decide +kernel

/-! The survey engine. -/

def wind0 : Wind := { cnt := 0, step := 0, since := 0, on := true, at_ := 0, short := false, moved := false }
/-- A WINDING pair of motor 0 that watches axis 0 with MOVLIM 1, in a step. -/
def winding (w : Wind) : Main := (surv 2 5 0 0 100).withWind (some w)

theorem witness_SurveyEngine_winding :
    (winding wind0).windPort = some (0, wind0, 100) ∧ (winding { wind0 with moved := true }).surv.wind = some { wind0 with moved := true } ∧
    ({ (winding wind0).surv with pair := 2 } : SurvSt).pair = 2 ∧ Nat.max 1 (bitsOf 100 22 10) < (((winding wind0).set (F.AXIS_CNT_CNT 0) 2).survWatch 100 - wind0.cnt).natAbs ∧
    ((winding wind0).survWatch 100 - wind0.cnt).natAbs ≤ Nat.max 1 (bitsOf 100 22 10) ∧ bitsOf 100 16 6 = 0 ∧ bitsOf 100 0 16 ≤ 100 ∧ 99 < bitsOf 100 0 16 ∧
    (winding wind0).now < wind0.since + 50000 ∧ ({ wind0 with step := 1 } : Wind).step = 1 ∧ ((winding wind0).motor 0).tripped = false ∧
    ({ base.motor 0 with tripped := true } : MotorSt).tripped = true := by decide +kernel

theorem witness_SurveyEngine_deaf :
    (0, 1) ∈ (surv 2 2 1 1 10).survPairs ∧ base.survPairs = [] ∧ deaf0.surv.deaf = [{ port := 0, rx := 0, till := none, level := false }] ∧
    base.ustOn (.iface 0x10) = false ∧ (live1 base [.iface 0x10]).ustOn (.iface 0x10) = false ∧ base.survLive = false ∧ base.gated (.gpio 0) = true ∧
    (base.set (F.GPIO_GATEMAP_GATED 0) 0).gated (.gpio 0) = false ∧ (0x7FFFFFFF : BitVec 32).toInt ≥ 250000 ∧ (0x80000000 : BitVec 32).toInt ≤ -250000 := by decide +kernel

theorem witness_SupplyWatch :
    ({ base with surv := { base.surv with rails := [{ r := 0, back := none }] } } : Main).surv.rails.find? (fun x => x.r == 0) = some { r := 0, back := none } ∧
    ({ base with surv := { base.surv with rails := [{ r := 0, back := some 0 }] } } : Main).surv.rails.find? (fun x => x.r == 0) = some { r := 0, back := some 0 } ∧
    0 + 1000000 ≤ (atNs base 1000000).now ∧ base.now < 0 + 1000000 := by decide +kernel

/-! The safety island. -/

/-- run2 with a parameter set of a word's value throughout, a test pulse running, a demand of this cycle, and words with an error. -/
def runP (w : Nat) : Island := { run2 false with pset := some (List.replicate 206 w) }
def pulse (n low high : Nat) : TpRun := { k := 0, n := n, low := low, high := high }
def setL (key : Nat) : SetLoad := { words := [], since := 0, key := key }
/-- Inputs of test-pulse output 0: mode 1, SRC 1 in bits 20 to 17. -/
def tpI (p : Option TpRun) : Island := { runP (1 + 2 ^ 17) with tp := p, t := 5000 }

theorem witness_IslandRequests_more :
    (0, 3) ∈ ({ run2 false with dem := [(0, 3)] } : Island).dem ∧ ({ run2 false with dem := [(0, 3)] } : Island).demanded 0x40 3 = true ∧ (run2 false).demanded 0x40 3 = false ∧
    reqKind 0x40 = 0 ∧ reqKind 0x43 = 1 ∧ reqKind 0x44 = 2 ∧ [Ecc.ok].contains .uncorrectable = false ∧ [Ecc.uncorrectable].contains .uncorrectable = true ∧
    pktWords [opnd tyEmpty 0] = [] ∧ (run2 false).slsVal 3 ((run2 false).ch 3).sls < (run2 false).slsVal 3 4 + 1 ∧
    (runC 5 { SafeCh.zero with sto := false, sls := 0 }).slsVal 3 0 < (runC 5 { SafeCh.zero with sto := false, sls := 0 }).slsVal 3 4 ∧ Island.zero.st ≠ 2 := by decide +kernel

theorem witness_IslandCycle_more :
    (tpI none).inMode 3 = 1 ∧ (tpI none).tp = none ∧ (tpI (some (pulse 0 0 0))).tpOf 3 0 = 0 + 1 ∧ (tpI (some (pulse 0 0 0))).tpOf 3 1 ≠ 0 + 1 ∧ bitsOf (pulse 0 0 0).high 6 1 = 0 ∧
    (tpI none).works = true ∧ (tpI none).st = 2 ∧ (tpI none).tpNext = 0 ∧ (tpI none).tpPer ≤ (tpI none).t - (tpI none).tpAt ∧ (tpI none).tpw = 0 ∧
    (0 < ({ runP (5 * 2 ^ 48) with t := 5 } : Island).tpw) ∧ (tpI (some (pulse 19 0 0))).tpw + 20 ≤ 19 + 1 ∧ 18 + 1 < (tpI (some (pulse 18 0 0))).tpw + 20 ∧
    4 + 6 = ({ runP (10 * 2 ^ 48) with t := 5 } : Island).tpw ∧ ({ run2 false with verify := [(setL 2, 9)] } : Island).verify = [(setL 2, 9)] ∧ (setL 2).key = 2 ∧
    (({ SafeCh.zero with hist := (5, 0) :: List.replicate 10 (1, 0) } : SafeCh).hist = (5, 0) :: List.replicate 10 (1, 0)) ∧ (List.replicate 10 ((1 : Int), (0 : Int))).length = 10 ∧
    (List.replicate 10 ((1 : Int), (0 : Int))).getLast? = some (1, 0) ∧ (runP 0).fba 3 = 0 ∧ (runP (2 ^ 4)).fba 3 = 1 ∧ (runP 0).fbMode 3 = 0 ∧ (runP (2 ^ 16)).fbMode 3 = 1 ∧
    (run2 false).rx.length = 64 ∧ (run2 false).rx.getD 0 (false, false) = (false, false) ∧ (run2 false).hbDue = false := by decide +kernel

theorem witness_IslandCycle_flush : ({ run2 false with outq := [[1]] } : Island).outq = [[1]] ∧ base.live (.runnel 0 4094) = false := by decide +kernel

theorem witness_ParameterSets_more :
    ({ run2 true with load := some (setL 0) } : Island).load = some (setL 0) ∧ ({ run2 true with verify := [(setL 2, 9), (setL 0, 10)] } : Island).verify = (setL 2, 9) :: [(setL 0, 10)] ∧
    (run2 true).judge (setL 2) ≠ 0 ∧ ({ Island.zero with st := 3, resetAt := [2, 1, 0] } : Island).resetAt = 2 :: 1 :: [0] := by decide +kernel

/-- The placed state with a die in another state; in a SOLE context. -/
def dieAs (st : Nat) (e : Nat) : Main := (placed e).set (F.MODE_DIE_STATE 1) st
def soleOf (e : Nat) : Main := (placed e).set (F.CTXTAB_STATE_SOLE 1) 1

theorem witness_TokenRouted_stops :
    (placed entry1).sole 1 = false ∧ (placed entry1).dead 1 = false ∧ (placed entry1).dieState 1 ≠ 2 ∧ 12 ≤ ({ tok 0x10 0 5 with typ := 12 } : Token).typ.toNat ∧
    plValid (base.entryAt 0 (field0 (tok 0x10 0 5))) = false ∧ plValid entry1 = true ∧ plPaired entry1 = false ∧
    (placed entry1).entryAt ((placed entry1).routerOf { tok 0x10 0 5 with side := true }) { tok 0x10 0 5 with side := true } = entry1 ∧
    plDie entry1 false = 1 ∧ (dieAs 2 entry1).dieState 1 = 2 ∧ (dieAs 4 entry1).dieState 1 = 4 ∧
    (dieAs 2 entry1).entryAt ((dieAs 2 entry1).routerOf (field0 (tok 0x10 0 5))) (field0 (tok 0x10 0 5)) = entry1 ∧
    (soleOf entry12).sole 1 = true ∧ (soleOf entry12).dead 1 = false ∧ (soleOf entry12).entryAt 0 (field0 (tok 0x10 0 5)) = entry12 ∧
    (soleOf entry12).dieState (plDie entry12 false) = 1 ∧ (placed entry1).staysIn { tok 0x10 0 5 with otuft := 1 } = false := by decide +kernel

/-- R44, R52, R53: BAD_TAG, NO_PLACEMENT, the drop of a SIDE 1 token, and SOLE. -/
theorem test_token_route_stops :
    (after (.tokenRoute { tok 0x10 0 5 with typ := 12 } ⟨.ok, [], []⟩) (placed entry1)).map (fun m => m.tok.arrived.length) = some 0 ∧
    field (.tokenRoute { tok 0x10 0 5 with side := true } ⟨.ok, [], []⟩) (placed entry1) (F.ROUTER_STATS_PAIRDROP 1) = some 1 ∧
    (after (.tokenRoute { field0 (tok 0x10 0 5) with side := true } ⟨.ok, [], []⟩) (soleOf entry12)).map (fun m => m.tok.arrived.map (fun a => (a.die.val, a.tok.side))) =
      some [(1, false)] := by decide +kernel

/-- A token for a port that ADD does not accept; an entry that cannot be corrected; a SELECT with one operand; a soakaway that may hold the key; the
probe of that key. -/
def sick : Main := { half with tuft := { half.tuft with ms := half.tuft.ms.map (fun e => { e with err := 2 }) } }
def half3 : Main := half.setSlot 1 0 0x10 .instr (wordOf .select)
def occupied : Main := { soaked with tuft := { soaked.tuft with ms := [] } }.occChange 8 1 true

theorem witness_TokenMatched_stops :
    (match half.fetch 1 0 (plSlot entry1 false) 0x10 with
     | .ok r w l c => r == Op.row .add && w == wordOf .add && l.isNone && c.isEmpty
     | _ => false) = true ∧ (3 : BitVec 2) ∉ portsOf (Op.row .add) (IWord.ofWord (wordOf .add)) ∧
    (tok 0x10 3 5).gated = false := by decide +kernel

theorem witness_TokenMatched_joins :
    AtTuft sick 1 0 (tok 0x10 1 7) (Op.row .add) (wordOf .add) none [] ∧ AtTuft half3 1 0 (tok 0x10 1 7) (Op.row .select) (wordOf .select) none [] ∧
    AtTuft occupied 1 0 (tok 0x10 1 7) (Op.row .add) (wordOf .add) none [] ∧ AtTuft (probing false) 1 0 (tok 0x10 0 7) (Op.row .add) (wordOf .add) none [] ∧
    (sick.servedBefore 1 0 (tok 0x10 1 7) = false ∧ (sick.tuft.ms.find? (fun x => x.hasKey 1 0 (tok 0x10 1 7))).map (fun e => e.err) = some 2 ∧
    sick.isFaultToken (tok 0x10 1 7) = false ∧ half3.tuft.ms.find? (fun x => x.hasKey 1 0 (tok 0x10 1 7)) = some (MsEntry.ofToken 1 0 (tok 0x10 0 5)) ∧
    ((MsEntry.ofToken 1 0 (tok 0x10 0 5)).join (tok 0x10 1 7)).at_ 3 = none ∧ (3 : BitVec 2) ∈ portsOf (Op.row .select) (IWord.ofWord (wordOf .select)) ∧
    occupied.tuft.ms = [] ∧ occupied.tuft.probes = [] ∧ ((occupied.unarrived 1 0 (tok 0x10 1 7)).occArrive 8 1).occCopy 8 1 ≠ 0 ∧
    (probing false).tuft.ms = [] ∧ (probing false).tuft.probes.length = 1 ∧ (probing false).servedBefore 1 0 (tok 0x10 0 7) = false ∧ occupied.servedBefore 1 0 (tok 0x10 1 7) = false ∧
    half3.servedBefore 1 0 (tok 0x10 1 7) = false) :=
  ⟨AtTuft_of (by decide +kernel), AtTuft_of (by decide +kernel), AtTuft_of (by decide +kernel), AtTuft_of (by decide +kernel), by decide +kernel⟩

/-- R63, R67: a probe starts; a second token of its key waits for it. -/
theorem test_token_match_probes :
    (after (.tokenMatch 1 0 (tok 0x10 1 7) {}) occupied).map (fun m => m.tuft.probes.length) = some 1 ∧
    (after (.tokenMatch 1 0 (tok 0x10 0 7) {}) (probing false)).map (fun m => m.tuft.probes.map (fun p => p.waiting.length)) = some [1] ∧
    (after (.tokenMatch 1 0 (tok 0x10 1 7) {}) half3).map (fun m => (m.tuft.ms.length, m.tok.ready.length)) = some (1, 0) ∧
    field (.tokenMatch 1 0 (tok 0x10 1 7) {}) sick (F.TUFT_MSERR_UE 1 0) = some 1 := by decide +kernel

/-- A bank that sleeps while a request for OFF waits at it. -/
def dozing : Main := ((chgB 2).set (F.BANK_PWR_STATE 1 0) 1).set (F.BANK_PWR_AUTOWAKE 1 0) 1

theorem witness_BanksAndControllers_wakes :
    dozing.get (F.BANK_PWR_STATE 1 0) = 1 ∧ dozing.flag (F.BANK_PWR_AUTOWAKE 1 0) = true ∧
    nmGet dozing.mem.change 64 0 = 2 ∧ nmGet base.mem.change 64 0 ≠ 2 := by decide +kernel

/-- R261, R264: an access from outside behind what a bank holds, and at a bank that it wakes. -/
theorem witness_HostAndService_held :
    (heldBy [.element 1 2]).heldAhead 0x9000000000 (.outside .ctx0) = true ∧ (heldBy []).heldAhead 0x9000000000 (.outside .ctx0) = false ∧
    ((heldBy [.element 1 2]).set (F.BANK_OWN_DONE 1 0) 1).gate { ctx := 256, die := 0, flume := none, external := true, debug := false } 0x9000000000 false = .go ∧
    dozing.gate { ctx := 256, die := 0, flume := none, external := true, debug := false } 0x9000000000 false = .wait ∧
    (heldBy []).memOpen .ctx0 0x9000000000 false = true ∧ isRegs 0x9000000000 = false := by decide +kernel

end Sys2Proof.Tests
end

section
/-! SUPPORT. The register file (R11): what a write of a field leaves to be read, in any register file. -/

namespace Sys2Proof.Machine

/-! ### Sparse maps -/

theorem nmGet_nmIns_same (l : List (Nat × Nat)) (k v d : Nat) : nmGet (nmIns l k v) k d = v := by
  induction l with
  | nil => simp [nmIns, nmGet]
  | cons p t ih =>
    simp only [nmIns]
    split
    · simp [nmGet]
    · split
      · simp [nmGet]
      · next hne => simpa [nmGet, hne] using ih

theorem nmGet_nmIns_other (l : List (Nat × Nat)) {j k : Nat} (v d : Nat) (h : j ≠ k) : nmGet (nmIns l k v) j d = nmGet l j d := by
  induction l with
  | nil => simp [nmIns, nmGet, h.symm]
  | cons p t ih =>
    simp only [nmIns]
    split
    · simp [nmGet, h.symm]
    · split
      · next hp => simp [nmGet, hp, h.symm]
      · simp only [nmGet, ih]

theorem nmGet_nmDel_same (l : List (Nat × Nat)) (k d : Nat) : nmGet (nmDel l k) k d = d := by
  induction l with
  | nil => rfl
  | cons p t ih =>
    by_cases hp : p.1 = k
    · simpa [nmDel, hp] using ih
    · simpa [nmDel, nmGet, hp] using ih

theorem nmGet_nmDel_other (l : List (Nat × Nat)) {j k : Nat} (d : Nat) (h : j ≠ k) : nmGet (nmDel l k) j d = nmGet l j d := by
  induction l with
  | nil => rfl
  | cons p t ih =>
    by_cases hp : p.1 = k
    · simpa [nmDel, nmGet, hp, h.symm] using ih
    · have ih' : nmGet (t.filter (fun e => e.1 != k)) j d = nmGet t j d := ih
      simp [nmDel, nmGet, hp, ih']

theorem nmGet_nmPut_same (l : List (Nat × Nat)) (k v d : Nat) : nmGet (nmPut l k v d) k d = v := by
  unfold nmPut
  split
  · next hv => rw [nmGet_nmDel_same, hv]
  · exact nmGet_nmIns_same l k v d

theorem nmGet_nmPut_other (l : List (Nat × Nat)) {j k : Nat} (v d e : Nat) (h : j ≠ k) : nmGet (nmPut l k v d) j e = nmGet l j e := by
  unfold nmPut
  split
  · exact nmGet_nmDel_other l e h
  · exact nmGet_nmIns_other l v e h

theorem mem_nmIns {l : List (Nat × Nat)} {k v : Nat} {p : Nat × Nat} (h : p ∈ nmIns l k v) : p = (k, v) ∨ p ∈ l := by
  induction l with
  | nil => exact .inl (by simpa [nmIns] using h)
  | cons q t ih =>
    simp only [nmIns] at h
    split at h
    · simpa using h
    · split at h
      · rcases List.mem_cons.1 h with h | h
        · exact .inl h
        · exact .inr (List.mem_cons_of_mem _ h)
      · rcases List.mem_cons.1 h with h | h
        · exact .inr (h ▸ List.mem_cons_self)
        · exact (ih h).imp_right (List.mem_cons_of_mem _)

theorem nmIns_rising {l : List (Nat × Nat)} (k v : Nat) (h : Rising l) : Rising (nmIns l k v) := by
  induction l with
  | nil => exact List.pairwise_singleton _ _
  | cons q t ih =>
    obtain ⟨hq, ht⟩ := List.pairwise_cons.1 h
    simp only [nmIns]
    split
    · next hlt =>
      refine List.pairwise_cons.2 ⟨fun e he => ?_, h⟩
      rcases List.mem_cons.1 he with rfl | he
      · exact hlt
      · exact Nat.lt_trans hlt (hq e he)
    · split
      · next heq => exact List.pairwise_cons.2 ⟨fun e he => heq ▸ hq e he, ht⟩
      · next hge hne =>
        refine List.pairwise_cons.2 ⟨fun e he => ?_, ih ht⟩
        rcases mem_nmIns he with rfl | he
        · exact Nat.lt_of_le_of_ne (Nat.le_of_not_lt hge) hne
        · exact hq e he

theorem nmPut_rising {l : List (Nat × Nat)} (k v d : Nat) (h : Rising l) : Rising (nmPut l k v d) := by
  unfold nmPut
  split
  · exact List.Pairwise.filter _ h
  · exact nmIns_rising k v h

/-! ### Fields -/

@[simp] theorem Main.get_set_same (m : Main) (f : Fld) (v : Nat) : (m.set f v).get f = v % 2 ^ f.w := nmGet_nmPut_same ..

/-- A field under another key keeps its value. -/
theorem Main.get_set_other (m : Main) {f g : Fld} (v : Nat) (h : g.key ≠ f.key) : (m.set f v).get g = m.get g :=
  nmGet_nmPut_other _ _ _ _ h

/-- Settles O3: a write stores the value under the key of its field alone, in its place in the order. -/
theorem fieldWrite : Obligations.FieldWrite := by
  unfold Obligations.FieldWrite
  exact ⟨Main.get_set_same, fun m f g v h => m.get_set_other v h, fun m f v h => nmPut_rising _ _ _ h⟩

end Sys2Proof.Machine
end

section
/-! SUPPORT. What an access from outside meets (R13, R256, R414, R551, R552): the session of its path, the register it names, and a register
command. -/

namespace Sys2Proof.Machine

/-! ### Commands of the main domains -/

/-- A command that acts on the main domains alone does what its action does, and nothing else. -/
theorem does_iff {c : Instr} {s : State} {m : Main} (g : Main → Main) (hc : exec c s = s.onMain g) : Does c s m ↔ g s.main = m := by
  rw [Does, hc, State.onMain, Host.Outcome.next.injEq, State.mk.injEq]
  simp

/-! ### A path's session (R551) -/

/-- An access moves the time of its session, and nothing else. -/
theorem Main.touch_eq (m : Main) (p : Path) : ∃ t, m.touch p = { m with sec := { m.sec with last := t } } := by
  unfold Main.touch
  split
  · exact ⟨_, rfl⟩
  · exact ⟨m.sec.last, rfl⟩

@[simp] theorem Main.touch_get (m : Main) (p : Path) (f : Fld) : (m.touch p).get f = m.get f := by
  obtain ⟨t, h⟩ := m.touch_eq p
  rw [h]
  rfl

@[simp] theorem Main.touch_tuft (m : Main) (p : Path) : (m.touch p).tuft = m.tuft := by
  obtain ⟨t, h⟩ := m.touch_eq p
  rw [h]

@[simp] theorem Main.touch_mode (m : Main) (p : Path) : (m.touch p).mode = m.mode := m.touch_get p _

@[simp] theorem Main.touch_asleep (m : Main) (p : Path) : (m.touch p).asleep = m.asleep := by
  obtain ⟨t, h⟩ := m.touch_eq p
  rw [h]
  rfl

@[simp] theorem Main.touch_pathLevel (m : Main) (p q : Path) : (m.touch p).pathLevel q = m.pathLevel q := by
  obtain ⟨t, h⟩ := m.touch_eq p
  rw [h]
  rfl

@[simp] theorem Main.touch_compute (m : Main) (p : Path) (d : Nat) : (m.touch p).compute d = m.compute d := by
  obtain ⟨t, h⟩ := m.touch_eq p
  rw [h]
  rfl

@[simp] theorem Main.touch_regsReach (m : Main) (p : Path) (pa : Nat) : (m.touch p).regsReach pa = m.regsReach pa := by
  obtain ⟨t, h⟩ := m.touch_eq p
  rw [h]
  rfl

/-- Contexts hold no session. -/
theorem Main.touch_ctx (m : Main) {p : Path} (h : p.isCtx = true) : m.touch p = m := by
  have hn : p.number = none := by simpa [Path.isCtx] using h
  simp [Main.touch, hn]

theorem Path.isCtx_iff (p : Path) : p.isCtx = true ↔ p = .ctx0 ∨ p = .ctx255 := by cases p <;> decide

theorem Path.isCtx_false {p : Path} (h0 : p ≠ .ctx0) (h255 : p ≠ .ctx255) : p.isCtx = false := by
  rw [Bool.eq_false_iff, Ne, p.isCtx_iff]
  exact not_or.2 ⟨h0, h255⟩

/-- R552: contexts 0 and 255 act at MAINTENANCE. -/
theorem Main.pathLevel_ctx (m : Main) {p : Path} (h : p.isCtx = true) : m.pathLevel p = 2 := by
  rcases p.isCtx_iff.1 h with rfl | rfl <;> rfl

theorem Path.servo_eq_isCtx (p : Path) : p.servo = p.isCtx := by cases p <;> rfl

/-! ### Register space (R13, R256, R414) -/

theorem isRegs_iff {pa : Nat} : isRegs pa = true ↔ ∃ die off, regionOf pa = .regs die off := by
  cases hr : regionOf pa <;> simp [isRegs, hr]

/-- A register stands in register space alone. -/
theorem Main.isRegs_of_regAt {m : Main} {pa : Nat} {a : RegAt} (h : m.regAt pa = some a) : isRegs pa = true := by
  cases hr : regionOf pa with
  | regs die off => exact isRegs_iff.2 ⟨die, off, hr⟩
  | _ => simp [Main.regAt, hr] at h

theorem Main.extAccess_regs (m : Main) (p : Path) {pa : Nat} (n : Nat) (w : Option Nat) (waits : Bool) (h : isRegs pa = true) :
    m.extAccess p pa n w waits = (m.touch p).extRegs p pa n w := by
  obtain ⟨die, off, hr⟩ := isRegs_iff.1 h
  simp only [Main.extAccess, hr]

theorem Main.extAccess_mem (m : Main) (p : Path) {pa : Nat} (n : Nat) (w : Option Nat) (waits : Bool) (h : isRegs pa = false) :
    m.extAccess p pa n w waits = (m.touch p).extMem p pa n w waits := by
  cases hr : regionOf pa with
  | regs die off => exact absurd (isRegs_iff.2 ⟨die, off, hr⟩) (Bool.eq_false_iff.1 h)
  | _ => simp only [Main.extAccess, hr]

theorem Main.extDo_asleep {m : Main} (p : Path) (pa n : Nat) (w : Option Nat) (waits : Bool) (h : m.asleep = true) : m.extDo p pa n w waits = m := by
  simp [Main.extDo, h]

theorem Main.extDo_done {m k : Main} {p : Path} {pa n st : Nat} {w : Option Nat} {waits : Bool} {data : List Nat} (h : m.asleep = false)
    (ha : m.extAccess p pa n w waits = .done st data k) : m.extDo p pa n w waits = (k.unhold (.outside p)).extAnswer p st data := by
  simp [Main.extDo, h, ha]

theorem Main.extDo_wait {m : Main} {p : Path} {pa n : Nat} {w : Option Nat} {waits : Bool} (h : m.asleep = false)
    (ha : m.extAccess p pa n w waits = .wait) : m.extDo p pa n w waits = m.waitAt pa (.outside p) := by
  simp [Main.extDo, h, ha]

theorem Main.onRegs_asleep {m : Main} (p : Path) (pa : Nat) (w : Option Nat) (h : m.asleep = true) : m.onRegs p pa w = m := by
  unfold Main.onRegs
  split
  · rfl
  · exact Main.extDo_asleep p pa 8 w false h

/-- An aligned read of a register that its path may read, on a die that works. -/
theorem Main.extRegs_read {m : Main} {p : Path} {pa : Nat} (h8 : pa % 8 = 0) (ho : m.regsOpen p pa none = true) (hr : m.regsReach pa = true) :
    m.extRegs p pa 8 none = .done 0 (leBytes 8 (m.spaceRead pa).1) (m.spaceRead pa).2 := by
  have hpa : pa / 8 * 8 = pa := Nat.div_mul_cancel (Nat.dvd_of_mod_eq_zero h8)
  simp [Main.extRegs, hpa, ho, h8, hr, stOk]

/-- An aligned write of a register that its path may write, on a die that works. -/
theorem Main.extRegs_write {m : Main} {p : Path} {pa v : Nat} (h8 : pa % 8 = 0) (ho : m.regsOpen p pa (some v) = true)
    (hr : m.regsReach pa = true) : m.extRegs p pa 8 (some v) = .done 0 [] (m.spaceWrite false p pa v) := by
  have hpa : pa / 8 * 8 = pa := Nat.div_mul_cancel (Nat.dvd_of_mod_eq_zero h8)
  simp [Main.extRegs, hpa, ho, h8, hr, stOk]

/-- An access to a register that its path may not make is denied, wherever it lies. -/
theorem Main.extRegs_denied {m : Main} {p : Path} {pa : Nat} (n : Nat) {w : Option Nat} (h8 : pa % 8 = 0) (ho : m.regsOpen p pa w = false) :
    m.extRegs p pa n w = .done 2 [] m := by
  have hpa : pa / 8 * 8 = pa := Nat.div_mul_cancel (Nat.dvd_of_mod_eq_zero h8)
  simp [Main.extRegs, hpa, ho, stDenied]

/-- An access of a path to a register that it may not access is answered NAK_DENIED. -/
theorem Main.onRegs_denied {m : Main} {p : Path} {pa : Nat} {w : Option Nat} (ha : m.asleep = false) (hi : isRegs pa = true) (h8 : pa % 8 = 0)
    (hp : p.isCtx = false) (ho : (m.touch p).regsOpen p pa w = false) :
    m.onRegs p pa w = ((m.touch p).unhold (.outside p)).extAnswer p 2 [] := by
  have hx : m.onRegs p pa w = m.extDo p pa 8 w false := by simp [Main.onRegs, hi, hp]
  rw [hx]
  exact Main.extDo_done ha ((m.extAccess_regs p 8 w false hi).trans (Main.extRegs_denied 8 h8 ho))

/-- A register access that its path may make and that reaches its die is made. -/
theorem Main.onRegs_reaches {m : Main} {p : Path} {pa : Nat} {w : Option Nat} (hi : isRegs pa = true) (hr : m.regsReach pa = true) :
    m.onRegs p pa w = m.extDo p pa 8 w false := by
  simp [Main.onRegs, hi, hr]

theorem Main.regsOpen_read {m : Main} {pa : Nat} {a : RegAt} (p : Path) (hat : m.regAt pa = some a) :
    m.regsOpen p pa none = m.mayRead p a.row.name := by
  simp [Main.regsOpen, hat]

theorem Main.onRegs_read {m : Main} {p : Path} {pa : Nat} {a : RegAt} (ha : m.asleep = false) (hat : (m.touch p).regAt pa = some a)
    (h8 : pa % 8 = 0) (hm : (m.touch p).mayRead p a.row.name = true) (hr : m.regsReach pa = true) :
    m.onRegs p pa none = (((m.touch p).regRead a pa).2.unhold (.outside p)).extAnswer p 0 (leBytes 8 ((m.touch p).regRead a pa).1) := by
  have hi := Main.isRegs_of_regAt hat
  have ho := (Main.regsOpen_read p hat).trans hm
  have hs : (m.touch p).spaceRead pa = (m.touch p).regRead a pa := by simp [Main.spaceRead, hat]
  rw [Main.onRegs_reaches hi hr, ← hs]
  exact Main.extDo_done ha ((m.extAccess_regs p 8 none false hi).trans (Main.extRegs_read h8 ho (by simpa using hr)))

/-- R421: the registers whose writes are open to contexts 0 and 255 alone. -/
theorem Main.regsOpen_write {m : Main} {pa : Nat} {a : RegAt} (p : Path) (v : Nat) (hat : m.regAt pa = some a) (h1 : a.row.name ≠ .TIME_RATE)
    (h2 : a.row.name ≠ .TIME_STEP) (h3 : a.row.name ≠ .TIME_STAT) : m.regsOpen p pa (some v) = m.mayWrite p a.row.name v := by
  simp [Main.regsOpen, hat, h1, h2, h3]

theorem Main.onRegs_write {m : Main} {p : Path} {pa v : Nat} {a : RegAt} (ha : m.asleep = false) (hat : (m.touch p).regAt pa = some a)
    (h8 : pa % 8 = 0) (ho : (m.touch p).regsOpen p pa (some v) = true) (hr : m.regsReach pa = true) :
    m.onRegs p pa (some v) = (((m.touch p).regWrite false p a pa v).unhold (.outside p)).extAnswer p 0 [] := by
  have hi := Main.isRegs_of_regAt hat
  have hs : (m.touch p).spaceWrite false p pa v = (m.touch p).regWrite false p a pa v := by simp [Main.spaceWrite, hat]
  rw [Main.onRegs_reaches hi hr, ← hs]
  exact Main.extDo_done ha ((m.extAccess_regs p 8 _ false hi).trans (Main.extRegs_write h8 ho (by simpa using hr)))

/-! ### Bits of a field (R13) -/

theorem testBit_bitsOf (x lo w i : Nat) : (bitsOf x lo w).testBit i = (decide (i < w) && x.testBit (lo + i)) := by
  simp [bitsOf, Nat.testBit_mod_two_pow, Nat.testBit_div_two_pow, Nat.add_comm]

theorem bitsOf_one (x i : Nat) : bitsOf x i 1 = (x.testBit i).toNat := by
  rw [bitsOf, Nat.pow_one, Nat.testBit_eq_decide_div_mod_eq]
  rcases Nat.mod_two_eq_zero_or_one (x / 2 ^ i) with h | h <;> simp [h]

theorem testBit_bitsLess {i : Nat} (x y : Nat) (h : i < 64) : (bitsLess x y).testBit i = (x.testBit i && !y.testBit i) := by
  rw [bitsLess, BitVec.testBit_toNat, BitVec.getLsbD_and, BitVec.getLsbD_not, BitVec.getLsbD_ofNat, BitVec.getLsbD_ofNat]
  simp [h]

/-- R13: each 1 written to a W1C field clears its bit, and the others stay. -/
theorem Main.get_plainField_w1c (m : Main) (f : Fld) (v i : Nat) (hw : f.w ≤ 64) (hi : i < f.w) :
    bitsOf ((m.plainField f .w1c v).get f) i 1 = if bitsOf v (f.lo + i) 1 = 1 then 0 else bitsOf (m.get f) i 1 := by
  have hbit : ((m.plainField f .w1c v).get f).testBit i = ((m.get f).testBit i && !v.testBit (f.lo + i)) := by
    simp only [Main.plainField, Main.get_set_same, Nat.testBit_mod_two_pow, testBit_bitsLess _ _ (Nat.lt_of_lt_of_le hi hw), testBit_bitsOf,
      hi, decide_true, Bool.true_and]
  rw [bitsOf_one, bitsOf_one, bitsOf_one, hbit]
  cases v.testBit (f.lo + i) <;> simp

/-! ### Commands that are register writes (R552) -/

theorem Main.regCmd_made {m : Main} {p : Path} {n : RegName} {v : Nat} (act : Main → Main) (ha : m.asleep = false)
    (hm : (m.touch p).mayWrite p n v = true) : m.regCmd p n v act = (act (m.touch p)).extAnswer p 0 [] := by
  simp [Main.regCmd, ha, hm, stOk]

theorem Main.regCmd_denied {m : Main} {p : Path} {n : RegName} {v : Nat} (act : Main → Main) (ha : m.asleep = false)
    (hm : (m.touch p).mayWrite p n v = false) : m.regCmd p n v act = (m.touch p).extAnswer p 2 [] := by
  simp [Main.regCmd, ha, hm, stDenied]

/-- R552: the host writes its doorbells at every level. -/
theorem Main.mayWrite_doorbell (m : Main) (v : Nat) : m.mayWrite .host .PCIE_DOORBELL v = true := by
  simp [Main.mayWrite, RegName.hostOwn]

/-- R552: MSI-X is open to the host at every level, and to the others at MAINTENANCE. -/
theorem Main.mayWrite_msix (m : Main) (p : Path) (v : Nat) : m.mayWrite p .PCIE_MSIX v = decide (2 ≤ m.pathLevel p ∨ p = .host) := by
  simp [Main.mayWrite, RegName.hostOwn, RegName.serviceWrite, Bool.decide_or, Bool.beq_eq_decide_eq]

end Sys2Proof.Machine
end

section
/-! SUPPORT. The paths from outside beyond register space (R4, R256, R261, R414, R426, R430, R431, R552): memory, the host's windows, the debug
port and service commands. -/

namespace Sys2Proof.Machine

/-! ### Memory from outside (R4, R256, R261, R414) -/

/-- The identity of an access from outside, with what its level opens (R552). -/
def Main.outsideId (m : Main) (p : Path) : AccId := { ctx := 256, die := 0, flume := none, external := true, debug := decide (3 ≤ m.pathLevel p) }

/-- An access that waits, for its bank or behind what its bank has held, is not performed: it joins those that wait there. -/
theorem Main.extDo_mem_waits {m : Main} {p : Path} {pa n : Nat} {waits : Bool} (ha : m.asleep = false) (hi : isRegs pa = false)
    (ho : (m.touch p).memOpen p pa false = true) (hal : aligned pa n (aliasOf pa) = true)
    (hw : (m.touch p).gate ((m.touch p).outsideId p) pa false = .wait ∨
      ((m.touch p).gate ((m.touch p).outsideId p) pa false = .go ∧ (m.touch p).heldAhead pa (.outside p) = true)) :
    m.extDo p pa n none waits = m.waitAt pa (.outside p) := by
  refine Main.extDo_wait ha ((m.extAccess_mem p n none waits hi).trans ?_)
  unfold Main.outsideId at hw
  rcases hw with hg | ⟨hg, hh⟩
  · simp only [Main.extMem, Option.isSome_none, ho, hal, hg, Bool.not_true, Bool.false_eq_true, if_false]
  · simp only [Main.extMem, Option.isSome_none, ho, hal, hg, hh, Bool.not_true, Bool.false_eq_true, if_false, if_true]

/-- A read of memory that nothing holds up is answered with the bytes read. -/
theorem Main.extDo_mem_read {m k : Main} {p : Path} {pa n x : Nat} {waits : Bool} (ha : m.asleep = false) (hi : isRegs pa = false)
    (ho : (m.touch p).memOpen p pa false = true) (hal : aligned pa n (aliasOf pa) = true)
    (hg : (m.touch p).gate ((m.touch p).outsideId p) pa false = .go) (hh : (m.touch p).heldAhead pa (.outside p) = false)
    (hn : (m.touch p).extOwned pa false = false)
    (hl : ((m.touch p).portWait pa waits).loadPhys ((m.touch p).outsideId p) pa n = (.ok x, k)) :
    m.extDo p pa n none waits = (k.unhold (.outside p)).extAnswer p 0 (leBytes n x) := by
  refine Main.extDo_done ha ((m.extAccess_mem p n none waits hi).trans ?_)
  unfold Main.outsideId at hg hl
  simp only [Main.extMem, Option.isSome_none, ho, hal, hg, hh, hn, hl, Bool.not_true, Bool.false_eq_true, if_false, stOk]

/-- A read of a bank that another owns is answered NAK_OWNER, and counted. -/
theorem Main.extDo_mem_owned {m : Main} {p : Path} {pa n : Nat} {waits : Bool} (ha : m.asleep = false) (hi : isRegs pa = false)
    (ho : (m.touch p).memOpen p pa false = true) (hal : aligned pa n (aliasOf pa) = true)
    (hg : (m.touch p).gate ((m.touch p).outsideId p) pa false = .go) (hh : (m.touch p).heldAhead pa (.outside p) = false)
    (hn : (m.touch p).extOwned pa false = true) :
    m.extDo p pa n none waits = (((m.touch p).countGate ((m.touch p).outsideId p) pa 0x44).unhold (.outside p)).extAnswer p 4 [] := by
  refine Main.extDo_done ha ((m.extAccess_mem p n none waits hi).trans ?_)
  unfold Main.outsideId at hg ⊢
  simp only [Main.extMem, Option.isSome_none, ho, hal, hg, hh, hn, Bool.not_true, Bool.false_eq_true, if_false, if_true, stOwner]

/-- An access to memory that its level does not open is denied. -/
theorem Main.extDo_mem_denied {m : Main} {p : Path} {pa : Nat} (n : Nat) {w : Option Nat} (waits : Bool) (ha : m.asleep = false)
    (hi : isRegs pa = false) (ho : (m.touch p).memOpen p pa w.isSome = false) :
    m.extDo p pa n w waits = ((m.touch p).unhold (.outside p)).extAnswer p 2 [] := by
  refine Main.extDo_done ha ((m.extAccess_mem p n w waits hi).trans ?_)
  simp only [Main.extMem, ho, Bool.not_false, if_true, stDenied]

/-! ### The windows of the host and the service paths (R426) -/

theorem Main.hostAccess_path (m : Main) {p : Path} (pa : BitVec 40) (w : Fin 4) (wr : Option Nat) (waits : Bool) (h : p.isCtx = false) :
    m.hostAccess (.path p pa) w wr waits = m.extDo p pa.toNat (2 ^ w.val) wr waits := by
  simp only [Main.hostAccess, h, Bool.false_eq_true, if_false, accBytes]

theorem Main.hostAccess_path_asleep {m : Main} (p : Path) (pa : BitVec 40) (w : Fin 4) (wr : Option Nat) (waits : Bool) (h : m.asleep = true) :
    m.hostAccess (.path p pa) w wr waits = m := by
  simp only [Main.hostAccess, Main.extDo_asleep _ _ _ _ _ h, ite_self]

theorem Main.hostAccess_window_disabled {m : Main} {off : BitVec 30} (w : Fin 4) (wr : Option Nat) (waits : Bool)
    (h : m.flag (F.PCIE_WIN_EN (off.toNat / 2 ^ 27)) = false) : m.hostAccess (.bar2 off) w wr waits = m.extAnswer .host 1 [] := by
  simp only [Main.hostAccess, Main.winPa, h, Bool.false_eq_true, if_false, stOff]

theorem Main.hostAccess_window {m : Main} {off : BitVec 30} (w : Fin 4) (wr : Option Nat) (waits : Bool)
    (h : m.flag (F.PCIE_WIN_EN (off.toNat / 2 ^ 27)) = true) : m.hostAccess (.bar2 off) w wr waits =
      m.extDo .host (m.get (F.PCIE_WIN_BASE (off.toNat / 2 ^ 27)) * 2 ^ 27 + off.toNat % 2 ^ 27) (2 ^ w.val) wr waits := by
  simp only [Main.hostAccess, Main.winPa, h, if_true, accBytes]

/-! ### The debug port (R552) -/

/-- At DEBUG level a tuft of a compute die in mode DEBUG is halted, or resumed. -/
theorem Main.haltWrite_debug {m : Main} {d : Nat} (t : Nat) (halt : Bool) (hl : 3 ≤ m.pathLevel .debug) (hm : m.mode = 9)
    (hd : m.compute d = true) :
    m.haltWrite d t halt = { m.touch .debug with tuft := { (m.touch .debug).tuft with
      halted := if halt then m.tuft.halted.filter (fun x => x != 8 * d + t) ++ [8 * d + t] else m.tuft.halted.filter (fun x => x != 8 * d + t) } } := by
  simp [Main.haltWrite, Nat.not_lt.2 hl, hm, hd]

theorem Main.haltWrite_denied {m : Main} (d t : Nat) (halt : Bool) (hl : m.pathLevel .debug < 3) :
    m.haltWrite d t halt = (m.touch .debug).extAnswer .debug 2 [] := by
  simp [Main.haltWrite, hl, stDenied]

/-- Outside STANDBY, and once a wake has begun, a command acts. -/
theorem Main.unlessStandby_awake {m : Main} (act : Main → Main) (h : m.asleep = false) : m.unlessStandby act = act m := by
  have hn : ¬ (m.mode = 10 ∧ m.sys.waking = false) := by simpa [Main.asleep] using h
  exact if_neg hn

theorem Main.debugImem_denied {m : Main} (slot kind : Nat) (w : Option Nat) (ha : m.asleep = false) (hl : m.pathLevel .debug < 3) :
    m.debugImem slot kind w = (m.touch .debug).extAnswer .debug 2 [] := by
  simp [Main.debugImem, ha, hl, stDenied]

/-- A read of an instruction slot of a die that works answers its content and its kind. -/
theorem Main.debugImem_read {m : Main} {slot d t i : Nat} (kind : Nat) (ha : m.asleep = false) (hl : 3 ≤ m.pathLevel .debug)
    (hs : locator slot = some (d, t, i)) (hc : m.compute d = true) (hv : (m.touch .debug).dieLive d = true) :
    m.debugImem slot kind none = (m.touch .debug).extAnswer .debug 0
      (leBytes 8 ((m.touch .debug).slot (fin8 d) (fin8 t) i).2.toNat ++ [((m.touch .debug).slot (fin8 d) (fin8 t) i).1.code]) := by
  simp [Main.debugImem, ha, Nat.not_lt.2 hl, hs, hc, hv, stOk]

/-- A write of an instruction slot of a die that works stores it. -/
theorem Main.debugImem_write {m : Main} {slot d t i : Nat} (kind v : Nat) (ha : m.asleep = false) (hl : 3 ≤ m.pathLevel .debug)
    (hs : locator slot = some (d, t, i)) (hc : m.compute d = true) (hv : (m.touch .debug).dieLive d = true) :
    m.debugImem slot kind (some v) = ((m.touch .debug).setSlot (fin8 d) (fin8 t) i (slotKindOf kind) (w64 v)).extAnswer .debug 0 [] := by
  simp [Main.debugImem, ha, Nat.not_lt.2 hl, hs, hc, hv, stOk]

/-! ### Service commands (R430) -/

/-- The paths that carry service commands. -/
def Path.isService (p : Path) : Prop := p = .i2c ∨ p = .usb ∨ p = .debug

theorem Path.isService.notHost {p : Path} (h : p.isService) : (p == .host) = false := by rcases h with rfl | rfl | rfl <;> rfl

theorem Path.isService.notCtx {p : Path} (h : p.isService) : p.isCtx = false := by rcases h with rfl | rfl | rfl <;> rfl

theorem Main.svcAccess_asleep {m : Main} (p : Path) (code pa : Nat) (w : Option Nat) (pec : Pec) (waits : Bool) (h : m.asleep = true) :
    m.svcAccess p code pa w pec waits = m := by
  simp [Main.svcAccess, h]

theorem Main.svcAccess_badPec {m : Main} {p : Path} {pec : Pec} (code pa : Nat) (w : Option Nat) (waits : Bool) (hp : p.isService)
    (ha : m.asleep = false) (hb : m.pecBad p pec = true) : m.svcAccess p code pa w pec waits = m.secAnswer p code 6 [] := by
  simp [Main.svcAccess, hp.notHost, hp.notCtx, ha, hb, stPec]

theorem Main.svcAccess_done {m k : Main} {p : Path} {pec : Pec} {pa st : Nat} {w : Option Nat} {waits : Bool} {data : List Nat} (code : Nat)
    (hp : p.isService) (ha : m.asleep = false) (hb : m.pecBad p pec = false) (hx : m.extAccess p pa 8 w waits = .done st data k) :
    m.svcAccess p code pa w pec waits = (k.unhold (.outside p)).secAnswer p code st data := by
  simp [Main.svcAccess, hp.notHost, hp.notCtx, ha, hb, hx]

theorem Main.svcAccess_wait {m : Main} {p : Path} {pec : Pec} {pa : Nat} {w : Option Nat} {waits : Bool} (code : Nat)
    (hp : p.isService) (ha : m.asleep = false) (hb : m.pecBad p pec = false) (hx : m.extAccess p pa 8 w waits = .wait) :
    m.svcAccess p code pa w pec waits = m.waitAt pa (.outside p) := by
  simp [Main.svcAccess, hp.notHost, hp.notCtx, ha, hb, hx]

theorem Main.svcMode_asleep {m : Main} (p : Path) (pec : Pec) (h : m.asleep = true) : m.svcMode p pec = m := by
  simp [Main.svcMode, h]

theorem Main.svcMode_badPec {m : Main} {p : Path} {pec : Pec} (hp : p.isService) (ha : m.asleep = false) (hb : m.pecBad p pec = true) :
    m.svcMode p pec = m.secAnswer p 0x12 6 [] := by
  simp [Main.svcMode, hp.notHost, hp.notCtx, ha, hb, stPec]

theorem Main.svcMode_answers {m : Main} {p : Path} {pec : Pec} (hp : p.isService) (ha : m.asleep = false) (hb : m.pecBad p pec = false) :
    m.svcMode p pec = (m.touch p).secAnswer p 0x12 0 m.modeBytes := by
  simp [Main.svcMode, hp.notHost, hp.notCtx, ha, hb, stOk]

/-- R430: the I2C target alone asks for a PEC. -/
theorem Main.pecBad_i2c (m : Main) (pec : Pec) : m.pecBad .i2c pec = true ↔ pec = .bad ∨ (pec = .none ∧ m.flag F.SVC_CFG_PECREQ = true) := by
  simp [Main.pecBad]

/-- R431: the address of the target wakes the device from STANDBY, or on its way there. -/
theorem Main.svcWake_enabled {m : Main} (he : m.flag F.MODE_STBY_SVCEN = true) (hb : m.sys.back.isSome = true) (hw : m.sys.waking = false) :
    m.svcWake = Main.standbyWake { m.set F.SVC_STAT_WOKE 1 with comm := { m.comm with svcAck := !m.flag F.SVC_CFG_WAKENAK } } 1 := by
  simp [Main.svcWake, Main.wakeOn, he, hw, Option.isSome_iff_ne_none.1 hb]

theorem Main.svcWake_outside {m : Main} (hb : m.sys.back = none) : m.svcWake = m := by
  simp [Main.svcWake, hb]

end Sys2Proof.Machine
end

section
/-! SUPPORT. A unit's side of its runnels and the host's two rings (R322, R323, R412, R427). -/

namespace Sys2Proof.Machine

/-! ### What a unit's side of its runnels leaves alone (R322, R323, R412) -/

theorem Main.watermark_eq (m : Main) (d i old new : Nat) : ∃ t, m.watermark d i old new = { m with tok := t } := by
  unfold Main.watermark
  dsimp only
  split <;> split <;> exact ⟨_, rfl⟩

theorem Main.putRn_eq (m : Main) (r : Runnel) : ∃ l t, m.putRn r = { m with runnels := l, tok := t } := by
  obtain ⟨t, h⟩ := (m.storeRn r).watermark_eq r.die r.idx (m.rnShown (m.rn r.die r.idx)) (m.rnShown r)
  exact ⟨_, t, h⟩

/-- A commit that crosses changes the records of the runnels alone, and what their watermarks capture. -/
theorem Main.rnSeeCommits_eq (m : Main) (d i lag : Nat) : ∃ l t, m.rnSeeCommits d i lag = { m with runnels := l, tok := t } := by
  unfold Main.rnSeeCommits
  dsimp only
  split
  · exact ⟨m.runnels, m.tok, rfl⟩
  · exact m.putRn_eq _

/-- What a unit sees of its TX runnels changes their records alone. -/
theorem Main.unitSees_eq (m : Main) (u : Nat) (lags : List Nat) : ∃ l t, m.unitSees u lags = { m with runnels := l, tok := t } := by
  unfold Main.unitSees
  generalize List.range 8 = ks
  induction ks generalizing m with
  | nil => exact ⟨m.runnels, m.tok, rfl⟩
  | cons k ks ih =>
    rw [List.foldl_cons]
    split
    · next i _ =>
      obtain ⟨l, t, h⟩ := m.rnSeeCommits_eq 0 i (lags.getD k 0)
      obtain ⟨l', t', h'⟩ := ih (m.rnSeeCommits 0 i (lags.getD k 0))
      exact ⟨l', t', by rw [h', h]⟩
    · exact ih m

@[simp] theorem Main.unitSees_get (m : Main) (u : Nat) (lags : List Nat) (f : Fld) : (m.unitSees u lags).get f = m.get f := by
  obtain ⟨l, t, h⟩ := m.unitSees_eq u lags
  rw [h]
  rfl

@[simp] theorem Main.unitSees_comm (m : Main) (u : Nat) (lags : List Nat) : (m.unitSees u lags).comm = m.comm := by
  obtain ⟨l, t, h⟩ := m.unitSees_eq u lags
  rw [h]

@[simp] theorem Main.unitSees_flag (m : Main) (u : Nat) (lags : List Nat) (f : Fld) : (m.unitSees u lags).flag f = m.flag f := by
  simp [Main.flag]

@[simp] theorem Main.unitSees_stor (m : Main) (u : Nat) (lags : List Nat) (v : Nat) : (m.unitSees u lags).stor v = m.stor v := by
  simp [Main.stor]

@[simp] theorem Main.unitSees_unitTxRn (m : Main) (u : Nat) (lags : List Nat) (v k : Nat) : (m.unitSees u lags).unitTxRn v k = m.unitTxRn v k := by
  obtain ⟨l, t, h⟩ := m.unitSees_eq u lags
  rw [h]
  rfl

theorem Main.rnTakePkt_eq {m k : Main} {d i : Nat} {ws : List Nat} (h : m.rnTakePkt d i = some (ws, k)) :
    ∃ l t, k = { m with runnels := l, tok := t } := by
  unfold Main.rnTakePkt at h
  dsimp only at h
  split at h
  · cases h
  · next p ps _ =>
    obtain ⟨l, t, hk⟩ := m.putRn_eq { m.rnFrees (m.rn d i) (p.words.length - p.got) with pkts := headSince m.now ps }
    injection h with h
    injection h with _ h
    exact ⟨l, t, h ▸ hk⟩

@[simp] theorem Main.unitDrop_get (m : Main) (i : Nat) (f : Fld) : (m.unitDrop i).get f = m.get f := by
  unfold Main.unitDrop
  split
  · next p heq =>
    obtain ⟨l, t, hk⟩ := Main.rnTakePkt_eq heq
    rw [hk]
    rfl
  · rfl

/-- R311: corrected reads are counted in one field of their die. -/
theorem Main.rnCes_get_other (m : Main) (d : Nat) (eccs : List Ecc) {f : Fld} (h : f.key ≠ (F.RUNNEL_ENG_CE d).key) :
    (m.rnCes d eccs).get f = m.get f := by
  unfold Main.rnCes
  generalize eccs.takeWhile (fun e => e != .uncorrectable) = es
  induction es generalizing m with
  | nil => rfl
  | cons e es ih =>
    rw [List.foldl_cons, ih]
    unfold Main.rnCe
    split
    · exact m.get_set_other _ h
    · rfl

/-- A packet that a unit takes leaves every field but the count of corrected reads. -/
theorem Main.unitTake_get_other (m : Main) (i : Nat) (eccs : List Ecc) {f : Fld} (h : f.key ≠ (F.RUNNEL_ENG_CE 0).key) :
    (m.unitTake i eccs).get f = m.get f := by
  rw [Main.unitTake, Main.rnCes_get_other _ _ _ h, Main.unitDrop_get]

/-! ### The rings of the host (R427) -/

theorem Main.htdEntry_idle {m : Main} {c : Nat} {e : RingEnt} (io : RnIo)
    (h : m.get (F.PCIE_CH_HTDCTL_HEAD c) % ringSize (m.get (F.PCIE_CH_HTDCTL_LOGSIZE c)) =
      m.get (F.PCIE_CH_HTDCTL_TAIL c) % ringSize (m.get (F.PCIE_CH_HTDCTL_LOGSIZE c)) ∨ e.dev = false) : m.htdEntry c e io = m := by
  unfold Main.htdEntry
  dsimp only
  refine if_pos ?_
  rcases h with h | h <;> simp [h]

/-- R427: the entry at HEAD is given back, and HEAD goes on. -/
def Main.htdDone (s m : Main) (c : Nat) (e : RingEnt) (err : Bool) : Main :=
  let size := ringSize (s.get (F.PCIE_CH_HTDCTL_LOGSIZE c))
  let head := s.get (F.PCIE_CH_HTDCTL_HEAD c) % size
  (m.set (F.PCIE_CH_HTDCTL_HEAD c) ((head + 1) % size)).ringDone (m.get (F.PCIE_CH_HTD_RING c) + 16 * head) { e with dev := false, err := err }
    (s.flag (F.PCIE_CH_HTDCTL_IRQ c)) c

/-- R412, R427: the words that an entry of the host commits. -/
def RingEnt.packet (e : RingEnt) : List Opnd := if e.words.toNat = 0 then [emptyPkt] else (e.data.take e.words.toNat).map (fun w => opnd tyInt w.toNat)

section
variable {m : Main} {c : Nat} {e : RingEnt}
variable (hlive : m.live (.iface (0x30 + c)) = true)
variable (hhead : m.get (F.PCIE_CH_HTDCTL_HEAD c) % ringSize (m.get (F.PCIE_CH_HTDCTL_LOGSIZE c)) ≠
  m.get (F.PCIE_CH_HTDCTL_TAIL c) % ringSize (m.get (F.PCIE_CH_HTDCTL_LOGSIZE c)))
variable (hdev : e.dev = true)
include hlive hhead hdev

/-- An entry whose buffer is shorter than its words is given back with ERR. -/
theorem Main.htdEntry_short (io : RnIo) (hlen : e.len.toNat < e.words.toNat * 8) : m.htdEntry c e io = m.htdDone m c e true := by
  simp [Main.htdEntry, hlive, hhead, hdev, hlen, Main.htdDone]

/-- An entry whose packet finds no room stays. -/
theorem Main.htdEntry_noRoom {io : RnIo} {i : Nat} (hlen : e.words.toNat * 8 ≤ e.len.toNat) (hi : m.unitRx (0x30 + c) = some i)
    (hr : (m.rnUnitCommit i e.packet io).1 = false) : m.htdEntry c e io = (m.rnUnitCommit i e.packet io).2 := by
  unfold RingEnt.packet at hr ⊢
  simp [Main.htdEntry, hlive, hhead, hdev, Nat.not_lt.2 hlen, hi, hr, -List.map_take]

/-- An entry whose packet is committed is given back. -/
theorem Main.htdEntry_commits {io : RnIo} {i : Nat} (hlen : e.words.toNat * 8 ≤ e.len.toNat) (hi : m.unitRx (0x30 + c) = some i)
    (hr : (m.rnUnitCommit i e.packet io).1 = true) : m.htdEntry c e io = m.htdDone (m.rnUnitCommit i e.packet io).2 c e false := by
  unfold RingEnt.packet at hr ⊢
  simp [Main.htdEntry, hlive, hhead, hdev, Nat.not_lt.2 hlen, hi, hr, Main.htdDone, -List.map_take]

end

theorem Main.dthEntry_idle {m : Main} {c : Nat} {e : RingEnt} (rd : RnRd)
    (h : m.get (F.PCIE_CH_DTHCTL_HEAD c) % ringSize (m.get (F.PCIE_CH_DTHCTL_LOGSIZE c)) =
      m.get (F.PCIE_CH_DTHCTL_TAIL c) % ringSize (m.get (F.PCIE_CH_DTHCTL_LOGSIZE c)) ∨ e.dev = false) :
    m.dthEntry c e rd = m.unitSees (0x30 + c) rd.lag := by
  unfold Main.dthEntry
  simp only [Main.unitSees_get]
  refine if_pos ?_
  rcases h with h | h <;> simp [h]

/-- R427: the ring's address is none of the counts of the runnel engine. -/
theorem dthRing_key_ne (c : Nat) : (F.PCIE_CH_DTH_RING c).key ≠ (F.RUNNEL_ENG_CE 0).key := by
  simp only [Fld.key, F.PCIE_CH_DTH_RING, F.RUNNEL_ENG_CE, if_true]
  omega

/-- R427: an entry that a packet has filled is given back, and HEAD goes on. -/
def Main.dthDone (s m : Main) (c : Nat) (e : RingEnt) : Main :=
  let size := ringSize (s.get (F.PCIE_CH_DTHCTL_LOGSIZE c))
  let head := s.get (F.PCIE_CH_DTHCTL_HEAD c) % size
  (m.set (F.PCIE_CH_DTHCTL_HEAD c) ((head + 1) % size)).ringDone (s.get (F.PCIE_CH_DTH_RING c) + 16 * head) e (s.flag (F.PCIE_CH_DTHCTL_IRQ c)) c

section
variable {m : Main} {c i : Nat} {e : RingEnt} {rd : RnRd} {ws : List Nat}
variable (htx : m.unitTxRn (0x30 + c) 0 = some i) (hws : (m.unitSees (0x30 + c) rd.lag).unitHead i = some ws)
variable (hecc : rd.ecc.contains .uncorrectable = false)
variable (hhead : m.get (F.PCIE_CH_DTHCTL_HEAD c) % ringSize (m.get (F.PCIE_CH_DTHCTL_LOGSIZE c)) ≠
  m.get (F.PCIE_CH_DTHCTL_TAIL c) % ringSize (m.get (F.PCIE_CH_DTHCTL_LOGSIZE c)))
variable (hdev : e.dev = true)
include htx hws hecc hhead hdev

/-- R427: the entry at HEAD takes a packet of the unit: as many whole words as fit, and ERR when that is not all. -/
theorem Main.dthEntry_fills (hfit : 8 * ws.length ≤ e.len.toNat ∨ e.len.toNat % 8 = 0) :
    m.dthEntry c e rd = m.dthDone ((m.unitSees (0x30 + c) rd.lag).unitTake i rd.ecc) c
      { e with dev := false, err := decide (e.len.toNat < 8 * ws.length), words := BitVec.ofNat 16 (Nat.min ws.length (e.len.toNat / 8)),
               data := (ws.take (Nat.min ws.length (e.len.toNat / 8))).map w64 } := by
  have hpart : ¬ (Nat.min ws.length (e.len.toNat / 8) < ws.length ∧ e.len.toNat % 8 ≠ 0) := by
    rintro ⟨hlt, hne⟩
    have hmin : Nat.min ws.length (e.len.toNat / 8) = min ws.length (e.len.toNat / 8) := rfl
    omega
  have hring := (m.unitSees (0x30 + c) rd.lag).unitTake_get_other i rd.ecc (dthRing_key_ne c)
  unfold Main.dthEntry Main.dthDone
  simp only [Main.unitSees_get, Main.unitSees_flag, Main.unitSees_unitTxRn, htx, hws, hecc, hdev, hpart, hring, beq_false_of_ne hhead,
    Bool.not_true, Bool.or_self, Bool.false_eq_true, if_false, List.append_nil]

/-- A packet that fits goes over whole. -/
theorem Main.dthEntry_whole (hlen : 8 * ws.length ≤ e.len.toNat) :
    m.dthEntry c e rd = m.dthDone ((m.unitSees (0x30 + c) rd.lag).unitTake i rd.ecc) c
      { e with dev := false, err := false, words := BitVec.ofNat 16 ws.length, data := ws.map w64 } := by
  have hn : Nat.min ws.length (e.len.toNat / 8) = ws.length := Nat.min_eq_left (by omega)
  rw [Main.dthEntry_fills htx hws hecc hhead hdev (.inl hlen), hn, List.take_length, decide_eq_false (Nat.not_lt.2 hlen)]

/-- Of a longer one the words that fit go over, with ERR. -/
theorem Main.dthEntry_cut (hlen : e.len.toNat < 8 * ws.length) (hmod : e.len.toNat % 8 = 0) :
    m.dthEntry c e rd = m.dthDone ((m.unitSees (0x30 + c) rd.lag).unitTake i rd.ecc) c
      { e with dev := false, err := true, words := BitVec.ofNat 16 (e.len.toNat / 8), data := (ws.take (e.len.toNat / 8)).map w64 } := by
  have hn : Nat.min ws.length (e.len.toNat / 8) = e.len.toNat / 8 := Nat.min_eq_right (by omega)
  rw [Main.dthEntry_fills htx hws hecc hhead hdev (.inr hmod), hn, decide_eq_true hlen]

end

end Sys2Proof.Machine
end

section
/-! SUPPORT. PCIe, USB, storage and PMBus (R413, R426 to R429, R432, R438): what each command's action does in each of its cases. -/

namespace Sys2Proof.Machine

/-! ### PCIe, USB (R413, R426 to R428) -/

/-- A rate or a width that the endpoint does not have leaves the link alone. -/
theorem Main.pcieLink_up_bad (m : Main) {sp w : BitVec 3} (h : sp = 0 ∨ 4 < sp.toNat ∨ (w ≠ 1 ∧ w ≠ 2 ∧ w ≠ 4)) : m.pcieLink (.up sp w) = m := by
  refine if_pos ?_
  rcases h with h | h | ⟨h1, h2, h4⟩
  · exact .inl h
  · exact .inr (.inl h)
  · refine .inr (.inr ?_)
    simp only [List.contains_eq_mem, List.mem_cons, List.not_mem_nil, or_false, decide_eq_true_eq]
    bv_omega

theorem Main.pcieLink_up (m : Main) {sp w : BitVec 3} (h0 : 0 < sp.toNat) (h4 : sp.toNat ≤ 4) (hw : w = 1 ∨ w = 2 ∨ w = 4) :
    m.pcieLink (.up sp w) = (((m.set F.PCIE_LINK_UP 1).set F.PCIE_LINK_SPEED sp.toNat).set F.PCIE_LINK_WIDTH w.toNat).event 976 1 := by
  have hsp : sp ≠ 0 := fun h => by simp [h] at h0
  have hin : [1, 2, 4].contains w.toNat = true := by rcases hw with rfl | rfl | rfl <;> rfl
  refine if_neg ?_
  rintro (h | h | h)
  · exact hsp h
  · exact absurd h (Nat.not_lt.2 h4)
  · exact h hin

/-- R427: contexts 0 and 255 send the vectors from 8. -/
theorem Main.msixWrite_sends {m : Main} {p : Path} {v : Nat} (ha : m.asleep = false) (hp : p.isCtx = true) (h8 : 8 ≤ v % 64) :
    m.regCmd p .PCIE_MSIX v (fun m => m.msixWrite p v) = Main.extAnswer { m with comm := { m.comm with vector := some (v % 64) } } p 0 [] := by
  have hm : (m.touch p).mayWrite p .PCIE_MSIX v = true := by simp [Main.mayWrite_msix, Main.pathLevel_ctx _ hp]
  rw [Main.regCmd_made _ ha hm, m.touch_ctx hp]
  simp [Main.msixWrite, p.servo_eq_isCtx, hp, h8]

/-- Any other write of MSI-X sends nothing, and is answered by who may make it. -/
theorem Main.msixWrite_ignored {m : Main} {p : Path} {v : Nat} (ha : m.asleep = false) (h : (p ≠ .ctx0 ∧ p ≠ .ctx255) ∨ v % 64 < 8) :
    m.regCmd p .PCIE_MSIX v (fun m => m.msixWrite p v) = (m.touch p).extAnswer p (if 2 ≤ m.pathLevel p ∨ p = .host then 0 else 2) [] := by
  have hact : (m.touch p).msixWrite p v = m.touch p := by
    refine if_neg ?_
    rw [p.servo_eq_isCtx, Bool.and_eq_true, p.isCtx_iff, decide_eq_true_eq]
    rintro ⟨hp, h8⟩
    rcases h with ⟨h0, h255⟩ | hlt
    · exact hp.elim h0 h255
    · exact absurd hlt (Nat.not_lt.2 h8)
  have hm := (m.touch p).mayWrite_msix p v
  rw [Main.touch_pathLevel] at hm
  by_cases hl : 2 ≤ m.pathLevel p ∨ p = .host
  · rw [Main.regCmd_made _ ha (hm.trans (decide_eq_true hl)), hact, if_pos hl]
  · rw [Main.regCmd_denied _ ha (hm.trans (decide_eq_false hl)), if_neg hl]

theorem Main.usbOut_commits {m : Main} {k i : Nat} {bs : List Nat} {io : RnIo} (hst : m.get F.USB_STAT_STATE = 3)
    (hi : m.unitRx (0x38 + k) = some i) (hr : (m.rnUnitCommit i ((bs.length :: packBytes bs).map (opnd tyInt)) io).1 = true) :
    m.usbOut k bs io = (m.rnUnitCommit i ((bs.length :: packBytes bs).map (opnd tyInt)) io).2 := by
  unfold Main.usbOut
  rw [if_neg (Decidable.not_not.2 hst), hi]
  dsimp only
  split
  · next heq => rw [heq]
  · next heq => rw [heq] at hr; cases hr

theorem Main.usbOut_noRoom {m : Main} {k i : Nat} {bs : List Nat} {io : RnIo} (hst : m.get F.USB_STAT_STATE = 3)
    (hi : m.unitRx (0x38 + k) = some i) (hr : (m.rnUnitCommit i ((bs.length :: packBytes bs).map (opnd tyInt)) io).1 = false) :
    m.usbOut k bs io = m := by
  unfold Main.usbOut
  rw [if_neg (Decidable.not_not.2 hst), hi]
  dsimp only
  split
  · next heq => rw [heq] at hr; cases hr
  · rfl

section
variable {m : Main} {k i : Nat} {rd : RnRd} {ws : List Nat}
variable (hst : m.get F.USB_STAT_STATE = 3) (htx : m.unitTxRn (0x38 + k) 0 = some i)
variable (hws : (m.unitSees (0x38 + k) rd.lag).unitHead i = some ws) (hecc : rd.ecc.contains .uncorrectable = false)
include hst htx hws hecc

/-- R428: a packet whose length word fits its words is sent. -/
theorem Main.usbIn_sends (hne : ws ≠ []) (hlen : ws.length = 1 + wordsFor (bitsOf (ws.getD 0 0) 0 32)) :
    let n := (m.unitSees (0x38 + k) rd.lag).unitTake i rd.ecc
    m.usbIn k rd = { n with comm := { n.comm with usb := n.comm.usb.set k (unpackBytes (ws.drop 1) (bitsOf (ws.getD 0 0) 0 32)) } } := by
  have hgood : ¬ (ws = [] ∨ ws.length ≠ 1 + wordsFor (bitsOf (ws.getD 0 0) 0 32)) := not_or.2 ⟨hne, Decidable.not_not.2 hlen⟩
  unfold Main.usbIn
  simp only [Main.unitSees_get, Main.unitSees_unitTxRn, hst, htx, hws, hecc, hgood, ne_eq, not_true, if_false, Bool.false_eq_true]

/-- R428: any other is taken and dropped. -/
theorem Main.usbIn_drops (hlen : ws.length ≠ 1 + wordsFor (bitsOf (ws.getD 0 0) 0 32)) :
    m.usbIn k rd = (m.unitSees (0x38 + k) rd.lag).unitTake i rd.ecc := by
  have hbad : ws = [] ∨ ws.length ≠ 1 + wordsFor (bitsOf (ws.getD 0 0) 0 32) := .inr hlen
  unfold Main.usbIn
  simp only [Main.unitSees_get, Main.unitSees_unitTxRn, hst, htx, hws, hecc, hbad, ne_eq, not_true, if_false, if_true, Bool.false_eq_true]

end

/-- R428: an address other than 0 takes the device to the state ADDRESS. -/
theorem Main.usbEvent_address {m : Main} {a : BitVec 7} (h : m.get F.USB_STAT_STATE ≠ 0) (ha : a ≠ 0) :
    m.usbEvent (.address a) = (m.set F.USB_STAT_ADDR a.toNat).set F.USB_STAT_STATE 2 := by
  simp only [Main.usbEvent, h, ha, if_false]

/-! ### Storage (R429) -/

/-- R429: the command that the words of a packet spell. -/
def storCmdOf (ws : List Nat) : StorCmd :=
  { op := bitsOf (ws.getD 0 0) 0 4, part := bitsOf (ws.getD 0 0) 4 4, tag := bitsOf (ws.getD 0 0) 32 32, dev := ws.getD 1 0, pa := ws.getD 2 0,
    len := ws.getD 3 0 }

/-- R429: the packet of a command is malformed. -/
def storMalformed (u : Nat) (ws : List Nat) : Prop :=
  ws.length ≠ 4 ∨ (storCmdOf ws).op = 0 ∨ 4 < (storCmdOf ws).op ∨ 2 ^ 40 ≤ (storCmdOf ws).pa ∨ (u = 0 ∧ (storCmdOf ws).len % 512 ≠ 0)

theorem not_storMalformed {u : Nat} {ws : List Nat} (hlen : ws.length = 4) (h0 : 0 < (storCmdOf ws).op) (h4 : (storCmdOf ws).op ≤ 4)
    (hpa : (storCmdOf ws).pa < 2 ^ 40) (hblk : u = 0 → (storCmdOf ws).len % 512 = 0) : ¬ storMalformed u ws := by
  rintro (h | h | h | h | ⟨hu, h⟩)
  · exact h hlen
  · exact Nat.ne_of_gt h0 h
  · exact absurd h (Nat.not_lt.2 h4)
  · exact absurd hpa (Nat.not_lt.2 h)
  · exact h (hblk hu)

section
variable {m : Main} {u i : Nat} {rd : RnRd} {ws : List Nat}
variable (htx : m.unitTxRn (0x40 + u) 0 = some i) (hws : (m.unitSees (0x40 + u) rd.lag).unitHead i = some ws)
include htx hws

/-- While a command is in progress or its completion word waits, no other is taken. -/
theorem Main.storCommand_busy (h : (m.stor u).cmd.isSome = true ∨ (m.stor u).done.isSome = true) :
    m.storCommand u rd = m.unitSees (0x40 + u) rd.lag := by
  unfold Main.storCommand
  simp only [Main.unitSees_unitTxRn, Main.unitSees_stor, htx, hws]
  rcases h with h | h <;> simp [h]

variable (hecc : rd.ecc.contains .uncorrectable = false) (hcmd : (m.stor u).cmd = none) (hdone : (m.stor u).done = none) (hne : ws ≠ [])
include hecc hcmd hdone hne

/-- A malformed command is answered with status 3. -/
theorem Main.storCommand_malformed (h : storMalformed u ws) :
    m.storCommand u rd = ((m.unitSees (0x40 + u) rd.lag).unitTake i rd.ecc).putStor
      { m.stor u with done := some (3 + (storCmdOf ws).tag * 2 ^ 32) } := by
  unfold storMalformed storCmdOf at h
  unfold Main.storCommand storCmdOf
  simp only [Main.unitSees_unitTxRn, Main.unitSees_stor, htx, hws, hcmd, hdone, hecc, hne, decide_eq_true h]
  rfl

variable (hok : ¬ storMalformed u ws)
include hok

/-- A transfer whose buffer is not memory is answered with status 2. -/
theorem Main.storCommand_badAddr (ha : (storCmdOf ws).op ≤ 2 ∧ storAddrOk (storCmdOf ws).pa (storCmdOf ws).len = false) :
    m.storCommand u rd = ((m.unitSees (0x40 + u) rd.lag).unitTake i rd.ecc).putStor
      { m.stor u with done := some (2 + (storCmdOf ws).tag * 2 ^ 32) } := by
  unfold storMalformed storCmdOf at hok
  unfold storCmdOf at ha
  unfold Main.storCommand storCmdOf
  simp only [Main.unitSees_unitTxRn, Main.unitSees_stor, htx, hws, hcmd, hdone, hecc, hne, decide_eq_false hok]
  exact if_pos ha

/-- Any other command starts. -/
theorem Main.storCommand_starts (ha : ¬ ((storCmdOf ws).op ≤ 2 ∧ storAddrOk (storCmdOf ws).pa (storCmdOf ws).len = false)) :
    m.storCommand u rd = ((m.unitSees (0x40 + u) rd.lag).unitTake i rd.ecc).putStor { m.stor u with cmd := some (storCmdOf ws) } := by
  unfold storMalformed storCmdOf at hok
  unfold storCmdOf at ha
  unfold Main.storCommand storCmdOf
  simp only [Main.unitSees_unitTxRn, Main.unitSees_stor, htx, hws, hcmd, hdone, hecc, hne, decide_eq_false hok]
  exact if_neg ha

end

/-- R429: a command that ends makes its completion word. -/
theorem Main.storComplete_ends {m k : Main} {u st : Nat} {ev : StorEv} {c : StorCmd} (io : RnIo) (hev : ev ≠ .card) (hc : (m.stor u).cmd = some c)
    (hf : m.storFinish u c ev = (some st, k)) :
    m.storComplete u ev io = (k.putStor { k.stor u with cmd := none, done := some (st + c.tag * 2 ^ 32) }).storAnswer u io := by
  simp [Main.storComplete, hev, hc, hf]

/-- R429: one whose target makes it wait goes on. -/
theorem Main.storComplete_waits {m k : Main} {u : Nat} {ev : StorEv} {c : StorCmd} (io : RnIo) (hev : ev ≠ .card) (hc : (m.stor u).cmd = some c)
    (hf : m.storFinish u c ev = (none, k)) : m.storComplete u ev io = k := by
  simp [Main.storComplete, hev, hc, hf]

/-! ### PMBus (R432, R438) -/

theorem Main.pmbWrite_idle {m : Main} (v : Nat) (h : m.flag F.PMB_CMD_GO = false) :
    m.pmbWrite v = m.setWord v [F.PMB_CMD_CODE, F.PMB_CMD_RAIL, F.PMB_CMD_OP, F.PMB_CMD_DATA, F.PMB_CMD_GO] := by
  simp only [Main.pmbWrite, h, Bool.false_eq_true, if_false]

theorem Main.pmbDone_railChanges {m : Main} (r d : Nat) (h : m.railChanges = true) : m.pmbDone r d = m := by
  simp only [Main.pmbDone, h, Bool.or_true, if_true]

/-- R432: the end of a transaction of software leaves its result, and its data where it has read some. -/
theorem Main.pmbDone_ends {m : Main} (r d : Nat) (hgo : m.flag F.PMB_CMD_GO = true) (hc : m.railChanges = false) :
    let k := (m.set F.PMB_CMD_RESULT r).set F.PMB_CMD_GO 0
    (m.get F.PMB_CMD_OP < 2 → m.pmbDone r d = k) ∧ (m.get F.PMB_CMD_OP = 3 → m.pmbDone r d = k.set F.PMB_CMD_DATA d) := by
  have hop : ((m.set F.PMB_CMD_RESULT r).set F.PMB_CMD_GO 0).get F.PMB_CMD_OP = m.get F.PMB_CMD_OP := by
    rw [Main.get_set_other _ _ (by decide), Main.get_set_other _ _ (by decide)]
  refine ⟨fun h => ?_, fun h => ?_⟩
  · unfold Main.pmbDone
    simp only [hgo, hc, hop]
    rcases Nat.lt_succ_iff_lt_or_eq.1 h with h | h
    · simp [Nat.lt_one_iff.1 h]
    · simp [h]
  · unfold Main.pmbDone
    simp only [hgo, hc, hop]
    simp [h]

/-- R432: the one regulator that answers an alert is recorded, counted against the die that its rail feeds, and announced. -/
theorem Main.pmbAlert_one {m : Main} {a k : Nat}
    (h : (List.range 16).filter (fun k => m.flag (F.PMB_RAIL_EN k) && m.get (F.PMB_RAIL_ADDR k) == a) = [k])
    (hw : bitsOf (m.get F.PMB_ALERT_RAILS) k 1 = 0) :
    let x := (m.set F.PMB_ALERT_RAILS (m.get F.PMB_ALERT_RAILS + 2 ^ k)).railFeeds k
    let n := x.2.raiseSrc 38 0 x.1 k
    m.pmbAlert a = n.event 959 (n.get F.PMB_ALERT_RAILS) := by
  simp [Main.pmbAlert, h, hw]

end Sys2Proof.Machine
end

section
/-! SUPPORT. The commands of the host, USB, storage and the service paths, each tied to its action, and the statement over them. -/

namespace Sys2Proof.Machine

/-! ### What each command does on the main domains -/

section
variable {s : State} {m : Main}

theorem does_readClearAccess {p : Path} {pa : BitVec 40} : Does (.readClearAccess p pa) s m ↔ s.main.onRegs p pa.toNat none = m :=
  does_iff (fun m => m.onRegs p pa.toNat none) rfl

theorem does_registerWrite {p : Path} {pa : BitVec 40} {v : Word} :
    Does (.registerWrite p pa v) s m ↔ s.main.onRegs p pa.toNat (some v.toNat) = m :=
  does_iff (fun m => m.onRegs p pa.toNat (some v.toNat)) rfl

theorem does_haltAndResume {d t : Fin 8} {halt : Bool} (h : s.main.asleep = false) :
    Does (.haltAndResumeOfDispatch d t halt) s m ↔ s.main.haltWrite d.val t.val halt = m := by
  rw [does_iff (fun m => m.unlessStandby fun m => m.haltWrite d.val t.val halt) rfl, Main.unlessStandby_awake _ h]

theorem does_hostWindowAccess {x : ExtAddr} {w : Fin 4} {wr : Option Word} {waits : Bool} :
    Does (.hostWindowAccess x w ⟨wr, waits⟩) s m ↔ s.main.hostAccess x w (wr.map BitVec.toNat) waits = m :=
  does_iff (fun m => m.hostAccess x w (wr.map BitVec.toNat) waits) rfl

theorem does_svcRead {p : Path} {pa : BitVec 40} {pec : Pec} {waits : Bool} :
    Does (.svcRead p pa ⟨pec, waits⟩) s m ↔ s.main.svcAccess p 0x10 pa.toNat none pec waits = m :=
  does_iff (fun m => m.svcAccess p 0x10 pa.toNat none pec waits) rfl

theorem does_svcWrite {p : Path} {pa : BitVec 40} {v : Word} {pec : Pec} {waits : Bool} :
    Does (.svcWrite p pa v ⟨pec, waits⟩) s m ↔ s.main.svcAccess p 0x11 pa.toNat (some v.toNat) pec waits = m :=
  does_iff (fun m => m.svcAccess p 0x11 pa.toNat (some v.toNat) pec waits) rfl

theorem does_svcMode {p : Path} {pec : Pec} : Does (.svcMode p pec) s m ↔ s.main.svcMode p pec = m :=
  does_iff (fun m => m.svcMode p pec) rfl

theorem does_svcAddressWake : Does .svcAddressWake s m ↔ s.main.svcWake = m := does_iff Main.svcWake rfl

theorem does_pcieDoorbell {v : Word} :
    Does (.pcieDoorbell v) s m ↔ s.main.regCmd .host .PCIE_DOORBELL v.toNat (fun m => m.doorbell v.toNat) = m :=
  does_iff (fun m => m.regCmd .host .PCIE_DOORBELL v.toNat fun m => m.doorbell v.toNat) rfl

theorem does_pcieLinkEvent {ev : PcieEv} : Does (.pcieLinkEvent ev) s m ↔ s.main.pcieLink ev = m :=
  does_iff (fun m => m.pcieLink ev) rfl

theorem does_htdEntry {c : Fin 8} {e : RingEnt} {io : RnIo} : Does (.htdEntry c e io) s m ↔ s.main.htdEntry c.val e io = m :=
  does_iff (fun m => m.htdEntry c.val e io) rfl

theorem does_dthEntry {c : Fin 8} {e : RingEnt} {rd : RnRd} : Does (.dthEntry c e rd) s m ↔ s.main.dthEntry c.val e rd = m :=
  does_iff (fun m => m.dthEntry c.val e rd) rfl

theorem does_msixWrite {p : Path} {v : Word} :
    Does (.msixWrite p v) s m ↔ s.main.regCmd p .PCIE_MSIX v.toNat (fun m => m.msixWrite p v.toNat) = m :=
  does_iff (fun m => m.regCmd p .PCIE_MSIX v.toNat fun m => m.msixWrite p v.toNat) rfl

theorem does_usbOutTransfer {k : Fin 2} {bs : List (BitVec 8)} {io : RnIo} :
    Does (.usbOutTransfer k bs io) s m ↔ s.main.usbOut k.val (bs.map BitVec.toNat) io = m :=
  does_iff (fun m => m.usbOut k.val (bs.map BitVec.toNat) io) rfl

theorem does_usbInTransfer {k : Fin 2} {rd : RnRd} : Does (.usbInTransfer k rd) s m ↔ s.main.usbIn k.val rd = m :=
  does_iff (fun m => m.usbIn k.val rd) rfl

theorem does_usbBusEvent {ev : UsbEv} : Does (.usbBusEvent ev) s m ↔ s.main.usbEvent ev = m := does_iff (fun m => m.usbEvent ev) rfl

theorem does_storageCommand {u : Fin 2} {rd : RnRd} : Does (.storageCommand u rd) s m ↔ s.main.storCommand u.val rd = m :=
  does_iff (fun m => m.storCommand u.val rd) rfl

theorem does_storageCompletion {u : Fin 2} {ev : StorEv} {io : RnIo} :
    Does (.storageCompletion u ev io) s m ↔ s.main.storComplete u.val ev io = m :=
  does_iff (fun m => m.storComplete u.val ev io) rfl

theorem does_pmbusStart {v : Word} : Does (.pmbusCommand (.start v)) s m ↔ s.main.pmbWrite v.toNat = m :=
  does_iff (fun m => m.pmbWrite v.toNat) rfl

theorem does_pmbusDone {r : BitVec 3} {d : BitVec 16} : Does (.pmbusCommand (.done r d)) s m ↔ s.main.pmbDone r.toNat d.toNat = m :=
  does_iff (fun m => m.pmbDone r.toNat d.toNat) rfl

theorem does_pmbusAlert {a : BitVec 7} : Does (.pmbusAlert a) s m ↔ s.main.pmbAlert a.toNat = m := does_iff (fun m => m.pmbAlert a.toNat) rfl

end

/-- Settles O50: each command through what its action answers in each of its cases, by the lemmas above. -/
theorem hostAndService : Obligations.HostAndService := by
  unfold Obligations.HostAndService
  refine ⟨?read, ?write, ?field, ?haltDenied, ?imem, ?halt, ?asleep, ?bar2, ?path, ?mem, ?memDenied, ?svc, ?svcAnswer, ?pec, ?wake, ?doorbell,
    ?link, ?htd, ?dth, ?ring, ?msix, ?usbOut, ?usbIn, ?usb, ?stor, ?storEnd, ?pmb, ?alert, ?rail⟩
  case read =>
    intro s p pa a m ha hat h8
    refine ⟨fun hm hr => does_readClearAccess.2 (Main.onRegs_read ha hat h8 hm hr), fun hm h0 h255 => does_readClearAccess.2 ?_⟩
    exact Main.onRegs_denied ha (Main.isRegs_of_regAt hat) h8 (Path.isCtx_false h0 h255) ((Main.regsOpen_read p hat).trans hm)
  case write =>
    intro s p pa v a m ha hat h8 h1 h2 h3
    have ho := Main.regsOpen_write p v.toNat hat h1 h2 h3
    refine ⟨fun hm hr => does_registerWrite.2 (Main.onRegs_write ha hat h8 (ho.trans hm) hr), fun hm h0 h255 => does_registerWrite.2 ?_⟩
    exact Main.onRegs_denied ha (Main.isRegs_of_regAt hat) h8 (Path.isCtx_false h0 h255) (ho.trans hm)
  case field => exact fun m f v i => ⟨rfl, rfl, fun _ hw hi => m.get_plainField_w1c f v i hw hi⟩
  case haltDenied => exact fun s d t halt ha hl => (does_haltAndResume ha).2 (Main.haltWrite_denied d.val t.val halt hl)
  case imem =>
    intro s slot kind w wr waits ha m c
    simp only [m, c, Main.touch_pathLevel, Main.touch_compute]
    refine ⟨fun hl => does_hostWindowAccess.2 (Main.debugImem_denied _ _ _ ha hl), fun hl d t i hs hc hv => ⟨?_, ?_⟩⟩
    · rintro rfl
      exact does_hostWindowAccess.2 (Main.debugImem_read kind.val ha hl hs hc hv)
    · rintro v rfl
      refine does_hostWindowAccess.2 ((Main.debugImem_write _ v.toNat ha hl hs hc hv).trans ?_)
      rw [w64, BitVec.ofNat_toNat, BitVec.setWidth_eq]
  case halt =>
    intro s d t halt hl hm hd
    exact (does_haltAndResume (by simp [Main.asleep, hm])).2 (Main.haltWrite_debug t.val halt hl hm hd)
  case asleep =>
    intro s p pa v w wr pec waits ha
    exact ⟨does_readClearAccess.2 (Main.onRegs_asleep _ _ _ ha), does_registerWrite.2 (Main.onRegs_asleep _ _ _ ha),
      does_hostWindowAccess.2 (Main.hostAccess_path_asleep _ _ _ _ _ ha), does_svcRead.2 (Main.svcAccess_asleep _ _ _ _ _ _ ha),
      does_svcWrite.2 (Main.svcAccess_asleep _ _ _ _ _ _ ha), does_svcMode.2 (Main.svcMode_asleep _ _ ha)⟩
  case bar2 =>
    exact fun s off w v waits => ⟨fun h => does_hostWindowAccess.2 (Main.hostAccess_window_disabled _ _ _ h),
      fun h => does_hostWindowAccess.2 (Main.hostAccess_window _ _ _ h)⟩
  case path => exact fun s p pa w v waits h0 h255 => does_hostWindowAccess.2 (Main.hostAccess_path _ _ _ _ _ (Path.isCtx_false h0 h255))
  case mem =>
    intro m p pa n x waits k t ha hi ho hal id
    exact ⟨Main.extDo_mem_waits ha hi ho hal, fun hg hh => ⟨fun hn hl => Main.extDo_mem_read ha hi ho hal hg hh hn hl,
      fun hn => Main.extDo_mem_owned ha hi ho hal hg hh hn⟩⟩
  case memDenied => exact fun m p pa n v waits ha hi ho => Main.extDo_mem_denied n waits ha hi ho
  case svc =>
    intro s p pa v pec waits hp ha
    refine ⟨fun hb => ?_, fun hb => ?_⟩
    · exact ⟨does_svcRead.2 (Main.svcAccess_badPec _ _ _ _ hp ha hb), does_svcWrite.2 (Main.svcAccess_badPec _ _ _ _ hp ha hb),
        does_svcMode.2 (Main.svcMode_badPec hp ha hb)⟩
    · exact ⟨fun st data m hx => does_svcRead.2 (Main.svcAccess_done _ hp ha hb hx), fun hx => does_svcRead.2 (Main.svcAccess_wait _ hp ha hb hx),
        fun st data m hx => does_svcWrite.2 (Main.svcAccess_done _ hp ha hb hx), fun hx => does_svcWrite.2 (Main.svcAccess_wait _ hp ha hb hx),
        does_svcMode.2 (Main.svcMode_answers hp ha hb)⟩
  case svcAnswer => exact fun m code st data => rfl
  case pec => exact Main.pecBad_i2c
  case wake => exact fun s => ⟨fun he hb hw => does_svcAddressWake.2 (Main.svcWake_enabled he hb hw), fun hb => does_svcAddressWake.2 (Main.svcWake_outside hb)⟩
  case doorbell => exact fun s v ha => does_pcieDoorbell.2 (Main.regCmd_made _ ha (Main.mayWrite_doorbell _ _))
  case link =>
    exact fun s sp w => ⟨fun h => does_pcieLinkEvent.2 (Main.pcieLink_up_bad _ h), fun h0 h4 hw => does_pcieLinkEvent.2 (Main.pcieLink_up _ h0 h4 hw),
      does_pcieLinkEvent.2 rfl, does_pcieLinkEvent.2 rfl⟩
  case htd =>
    intro s c e io size head done
    refine ⟨fun h => does_htdEntry.2 (Main.htdEntry_idle io h), fun hlive hhead hdev => ⟨fun hlen => ?_, ?_⟩⟩
    · exact does_htdEntry.2 (Main.htdEntry_short hlive hhead hdev io hlen)
    · intro i hlen hi r
      exact ⟨fun hr => does_htdEntry.2 (Main.htdEntry_commits hlive hhead hdev hlen hi hr),
        fun hr => does_htdEntry.2 (Main.htdEntry_noRoom hlive hhead hdev hlen hi hr)⟩
  case dth =>
    intro s c e rd i ws htx hws hecc m size head pa k irq
    exact ⟨fun h => does_dthEntry.2 (Main.dthEntry_idle rd h), fun hhead hdev hlen => does_dthEntry.2 (Main.dthEntry_whole htx hws hecc hhead hdev hlen),
      fun hhead hdev hlen hmod => does_dthEntry.2 (Main.dthEntry_cut htx hws hecc hhead hdev hlen hmod)⟩
  case ring => exact fun m pa e irq c => ⟨rfl, rfl⟩
  case msix =>
    exact fun s p v ha => ⟨fun hp h8 => does_msixWrite.2 (Main.msixWrite_sends ha (p.isCtx_iff.2 hp) h8), fun h => does_msixWrite.2 (Main.msixWrite_ignored ha h)⟩
  case usbOut =>
    intro s k bs io i hst hi r
    have hlen : (bs.map BitVec.toNat).length = bs.length := List.length_map _
    refine ⟨fun hr => does_usbOutTransfer.2 ?_, fun hr => does_usbOutTransfer.2 ?_⟩
    · exact (Main.usbOut_commits hst hi (by rw [hlen]; exact hr)).trans (by rw [hlen])
    · exact Main.usbOut_noRoom hst hi (by rw [hlen]; exact hr)
  case usbIn =>
    intro s k rd i ws hst htx hws hecc n len
    exact ⟨fun hne hlen => does_usbInTransfer.2 (Main.usbIn_sends hst htx hws hecc hne hlen),
      fun hlen => does_usbInTransfer.2 (Main.usbIn_drops hst htx hws hecc hlen)⟩
  case usb =>
    intro s hs a st
    exact ⟨does_usbBusEvent.2 rfl, fun h0 hc hv => does_usbBusEvent.2 (if_pos ⟨h0, hc, hv⟩),
      fun h ha => does_usbBusEvent.2 (Main.usbEvent_address h ha), fun h => does_usbBusEvent.2 (if_pos h), fun h => does_usbBusEvent.2 (if_neg h),
      fun h => does_usbBusEvent.2 (if_neg h)⟩
  case stor =>
    intro s u rd i ws htx hws hecc m x k w op tag cm
    refine ⟨fun h => does_storageCommand.2 (Main.storCommand_busy htx hws h), fun hcmd hdone hne => ⟨fun h => ?_, fun hlen h0 h4 hpa hblk => ?_⟩⟩
    · exact does_storageCommand.2 (Main.storCommand_malformed htx hws hecc hcmd hdone hne (h.imp_right (Or.imp_right .inl)))
    · have hok : ¬ storMalformed u.val ws := not_storMalformed hlen h0 h4 hpa fun hu => hblk.resolve_left (by omega)
      refine ⟨fun hop hn => does_storageCommand.2 (Main.storCommand_badAddr htx hws hecc hcmd hdone hne hok ⟨hop, hn⟩), fun h => ?_⟩
      refine does_storageCommand.2 (Main.storCommand_starts htx hws hecc hcmd hdone hne hok ?_)
      exact fun ⟨hop, hf⟩ => h.elim (Nat.not_lt.2 hop) fun ht => Bool.false_ne_true (hf.symm.trans ht)
  case storEnd =>
    intro s u ev io c
    exact ⟨does_storageCompletion.2 rfl, fun hc => does_storageCompletion.2 (Main.storComplete_ends io (by decide) hc rfl),
      fun m hev hc hf => does_storageCompletion.2 (Main.storComplete_waits io hev hc hf),
      fun r m hev hc hf => does_storageCompletion.2 (Main.storComplete_ends io hev hc hf)⟩
  case pmb =>
    intro s v r d
    refine ⟨fun h => does_pmbusStart.2 (if_pos h), fun h => does_pmbusStart.2 (Main.pmbWrite_idle _ h),
      fun hgo hc => does_pmbusDone.2 (Main.pmbDone_railChanges _ _ hc), ?_⟩
    intro hgo hc k
    obtain ⟨hlt, h3⟩ := Main.pmbDone_ends r.toNat d.toNat hgo hc
    exact ⟨fun h => does_pmbusDone.2 (hlt h), fun h => does_pmbusDone.2 (h3 h)⟩
  case alert =>
    intro s a k h w hw x n
    exact does_pmbusAlert.2 (Main.pmbAlert_one h hw)
  case rail =>
    rintro m k d rfl
    exact ⟨fun h1 h5 => if_pos ⟨h1, h5⟩, fun h7 h => (if_neg h).trans (if_neg fun hk => h7 hk.1)⟩

end Sys2Proof.Machine
end

section
/-! SUPPORT. Why the statement of the resets (R14 to R16, R525 to R530) fails: an answer that a context reset itself lets go. -/

namespace Sys2Proof.Machine

/-- A firing in tuft 0 of die 1 of an operation with its right operand 0 and DEST0 port 0 of IA 0x00040. -/
def plainFiring (o : Op) (c : BitVec 8) (left : Opnd) : Firing :=
  { die := 1, tuft := 0, ctx := c, frame := 0, ia := 0x00010, side := false, prio := 0,
    word := IWord.toWord { opc := BitVec.ofNat 10 o.row.opc, mode := 0, tagop := 0, flags := 0, dest0 := 0x100, dest1 := noDest },
    lit := none, conts := [], left := left, right := opnd tyInt 0, third := opnd tyEmpty 0, pres := 3, wsel := 0, pass := false, way := false,
    replay := none, epoch := none }

/-- A LOAD of context 1 that waits for the walk of its page (R276). -/
def walkingLoad : Firing := plainFiring .load 1 (opnd tyPtr 0)

/-- A TLBINV of context 0 for the pages of context 1 (R163). It has been replayed, and context 1 waits for its RPSTAT (R158). -/
def replayedInv : Firing :=
  { plainFiring .tlbinv 0 (opnd tyInt 1) with
    replay := some { handle := mkHandle 1 0 64, by_ := (plainFiring .replay 1 (opnd tyInt 0)).ret } }

/-- A device in RUN with contexts 0 and 1 ACTIVE, in which the TLBINV of context 0 waits for the walk of context 1. -/
def invWaiting : State :=
  let m := ((Main.reset.set F.MODE_CUR_MODE 4).set (F.CTXTAB_STATE_RUN 0) 1).set (F.CTXTAB_STATE_RUN 1) 1
  { State.reset with main := { m with
    sys := { m.sys with pow := 0 }
    req := { m.req with walks := [walkingLoad], tlbInvs := [{ f := replayedInv, reqs := [], walks := [walkingLoad] }] } } }

/-- The TLBINV waits for the walk. -/
theorem invWaiting_waits : invWaiting.main.req.tlbInvs.filter invWaiting.main.invDone = [] := by decide +kernel

/-- The reset of context 1 ends the walk after it has discarded the context's tokens, so that the answer of the TLBINV sends context 1 its RPSTAT. -/
theorem invWaiting_reset_sends : (invWaiting.main.contextReset (1 : BitVec 8).toNat).tok.inflight.any (fun t => t.ctx == 1) = true := by decide +kernel

theorem does_contextReset {s : State} {c : BitVec 8} {m : Main} : Does (.contextReset c) s m ↔ s.main.contextReset c.toNat = m :=
  does_iff (fun m => m.contextReset c.toNat) rfl

/-- Refutes O57: no token of a reset context is to be in flight after its reset, but one is where the reset ends the walk for which a TLBINV
waited, and the TLBINV is a replay that the context resolved: its RPSTAT leaves after the context's tokens have been discarded. The
statement ranges over every state, and so over this one, though R157 opens the handles of context 0 to context 0 alone, and no run is known
to reach a state where context 1 has resolved one. -/
theorem not_resets : ¬ Obligations.Resets := by
  unfold Obligations.Resets
  rintro ⟨-, -, -, hctx, -⟩
  obtain ⟨-, hreset, -⟩ := hctx invWaiting 1
  obtain ⟨k, hk, -, -, -, -, -, hgone, -⟩ := hreset (by decide) (by decide) rfl rfl
  have hsends := invWaiting_reset_sends
  rw [does_contextReset.1 hk] at hsends
  obtain ⟨t, ht, hc⟩ := List.any_eq_true.1 hsends
  exact hgone t ht (eq_of_beq hc)

end Sys2Proof.Machine
end

section
/-! SUPPORT. Tokens at their routers (R31, R35, R41, R44, R52, R53): what each step of TOKEN_ROUTE does, and the statement over it. -/

namespace Sys2Proof.Machine

theorem does_tokenRoute {s : State} {m : Main} {t : Token} {io : RouteIo} : Does (.tokenRoute t io) s m ↔ s.main.tokenRoute t io = m :=
  does_iff (fun m => m.tokenRoute t io) rfl

/-! ### The checks on the way (R41) -/

theorem Main.checkTok_good (m : Main) {l : List (Nat × Ecc)} (h : ∀ x ∈ l, x.2 = .ok) : m.checkTok l = (true, m) := by
  induction l with
  | nil => rfl
  | cons x l ih =>
    obtain ⟨r, c⟩ := x
    obtain rfl : c = .ok := h (r, c) List.mem_cons_self
    exact ih fun y hy => h y (List.mem_cons_of_mem _ hy)

theorem Main.checkTok_hops_good (m : Main) (a b : Nat) {via : List Ecc} (h : ∀ c ∈ via, c = .ok) :
    m.checkTok (m.hops a b via) = (true, m) :=
  m.checkTok_good fun _ hx => h _ (List.of_mem_zip hx).2

/-- R40: what was created on the field die is handled first by the router of that die. -/
theorem Main.routerOf_field {m : Main} {t : Token} (h : t.odie = 0) : m.routerOf t = 0 := by simp [Main.routerOf, Main.compute, h]

/-- R83: an error of a CHECK changes what is counted and what is raised, and leaves the tokens alone. -/
theorem Main.countTokErr_unsent (m : Main) (t : Token) (r : Nat) (ue : Bool) :
    (m.unsent t).countTokErr r ue = (m.countTokErr r ue).unsent t := by
  cases r <;> cases ue
  · rfl
  · rfl
  · rfl
  · simp only [Main.countTokErr, Main.raiseSrc, Main.raiseEvent]
    split <;> rfl

/-- A token whose CHECK is good at its first router is routed, whether it stays in its tuft or not. -/
theorem Main.tokenRoute_good (m : Main) (t : Token) (via via1 : List Ecc) :
    m.tokenRoute t ⟨.ok, via, via1⟩ = (m.unsent t).routeTok t ⟨.ok, via, via1⟩ := by
  unfold Main.tokenRoute
  dsimp only
  split <;> rfl

/-- R41: a token whose CHECK cannot be corrected is counted, and lost. -/
theorem Main.tokenRoute_uncorrectable {m : Main} {t : Token} (via via1 : List Ecc) (hr : t.replay = none) (hs : m.staysIn t = false) :
    m.tokenRoute t ⟨.uncorrectable, via, via1⟩ = (m.unsent t).countTokErr (m.routerOf t) true := by
  have hs' : (m.unsent t).staysIn t = false := hs
  unfold Main.unsent at hs'
  simp only [Main.tokenRoute, hs', Main.checkTok, hr, Main.rpDone, Bool.false_eq_true, if_false]
  rfl

/-- R41: a token whose CHECK is corrected is counted, and routed. -/
theorem Main.tokenRoute_corrected {m : Main} {t : Token} (via via1 : List Ecc) (hs : m.staysIn t = false) :
    m.tokenRoute t ⟨.corrected, via, via1⟩ = (m.countTokErr (m.routerOf t) false).tokenRoute t ⟨.ok, via, via1⟩ := by
  have hs' : (m.unsent t).staysIn t = false := hs
  rw [Main.tokenRoute_good, ← Main.countTokErr_unsent]
  unfold Main.unsent at hs' ⊢
  simp only [Main.tokenRoute, hs', Main.checkTok, Bool.false_eq_true, if_false, if_true]
  rfl

/-! ### At the die of its copy (R35, R36, R52) -/

section
variable {m : Main} {router e : Nat} {t : Token}

/-- The token is counted unless it stays in its tuft, and arrives. -/
theorem Main.deliver_active (h : m.dieState (plDie e t.side) = 1) :
    m.deliver router e t = (if router = 0 ∨ t.leaves (plDie e t.side) (plTuft e t.side) = true then m.bumpRouted router else m).arrive
      (fin8 (plDie e t.side)) (fin8 (plTuft e t.side)) t := by
  unfold Main.deliver
  simp only [h, Bool.or_eq_true, beq_iff_eq]
  rfl

/-- From the field die it leaves every tuft. -/
theorem Main.deliver_field (h : m.dieState (plDie e t.side) = 1) :
    m.deliver 0 e t = (m.bumpRouted 0).arrive (fin8 (plDie e t.side)) (fin8 (plTuft e t.side)) t :=
  (Main.deliver_active h).trans (by rw [if_pos (.inl rfl)])

theorem Main.deliver_isolated (h : m.dieState (plDie e t.side) = 2) (hp : plPaired e = false) :
    m.deliver router e t = m.tokFault t fcDieIsolated (plDie e t.side) 0 0 := by
  unfold Main.deliver
  simp only [h, hp, Bool.false_eq_true, if_false]

theorem Main.deliver_dormant (h : 4 ≤ m.dieState (plDie e t.side)) :
    m.deliver router e t = m.parkTok t fcDieDormant (plDie e t.side) 0 0 false := by
  unfold Main.deliver
  dsimp only
  split
  case h_5 => rfl
  all_goals omega

/-- On a way where every check is good, it is delivered. -/
theorem Main.carry_good {via : List Ecc} (h : ∀ c ∈ via, c = .ok) : m.carry router e t via = m.deliver router e t := by
  have hc : m.checkTok (if m.dieState (plDie e t.side) == 1 || m.dieState (plDie e t.side) == 3 then m.hops router (plDie e t.side) via else []) =
      (true, m) := by
    split
    · exact m.checkTok_hops_good _ _ h
    · rfl
  simp only [Main.carry, hc, if_true]

/-- To a die that takes no token it does not set out. -/
theorem Main.carry_stops (via : List Ecc) (h1 : m.dieState (plDie e t.side) ≠ 1) (h3 : m.dieState (plDie e t.side) ≠ 3) :
    m.carry router e t via = m.deliver router e t := by
  simp only [Main.carry, beq_false_of_ne h1, beq_false_of_ne h3, Bool.or_self, Bool.false_eq_true, if_false, Main.checkTok, if_true]

theorem Main.carry_isolated (via : List Ecc) (h : m.dieState (plDie e t.side) = 2) (hp : plPaired e = false) :
    m.carry router e t via = m.tokFault t fcDieIsolated (plDie e t.side) 0 0 :=
  (Main.carry_stops via (by omega) (by omega)).trans (Main.deliver_isolated h hp)

theorem Main.carry_dormant (via : List Ecc) (h : 4 ≤ m.dieState (plDie e t.side)) :
    m.carry router e t via = m.parkTok t fcDieDormant (plDie e t.side) 0 0 false :=
  (Main.carry_stops via (by omega) (by omega)).trans (Main.deliver_dormant h)

end

/-! ### The placement entry (R52, R53) -/

section
variable {m : Main} {router : Nat} {t : Token}

theorem Main.toCopy_sole (e : Nat) (h : m.sole t.ctx.toNat = true) : m.toCopy e t = false := by simp [Main.toCopy, h]

theorem Main.toCopy_delivered {e : Nat} (h : plPaired e = false ∨ t.copied = true) : m.toCopy e t = false := by
  rcases h with h | h <;> simp [Main.toCopy, h]

/-- R53: a token from outside the copies of a paired block is copied once. -/
theorem Main.toCopy_first {e : Nat} (hp : plPaired e = true) (hc : t.copied = false) (hs : m.sole t.ctx.toNat = false) : m.toCopy e t = true := by
  simp [Main.toCopy, hp, hc, hs]

theorem Main.routePlaced_invalid (io : RouteIo) (h : plValid (m.entryAt router t) = false) :
    m.routePlaced router t io = m.parkTok t fcNoPlacement (t.ia.extractLsb' 12 8).toNat t.odie t.otuft false := by
  unfold Main.entryAt at h
  simp only [Main.routePlaced, h, Bool.not_false, if_true]

theorem Main.routePlaced_copies (io : RouteIo) (hv : plValid (m.entryAt router t) = true) (hc : m.toCopy (m.entryAt router t) t = true) :
    m.routePlaced router t io = m.copyTok router (m.entryAt router t) t io := by
  unfold Main.entryAt at hv hc ⊢
  simp only [Main.routePlaced, hv, hc, Bool.not_true, Bool.false_eq_true, if_false, if_true]

variable (hv : plValid (m.entryAt router t) = true) (hc : m.toCopy (m.entryAt router t) t = false)
include hv hc

theorem Main.routePlaced_pairDrop (io : RouteIo) (hs : t.side = true) (hp : plPaired (m.entryAt router t) = false) (hr : t.replay = none) :
    m.routePlaced router t io = m.pairDrop router := by
  unfold Main.entryAt at hv hc hp
  simp only [Main.routePlaced, hv, hc, hs, hp, hr, Main.rpDone, Bool.not_true, Bool.not_false, Bool.and_self, Bool.false_eq_true, if_false, if_true]

theorem Main.routePlaced_carries (io : RouteIo) (hs : t.side = true → plPaired (m.entryAt router t) = true) :
    m.routePlaced router t io = m.carry router (m.entryAt router t) t io.via := by
  have hd : (t.side && !plPaired (m.entryAt router t)) = false := by
    cases h : t.side
    · rfl
    · simp [hs h]
  unfold Main.entryAt at hv hc hd ⊢
  simp only [Main.routePlaced, hv, hc, hd, Bool.not_true, Bool.false_eq_true, if_false]

end

/-! ### The first router (R44, R52) -/

section
variable {m : Main} {t : Token}

/-- R43: the fields of a token that are reserved. -/
def Token.badTag (t : Token) : Prop := 12 ≤ t.typ.toNat ∨ (49 ≤ t.wsel.toNat ∧ t.wsel.toNat ≤ 61)

theorem Token.not_badTag (htyp : t.typ.toNat < 12) (hwsel : t.wsel.toNat < 49 ∨ 61 < t.wsel.toNat) : ¬ t.badTag := by
  unfold Token.badTag
  omega

/-- R35: the token was not made on an isolated die. -/
theorem Main.not_madeIsolated (h : t.odie = 0 ∨ m.dieState t.odie.val ≠ 2) : ¬ (m.dieState t.odie.val = 2 ∧ t.odie ≠ 0) :=
  fun hi => h.elim hi.2 (· hi.1)

variable (io : RouteIo) (hodie : t.odie = 0 ∨ m.dieState t.odie.val ≠ 2)
include hodie

theorem Main.routeTok_dead (hdead : m.dead t.ctx.toNat = true) (hpass : t.pass = false) (hsole : m.sole t.ctx.toNat = false) (hr : t.replay = none) :
    m.routeTok t io = m.discard (m.routerOf t) := by
  have hiso := Main.not_madeIsolated hodie
  simp [Main.routeTok, hsole, hiso, hdead, hpass, hr, Main.rpDone]

variable (hdead : m.dead t.ctx.toNat = false)
include hdead

theorem Main.routeTok_badTag (hsole : m.sole t.ctx.toNat = false) (h : t.badTag) :
    m.routeTok t io = m.parkTok t fcBadTag (t.typ.toNat + 16 * t.wsel.toNat) t.odie t.otuft false := by
  have hiso := Main.not_madeIsolated hodie
  unfold Token.badTag at h
  simp only [Main.routeTok, hsole, hiso, hdead, h, Bool.false_and, Bool.false_eq_true, if_false, if_true]

variable (htag : ¬ t.badTag)
include htag

theorem Main.routeTok_placed (hsole : m.sole t.ctx.toNat = false) : m.routeTok t io = m.routePlaced (m.routerOf t) t io := by
  have hiso := Main.not_madeIsolated hodie
  unfold Token.badTag at htag
  simp only [Main.routeTok, hsole, hiso, hdead, htag, Bool.false_and, Bool.false_eq_true, if_false]

/-- R53: a token of a SOLE context goes to the copy of SIDE 0. -/
theorem Main.routeTok_sole (hsole : m.sole t.ctx.toNat = true) :
    m.routeTok t io = m.routePlaced (m.routerOf t) { t with side := false } io := by
  have hiso := Main.not_madeIsolated hodie
  unfold Token.badTag at htag
  simp only [Main.routeTok, hsole, hiso, hdead, htag, Bool.false_and, Bool.false_eq_true, if_false, if_true]

end

/-! ### TOKEN_ROUTE of a token whose CHECK is good -/

section
variable {m : Main} {t : Token} (via via1 : List Ecc) (hodie : t.odie = 0 ∨ m.dieState t.odie.val ≠ 2) (hdead : m.dead t.ctx.toNat = false)
variable (htyp : t.typ.toNat < 12) (hwsel : t.wsel.toNat < 49 ∨ 61 < t.wsel.toNat)
include hodie hdead htyp hwsel

theorem Main.tokenRoute_placed (hsole : m.sole t.ctx.toNat = false) :
    m.tokenRoute t ⟨.ok, via, via1⟩ = (m.unsent t).routePlaced (m.routerOf t) t ⟨.ok, via, via1⟩ :=
  (m.tokenRoute_good t via via1).trans (Main.routeTok_placed (m := m.unsent t) _ hodie hdead (Token.not_badTag htyp hwsel) hsole)

theorem Main.tokenRoute_sole (hsole : m.sole t.ctx.toNat = true) :
    m.tokenRoute t ⟨.ok, via, via1⟩ = (m.unsent t).routePlaced (m.routerOf t) { t with side := false } ⟨.ok, via, via1⟩ :=
  (m.tokenRoute_good t via via1).trans (Main.routeTok_sole (m := m.unsent t) _ hodie hdead (Token.not_badTag htyp hwsel) hsole)

/-- One that has a copy to go to, and is not to be copied, sets out to it. -/
theorem Main.tokenRoute_carried (hsole : m.sole t.ctx.toNat = false) (hv : plValid (m.entryAt (m.routerOf t) t) = true)
    (hcopy : plPaired (m.entryAt (m.routerOf t) t) = false ∨ t.copied = true)
    (hside : t.side = true → plPaired (m.entryAt (m.routerOf t) t) = true) :
    m.tokenRoute t ⟨.ok, via, via1⟩ = (m.unsent t).carry (m.routerOf t) (m.entryAt (m.routerOf t) t) t via :=
  (Main.tokenRoute_placed via via1 hodie hdead htyp hwsel hsole).trans
    (Main.routePlaced_carries (m := m.unsent t) hv (Main.toCopy_delivered hcopy) _ hside)

end

/-! ### The two copies of a paired block (R53) -/

theorem plDie_lt (e : Nat) (side : Bool) : plDie e side < 8 := by
  cases side <;> exact Nat.mod_lt _ (by decide)

/-- The counts of the field die's router are none of the states of the dies. -/
theorem Main.bumpRouted_field_dieState (m : Main) {d : Nat} (hd : d < 8) : (m.bumpRouted 0).dieState d = m.dieState d := by
  have hkey : (F.MODE_DIE_STATE d).key ≠ F.FROUTER_STATS_ROUTED.key := by
    simp only [Fld.key, F.MODE_DIE_STATE, F.FROUTER_STATS_ROUTED]
    omega
  have hget : (m.bumpRouted 0).get (F.MODE_DIE_STATE d) = m.get (F.MODE_DIE_STATE d) := m.get_set_other _ hkey
  unfold Main.dieState
  rw [hget]
  rfl

/-- A token that the field die copies, on ways where every check is good, is carried to both copies. -/
theorem Main.copyTok_field (m : Main) (e : Nat) (t : Token) {io : RouteIo} (h : ∀ c ∈ io.via ++ io.via1, c = .ok) :
    m.copyTok 0 e t io = (m.deliver 0 e { t with side := false, copied := true }).deliver 0 e { t with side := true, copied := true, replay := none } := by
  have hvia : ∀ c ∈ io.via, c = .ok := fun c hc => h c (List.mem_append_left _ hc)
  have hvia1 : ∀ c ∈ io.via1, c = .ok := fun c hc => h c (List.mem_append_right _ hc)
  simp only [Main.copyTok, if_true, Main.checkTok, List.length_nil, List.drop_zero, Main.carry_good hvia, Main.carry_good hvia1]

/-! ### The statement -/

/-- Settles O4: each outcome through what the first router does with the token, the entry that it finds there, and the die that the entry names. -/
theorem tokenRouted : Obligations.TokenRouted := by
  unfold Obligations.TokenRouted
  refine ⟨?arrives, ?copied, ?badCheck, ?dead, ?stopped, ?corrected, ?sole⟩
  case arrives =>
    intro s t via via1 hio ⟨hsole, hdead, hodie, htyp, hwsel, hv, hside, hdie⟩ e hcopy n
    have hvia : ∀ c ∈ via, c = .ok := fun c hc => hio c (List.mem_append_left _ hc)
    rw [does_tokenRoute, Main.tokenRoute_carried via via1 hodie hdead htyp hwsel hsole hv hcopy hside, Main.carry_good hvia]
    exact Main.deliver_active (m := s.main.unsent t) hdie
  case copied =>
    intro s t via via1 hio h0 hcopied e t0 t1 ⟨hsole, hdead, hodie, htyp, hwsel, hv, _, hdie0⟩ ⟨_, _, _, _, _, _, _, hdie1⟩ hp a
    have hr : s.main.routerOf t = 0 := Main.routerOf_field h0
    have hr0 : s.main.routerOf t0 = 0 := hr
    have hr1 : s.main.routerOf t1 = 0 := hr
    rw [hr0] at hv hdie0
    rw [hr1] at hdie1
    have hc : (s.main.unsent t).toCopy e t = true := Main.toCopy_first hp hcopied hsole
    have hdie : a.dieState (plDie e t1.side) = 1 := ((s.main.unsent t).bumpRouted_field_dieState (plDie_lt e _)).trans hdie1
    rw [does_tokenRoute, Main.tokenRoute_placed (t := t) via via1 hodie hdead htyp hwsel hsole, hr]
    calc (s.main.unsent t).routePlaced 0 t ⟨.ok, via, via1⟩
      _ = (s.main.unsent t).copyTok 0 e t ⟨.ok, via, via1⟩ := Main.routePlaced_copies (m := s.main.unsent t) _ hv hc
      _ = ((s.main.unsent t).deliver 0 e t0).deliver 0 e t1 := Main.copyTok_field _ _ _ hio
      _ = a.deliver 0 e t1 := congrArg (Main.deliver · 0 e t1) (Main.deliver_field (m := s.main.unsent t) (t := t0) hdie0)
      _ = (a.bumpRouted 0).arrive (fin8 (plDie e true)) (fin8 (plTuft e true)) t1 := Main.deliver_field hdie
  case badCheck => exact fun s t via via1 hr hs => does_tokenRoute.2 (Main.tokenRoute_uncorrectable via via1 hr hs)
  case dead =>
    intro s t via via1 _ hr hdead hpass hsole hodie
    rw [does_tokenRoute, Main.tokenRoute_good]
    exact Main.routeTok_dead (m := s.main.unsent t) _ hodie hdead hpass hsole hr
  case stopped =>
    intro s t via via1 hsole hdead hodie e n
    refine ⟨fun htag => ?badTag, fun htyp hwsel => ⟨fun hv => ?unplaced, fun hv hp hside hr => ?dropped, fun hv hp hside hdie => ?isolated,
      fun hv hcopy hside hdie => ?dormant⟩⟩
    case badTag => exact does_tokenRoute.2 ((s.main.tokenRoute_good t via via1).trans (Main.routeTok_badTag (m := n) _ hodie hdead hsole htag))
    case unplaced =>
      rw [does_tokenRoute, Main.tokenRoute_placed via via1 hodie hdead htyp hwsel hsole]
      exact Main.routePlaced_invalid (m := n) _ hv
    case dropped =>
      rw [does_tokenRoute, Main.tokenRoute_placed via via1 hodie hdead htyp hwsel hsole]
      exact Main.routePlaced_pairDrop (m := n) hv (Main.toCopy_delivered (.inl hp)) _ hside hp hr
    case isolated =>
      have hside' : t.side = true → plPaired e = true := fun h => absurd (hside.symm.trans h) (by decide)
      rw [← hside] at hdie ⊢
      rw [does_tokenRoute, Main.tokenRoute_carried via via1 hodie hdead htyp hwsel hsole hv (.inl hp) hside']
      exact Main.carry_isolated (m := n) via hdie hp
    case dormant =>
      rw [does_tokenRoute, Main.tokenRoute_carried via via1 hodie hdead htyp hwsel hsole hv hcopy hside]
      exact Main.carry_dormant (m := n) via hdie
  case corrected =>
    intro s t via via1 m hs
    rw [does_tokenRoute, does_tokenRoute, Main.tokenRoute_corrected via via1 hs]
  case sole =>
    intro s t via via1 hvia hsole hdead hodie htyp hwsel e hv hdie n
    rw [does_tokenRoute, Main.tokenRoute_sole via via1 hodie hdead htyp hwsel hsole]
    calc (s.main.unsent t).routePlaced (s.main.routerOf t) { t with side := false } ⟨.ok, via, via1⟩
      _ = (s.main.unsent t).carry (s.main.routerOf t) e { t with side := false } via :=
        Main.routePlaced_carries (m := s.main.unsent t) (t := { t with side := false }) hv (Main.toCopy_sole e hsole) _ nofun
      _ = (s.main.unsent t).deliver (s.main.routerOf t) e { t with side := false } := Main.carry_good hvia
      _ = n.arrive (fin8 (plDie e false)) (fin8 (plTuft e false)) { t with side := false } := Main.deliver_active (m := s.main.unsent t) hdie

end Sys2Proof.Machine
end

section
/-! SUPPORT. The reference bus and the weirs (R26, R27, R206 to R213, R226, R228): what each command does in each of its cases, and the statement
over them. -/

namespace Sys2Proof.Machine

section
variable {s : State} {m : Main}

theorem does_refbusFrameSend : Does .refbusFrameSend s m ↔ s.main.frameSend = m := does_iff Main.frameSend rfl

theorem does_refbusFrameReceive {die tuft : Fin 8} {crc : Bool} :
    Does (.refbusFrameReceive die tuft crc) s m ↔ s.main.frameReceive die tuft crc = m :=
  does_iff (fun m => m.frameReceive die tuft crc) rfl

theorem does_weirTimeout {die tuft : Fin 8} {t : Token} : Does (.weirTimeout die tuft t) s m ↔ s.main.weirTimeout die tuft t = m :=
  does_iff (fun m => m.weirTimeout die tuft t) rfl

end

/-! ### The field die sends a frame (R26, R226) -/

/-- A changeover that is due comes first. -/
theorem Main.frameSend_waits {m : Main} (h : m.chgsDue = true) : m.frameSend = m := if_pos h

/-- The frame that the field die sends next. -/
def Main.nextFrame (m : Main) : BusFrame :=
  { seq := (m.ref.frame.seq + 1) % 2 ^ 16, pos := (List.range 48).map (fun i => m.refPos (i + 1)),
    dirn := (List.range 48).map (fun i => (m.refSt (i + 1)).dir), counts := m.ref.commits }

theorem Main.frameSend_sends {m : Main} (h : m.chgsDue = false) :
    m.frameSend = Main.set { m with ref := { m.ref with frame := m.nextFrame } } F.REFBUS_BUS_SEQ ((m.ref.frame.seq + 1) % 2 ^ 16) := by
  simp only [Main.frameSend, h, Bool.false_eq_true, if_false, List.map_map]
  rfl

/-! ### A tuft receives a frame (R27, R206, R226) -/

/-- What a tuft holds of the bus once it has taken the frame. -/
def Main.takeFrame (m : Main) (die tuft : Fin 8) : Main :=
  let f := m.ref.frame
  m.putBus { m.bus die tuft with bad := 0, hold := false, seq := some ((f.seq + 1) % 2 ^ 16), pos := f.pos, dirn := f.dirn, counts := f.counts }

section
variable {m : Main} {die tuft : Fin 8} (hc : m.compute die.val = true) (hl : m.dieLive die.val = true)
include hc hl

/-- A frame that the tuft expects is taken, the commits that it shows are applied, and the weir is evaluated. -/
theorem Main.frameReceive_expected (hseq : (m.bus die tuft).seq = none ∨ (m.bus die tuft).seq = some m.ref.frame.seq) :
    m.frameReceive die tuft true =
      (((List.range 4).filter (fun k => m.ref.frame.counts.getD k 0 != (m.bus die tuft).counts.getD k 0)).foldl
        (fun m k => m.tuftCommit die tuft k) (m.takeFrame die tuft)).weirEval die tuft := by
  have hok : ¬ ((m.bus die tuft).seq.isSome = true ∧ (m.bus die tuft).seq ≠ some m.ref.frame.seq) := by
    rintro ⟨hs, hn⟩
    rcases hseq with h | h
    · simp [h] at hs
    · exact hn h
  simp only [Main.frameReceive, hc, hl, hok, Bool.and_self, Bool.not_true, Bool.false_eq_true, if_false]
  rfl

/-- R27: any other frame is counted; the tuft expects the one that follows it. -/
theorem Main.frameReceive_unexpected (hs : (m.bus die tuft).seq ≠ none) (hn : (m.bus die tuft).seq ≠ some m.ref.frame.seq) :
    m.frameReceive die tuft true = m.badFrame die tuft { m.bus die tuft with seq := some ((m.ref.frame.seq + 1) % 2 ^ 16) } := by
  have hbad : (m.bus die tuft).seq.isSome = true ∧ (m.bus die tuft).seq ≠ some m.ref.frame.seq := ⟨Option.isSome_iff_ne_none.2 hs, hn⟩
  simp only [Main.frameReceive, hc, hl, hbad, Bool.and_self, Bool.not_true, Bool.false_eq_true, if_false, if_true, not_false_eq_true, and_self, ne_eq]

/-- R27: a frame whose CRC is bad is counted. -/
theorem Main.frameReceive_badCrc :
    m.frameReceive die tuft false = m.badFrame die tuft { m.bus die tuft with seq := (m.bus die tuft).seq.map (fun n => (n + 1) % 2 ^ 16) } := by
  simp only [Main.frameReceive, hc, hl, Bool.and_self, Bool.not_true, Bool.not_false, Bool.false_eq_true, if_false, if_true]

end

theorem Main.badFrame_counts (m : Main) (die tuft : Fin 8) {b : TuftBus} (h : b.bad + 1 < 3) :
    m.badFrame die tuft b = (m.putBus { b with bad := b.bad + 1, hold := false }).raiseEvent 10 die.val die.val tuft.val false := by
  simp only [Main.badFrame, decide_eq_false (Nat.not_le.2 h), Bool.false_eq_true, if_false]

theorem Main.badFrame_holds (m : Main) (die tuft : Fin 8) {b : TuftBus} (h : 3 ≤ b.bad + 1) :
    m.badFrame die tuft b = ((m.putBus { b with bad := b.bad + 1, hold := true }).bump (F.TUFT_WEIRREL_HOLDS die.val tuft.val)).raiseEvent 10
      die.val die.val tuft.val true := by
  simp only [Main.badFrame, decide_eq_true h, if_true]

/-- Numbers below a bound of which one alone has a property. -/
theorem filter_range_single {n k : Nat} {p : Nat → Bool} (hk : k < n) (hp : p k = true) (ho : ∀ j, j < n → j ≠ k → p j = false) :
    (List.range n).filter p = [k] := by
  induction n with
  | zero => exact absurd hk (Nat.not_lt_zero k)
  | succ n ih =>
    rw [List.range_succ, List.filter_append]
    rcases Nat.lt_succ_iff_lt_or_eq.1 hk with hlt | rfl
    · have hn : p n = false := ho n (Nat.lt_succ_self n) (Nat.ne_of_gt hlt)
      rw [ih hlt fun j hj => ho j (Nat.lt_succ_of_lt hj), List.filter_cons_of_neg (Bool.eq_false_iff.1 hn), List.filter_nil, List.append_nil]
    · have hnone : (List.range k).filter p = [] := List.filter_eq_nil_iff.2 fun j hj =>
        Bool.eq_false_iff.1 (ho j (Nat.lt_succ_of_lt (List.mem_range.1 hj)) (Nat.ne_of_lt (List.mem_range.1 hj)))
      rw [hnone, List.filter_cons_of_pos hp, List.filter_nil, List.nil_append]

/-! ### The weir (R206 to R208) -/

theorem Main.releaseCrossed_late (m : Main) {w : WeirTok} (h : w.seen = none) :
    m.releaseCrossed w = (m.arrive w.die w.tuft { w.tok with wsel := 63, released := true }).bump (F.TUFT_WEIROCC_LATES w.die.val w.tuft.val) := by
  unfold Main.releaseCrossed
  rw [h]
  rfl

theorem Main.releaseCrossed_crossed (m : Main) {w : WeirTok} (h : w.seen ≠ none) :
    m.releaseCrossed w = (m.arrive w.die w.tuft { w.tok with released := true }).bump (F.TUFT_WEIRREL_RELEASED w.die.val w.tuft.val) := by
  unfold Main.releaseCrossed
  rw [if_neg (by simpa using h)]
  rfl

/-- A single token whose condition holds leaves. -/
theorem Main.weirEval_one {m : Main} {w : WeirTok} (hw : m.tuft.weir = [w]) (h : m.weirHolds w = true) :
    m.weirEval w.die w.tuft = Main.releaseCrossed { m with tuft := { m.tuft with weir := [] } } w := by
  simp [Main.weirEval, hw, h, insRelease]

/-- A single token that has been evaluated before, and whose condition does not hold, stays. -/
theorem Main.weirEval_stays {m : Main} {w : WeirTok} {b : Bool} (hw : m.tuft.weir = [w]) (h : m.weirHolds w = false) (hs : w.seen = some b) :
    m.weirEval w.die w.tuft = m := by
  have hm : ({ m with tuft := { m.tuft with weir := [w] } } : Main) = m := by rw [← hw]
  simpa [Main.weirEval, hw, h, hs] using hm

/-- R208: of two tokens of one reference whose conditions hold, the one whose stamp comes first along the direction of travel leaves first. -/
theorem Main.weirEval_two {m : Main} {v w : WeirTok} (hw : m.tuft.weir = [v, w]) (hd : v.die = w.die) (ht : v.tuft = w.tuft)
    (hr : v.tok.wsel = w.tok.wsel) (hv : m.weirHolds v = true) (h : m.weirHolds w = true)
    (hb : stampBefore (m.travelUp w.tok.wsel.toNat) w.tok.stamp.toNat v.tok.stamp.toNat = true) :
    m.weirEval w.die w.tuft = (Main.releaseCrossed { m with tuft := { m.tuft with weir := [] } } w).releaseCrossed v := by
  simp [Main.weirEval, hw, hd, ht, hr, hv, h, hb, insRelease]

/-! ### Tokens whose time is over (R210, R213) -/

/-- A token leaves its weir when its time is over. -/
def Main.timedOut (m : Main) (w : WeirTok) : Main :=
  Main.bump { m with tuft := { m.tuft with weir := m.tuft.weir.erase w } } (F.TUFT_WEIRREL_TIMEOUTS w.die.val w.tuft.val)

section
variable {m : Main} {w : WeirTok} (hw : m.tuft.weir.find? (fun x => x.die == w.die && x.tuft == w.tuft && x.tok == w.tok) = some w)
include hw

/-- A token without a time, or whose condition holds, stays where it is. -/
theorem Main.weirTimeout_stays (h : m.get (F.REF_WEIR_TMO w.tok.wsel.toNat) = 0 ∨ m.weirHolds w = true) :
    m.weirTimeout w.die w.tuft w.tok = m := by
  simp only [Main.weirTimeout, hw]
  exact if_pos (h.imp_right fun h => .inr (.inr h))

variable (h0 : m.get (F.REF_WEIR_TMO w.tok.wsel.toNat) ≠ 0)
variable (ht : w.entered + m.get (F.REF_WEIR_TMO w.tok.wsel.toNat) * 1000 ≤ m.now) (hb : (m.bus w.die w.tuft).hold = false)
variable (h : m.weirHolds w = false)
include h0 ht hb h

theorem Main.weirTimeout_over : m.weirTimeout w.die w.tuft w.tok =
    if (m.timedOut w).flag (F.REF_WEIR_TMOACT w.tok.wsel.toNat) = true then
      (m.timedOut w).parkTok w.tok fcWeirTimeout w.tok.wsel.toNat w.die w.tuft false
    else (m.timedOut w).arrive w.die w.tuft { w.tok with wsel := 62, released := true } := by
  have hover : ¬ (m.get (F.REF_WEIR_TMO w.tok.wsel.toNat) = 0 ∨ m.now < w.entered + m.get (F.REF_WEIR_TMO w.tok.wsel.toNat) * 1000 ∨
      (m.bus w.die w.tuft).hold = true ∨ m.weirHolds w = true) := by
    simp only [h0, Nat.not_lt.2 ht, hb, h, Bool.false_eq_true, or_self, not_false_eq_true]
  simp only [Main.weirTimeout, hw, hover, if_false]
  rfl

end

/-! ### What a block that has moved leaves (R228) -/

/-- A store entry goes on as one token per operand, under its key and to the port of the operand. -/
theorem MsEntry.mem_tokens {e : MsEntry} {t : Token} (h : t ∈ e.tokens) :
    (t.ctx, t.frame, t.ia, t.side) = (e.ctx, e.frame, e.ia, e.side) ∧ t.wsel = 0 ∧
    ((t.port = 0 ∧ e.left = some ⟨t.value, t.typ⟩) ∨ (t.port = 1 ∧ e.right = some ⟨t.value, t.typ⟩) ∨
      (t.port = 3 ∧ e.third = some ⟨t.value, t.typ⟩)) := by
  simp only [MsEntry.tokens, List.mem_append, List.mem_map, Option.mem_toList] at h
  rcases h with (⟨o, ho, rfl⟩ | ⟨o, ho, rfl⟩) | ⟨o, ho, rfl⟩
  · exact ⟨rfl, rfl, .inl ⟨rfl, ho⟩⟩
  · exact ⟨rfl, rfl, .inr (.inl ⟨rfl, ho⟩)⟩
  · exact ⟨rfl, rfl, .inr (.inr ⟨rfl, ho⟩)⟩

/-- A ready entry goes on as one token per operand that came as a token. -/
theorem Firing.mem_tokens {f : Firing} {t : Token} (h : t ∈ f.tokens) :
    (t.ctx, t.frame, t.ia, t.side) = (f.ctx, f.frame, f.ia, f.side) ∧ t.wsel = 0 ∧
    (((t.port = 0 ∨ t.port = 2) ∧ f.pres.getLsbD 0 = true ∧ f.left = ⟨t.value, t.typ⟩) ∨
      (t.port = 1 ∧ f.pres.getLsbD 1 = true ∧ f.right = ⟨t.value, t.typ⟩) ∨ (t.port = 3 ∧ f.pres.getLsbD 2 = true ∧ f.third = ⟨t.value, t.typ⟩)) := by
  simp only [Firing.tokens, List.mem_append, List.mem_ite_nil_right, List.mem_singleton] at h
  rcases h with (⟨hp, rfl⟩ | ⟨hp, rfl⟩) | ⟨hp, rfl⟩
  · refine ⟨rfl, rfl, .inl ⟨?_, hp, rfl⟩⟩
    dsimp only
    split
    · exact .inr rfl
    · exact .inl rfl
  · exact ⟨rfl, rfl, .inr (.inl ⟨rfl, hp, rfl⟩)⟩
  · exact ⟨rfl, rfl, .inr (.inr ⟨rfl, hp, rfl⟩)⟩

/-! ### The statement -/

/-- Settles O35: each frame, evaluation and timeout by the lemma for its case. -/
theorem busAndWeirs : Obligations.BusAndWeirs := by
  unfold Obligations.BusAndWeirs
  refine ⟨?waits, ?sends, ?receives, ?leaves, ?stays, ?order, ?timeout, ?entry, ?firing⟩
  case waits => exact fun s h => does_refbusFrameSend.2 (Main.frameSend_waits h)
  case sends => exact fun s h => does_refbusFrameSend.2 (Main.frameSend_sends h)
  case receives =>
    intro s die tuft hc hl b f
    refine ⟨fun hseq hsame => ?expected, fun k hk hseq hnew hsame i hi => ?commit, fun hs hn hbad => ?unexpected, fun hbad => ?badCrc⟩
    case expected =>
      have hnone : (List.range 4).filter (fun k => f.counts.getD k 0 != b.counts.getD k 0) = [] :=
        List.filter_eq_nil_iff.2 fun k hk => by simpa using hsame k (List.mem_range.1 hk)
      rw [does_refbusFrameReceive, Main.frameReceive_expected hc hl hseq, hnone]
      rfl
    case commit =>
      have hone : (List.range 4).filter (fun k => f.counts.getD k 0 != b.counts.getD k 0) = [k] :=
        filter_range_single hk (bne_iff_ne.2 hnew) fun j hj hne => by simpa using hsame j hj hne
      have hmoved : ((s.main.takeFrame die tuft).chg k).moved = [i] := hi
      rw [does_refbusFrameReceive, Main.frameReceive_expected hc hl hseq, hone, List.foldl_cons, List.foldl_nil, Main.tuftCommit, hmoved]
      rfl
    case unexpected =>
      rw [does_refbusFrameReceive, Main.frameReceive_unexpected hc hl hs hn]
      exact Main.badFrame_counts _ _ _ hbad
    case badCrc =>
      rw [does_refbusFrameReceive, Main.frameReceive_badCrc hc hl]
      exact Main.badFrame_holds _ _ _ hbad
  case leaves =>
    intro m w hw h n
    rw [Main.weirEval_one hw h]
    split
    · next hs => exact Main.releaseCrossed_late _ hs
    · next hs => exact Main.releaseCrossed_crossed _ hs
  case stays => exact fun m w b hw h hs => Main.weirEval_stays hw h hs
  case order => exact fun m v w hw hd ht hr hv h hb => Main.weirEval_two hw hd ht hr hv h hb
  case timeout =>
    intro s w hw r n
    refine ⟨fun h0 ht hb h hact => ?_, fun h0 ht hb h hact => ?_, fun h => does_weirTimeout.2 (Main.weirTimeout_stays hw h)⟩
    · exact does_weirTimeout.2 ((Main.weirTimeout_over hw h0 ht hb h).trans (if_neg (Bool.eq_false_iff.1 hact)))
    · exact does_weirTimeout.2 ((Main.weirTimeout_over hw h0 ht hb h).trans (if_pos hact))
  case entry => exact fun e t h => MsEntry.mem_tokens h
  case firing => exact fun f t h => Firing.mem_tokens h

end Sys2Proof.Machine
end

section
/-! SUPPORT. The ends of a culvert and its flits (R21, R22, R324 to R326): what an end holds after an update, what the flit word carries, and what
the receiver of a flit does. -/

namespace Sys2Proof.Machine

/-! ### Links and their ends (R21, R22) -/

/-- Each end of a link names the other one, on another die. -/
theorem Part.partnerPort_symm {q : Part} {d p a pa : Nat} (hd : d < 8) (hp : p < 8) (h : q.partnerPort d p = some (a, pa)) :
    q.partnerPort a pa = some (d, p) ∧ a ≠ d := by
  have hall : ∀ (d p : Fin 8), (q.partnerPort d.val p.val).all
      (fun x => q.partnerPort x.1 x.2 == some (d.val, p.val) && x.1 != d.val) = true := by
    cases q <;> decide
  simpa [h] using hall ⟨d, hd⟩ ⟨p, hp⟩

theorem Main.culvEnd_at (m : Main) (d p : Nat) : (m.culvEnd d p).die = d ∧ (m.culvEnd d p).port = p := by
  unfold Main.culvEnd
  cases h : m.culvs.find? (fun e => e.die == d && e.port == p) with
  | none => exact ⟨rfl, rfl⟩
  | some e => simpa using List.find?_some h

/-- An end reads back as it has been stored. -/
theorem Main.culvEnd_putEnd_same (m : Main) {e : CulvEnd} {d p : Nat} (hd : e.die = d) (hp : e.port = p) : (m.putEnd e).culvEnd d p = e := by
  subst hd hp
  have hnone : (m.culvs.filter (fun x => x.die != e.die || x.port != e.port)).find? (fun x => x.die == e.die && x.port == e.port) = none := by
    rw [List.find?_eq_none]
    intro x hx
    have hne := (List.mem_filter.1 hx).2
    simp only [Bool.or_eq_true, bne_iff_ne] at hne
    simp only [Bool.and_eq_true, beq_iff_eq]
    exact fun heq => hne.elim (· heq.1) (· heq.2)
  simp [Main.culvEnd, Main.putEnd, List.find?_append, hnone]

/-- Every other end stays. -/
theorem Main.culvEnd_putEnd_other (m : Main) {e : CulvEnd} {d p : Nat} (h : (d, p) ≠ (e.die, e.port)) :
    (m.putEnd e).culvEnd d p = m.culvEnd d p := by
  have hkeep : (m.culvs.filter (fun x => x.die != e.die || x.port != e.port)).find? (fun x => x.die == d && x.port == p) =
      m.culvs.find? (fun x => x.die == d && x.port == p) := by
    rw [List.find?_filter]
    congr 1
    funext x
    by_cases hx : x.die = d ∧ x.port = p
    · obtain ⟨rfl, rfl⟩ := hx
      have hne : x.die ≠ e.die ∨ x.port ≠ e.port := Decidable.not_and_iff_not_or_not.1 fun heq => h (Prod.ext heq.1 heq.2)
      rcases hne with hne | hne <;> simp [hne]
    · have hx' : (x.die == d && x.port == p) = false := by simpa using hx
      simp [hx']
  have hlast : (e.die == d && e.port == p) = false := by
    rw [Bool.eq_false_iff]
    simp only [ne_eq, Bool.and_eq_true, beq_iff_eq]
    rintro ⟨rfl, rfl⟩
    exact h rfl
  simp [Main.culvEnd, Main.putEnd, List.find?_append, hkeep, hlast]

@[simp] theorem Main.atEnd_bump_culvEnd (m : Main) (x : Nat) (f : Fld) (d p : Nat) : (m.atEnd x (fun m => m.bump f)).culvEnd d p = m.culvEnd d p := by
  unfold Main.atEnd
  split <;> rfl

/-! ### The flit word (R324, log 103) -/

theorem Flit.word_low (f : Flit) (seq ack : Nat) :
    (f.word seq ack).setWidth 16 = BitVec.ofNat 16 (seq % 256 + f.vc.toNat * 256 + ack % 64 * 1024) :=
  BitVec.setWidth_append_eq_right

/-- A flit that arrives as it was sent has a good CRC. -/
theorem Flit.word_crc (f : Flit) (seq ack : Nat) : flitCrc f.payload ((f.word seq ack).setWidth 16) = (f.word seq ack).extractLsb' 16 16 := by
  rw [Flit.word_low]
  simp only [Flit.word]
  exact (BitVec.extractLsb'_append_eq_left ..).symm

theorem Flit.word_toNat_mod (f : Flit) (seq ack : Nat) :
    (f.word seq ack).toNat % 65536 = seq % 256 + f.vc.toNat * 256 + ack % 64 * 1024 := by
  have hlow := congrArg BitVec.toNat (f.word_low seq ack)
  rw [BitVec.toNat_setWidth, BitVec.toNat_ofNat] at hlow
  have hvc := f.vc.isLt
  omega

/-- The flit word carries SEQ in bits [7:0]. -/
theorem Flit.word_seq (f : Flit) {seq : Nat} (ack : Nat) (h : seq < 256) : bitsOf (f.word seq ack).toNat 0 8 = seq := by
  have hw := f.word_toNat_mod seq ack
  unfold bitsOf
  omega

/-- The flit word carries ACK in bits [15:10]. -/
theorem Flit.word_ack (f : Flit) (seq ack : Nat) : bitsOf (f.word seq ack).toNat 10 6 = ack % 64 := by
  have hw := f.word_toNat_mod seq ack
  have hvc := f.vc.isLt
  unfold bitsOf
  omega

/-- Payload bytes of which no bit is wrong. -/
theorem zipWith_xor_zeros {n : Nat} {l : List (BitVec 8)} (h : l.length = n) :
    List.zipWith (fun x y => x ^^^ y) l (List.replicate n 0) = l := by
  subst h
  induction l with
  | nil => rfl
  | cons x l ih =>
    rw [List.length_cons, List.replicate_succ, List.zipWith_cons_cons, ih]
    exact congrArg (· :: l) BitVec.xor_zero

/-! ### Flits (R324 to R326) -/

/-- The end (a, pa) with a new flit of its own: it keeps the flit until it is acknowledged. -/
def Main.sentEnd (m : Main) (a pa : Nat) (f : Flit) : CulvEnd :=
  let e := m.culvEnd a pa
  { e with seq := (e.seq + 1) % 256, buf := e.buf ++ [(e.seq, f)] }

/-- The end (a, pa) has put a new flit on the link. -/
def Main.flitSent (m : Main) (a pa : Nat) (f : Flit) : Main :=
  (m.putEnd (m.sentEnd a pa f)).atEnd a fun m => m.bump (F.CULV_TXFLITS_COUNT a pa)

theorem Main.flitSent_sender_rx (m : Main) (a pa : Nat) (f : Flit) : ((m.flitSent a pa f).culvEnd a pa).rx = (m.culvEnd a pa).rx := by
  obtain ⟨hd, hp⟩ := m.culvEnd_at a pa
  rw [Main.flitSent, Main.atEnd_bump_culvEnd, Main.culvEnd_putEnd_same (e := m.sentEnd a pa f) _ hd hp]
  rfl

/-- The sender's end alone changes. -/
theorem Main.flitSent_other (m : Main) {a pa d p : Nat} (f : Flit) (h : (a, pa) ≠ (d, p)) : (m.flitSent a pa f).culvEnd d p = m.culvEnd d p := by
  obtain ⟨hd, hp⟩ := m.culvEnd_at a pa
  rw [Main.flitSent, Main.atEnd_bump_culvEnd, Main.culvEnd_putEnd_other]
  simpa only [Main.sentEnd, hd, hp] using h.symm

theorem Main.flitSend_new {m : Main} {a pa : Nat} (d p : Nat) {f : Flit} (hr : (m.culvEnd a pa).replaying = false)
    (hb : (m.culvEnd a pa).buf.length < 64) (hl : f.payload.length = 64) (hv : f.vcOk = true) :
    m.flitSend a pa d p (some f) = some ((m.culvEnd a pa).seq, f, m.flitSent a pa f) := by
  have hok : ((m.culvEnd a pa).replaying || decide (64 ≤ (m.culvEnd a pa).buf.length) || f.payload.length != 64 || !f.vcOk) = false := by
    simp [hr, hb, hl, hv]
  simp only [Main.flitSend, hok, Bool.false_eq_true, if_false]
  rfl

/-- R325: tokens on a virtual channel other than 0 are not sent. -/
theorem Main.flitSend_wrongVc (m : Main) (a pa d p : Nat) {f : Flit} (ht : f.toks ≠ []) (hv : f.vc ≠ 0) :
    m.flitSend a pa d p (some f) = none := by
  have hbad : f.vcOk = false := Bool.or_eq_false_iff.2 ⟨List.isEmpty_eq_false_iff.2 ht, beq_false_of_ne hv⟩
  simp [Main.flitSend, hbad]

section
variable {s : State} {d p : Fin 8} {a pa : Nat} (hp : s.main.hw.part.partnerPort d.val p.val = some (a, pa))
variable (hst : s.main.linkState d.val p.val a pa = 2 ∨ s.main.linkState d.val p.val a pa = 3)
variable {o : Option Flit} {q : Nat} {f : Flit} {n : Main} (hn : s.main.flitSend a pa d.val p.val o = some (q, f, n))
variable {w : BitVec 32} {bs : List (BitVec 8)} {ack : Bool}
include hp hst hn

/-- A flit whose CRC is bad on arrival is counted, and asked for again. -/
theorem does_culvertFlitReceive_badCrc
    (hc : flitCrc (List.zipWith (fun x y => x ^^^ y) f.payload (bs ++ List.replicate 64 0)) ((f.word q ((n.culvEnd a pa).rx + 63) ^^^ w).setWidth 16) ≠
      (f.word q ((n.culvEnd a pa).rx + 63) ^^^ w).extractLsb' 16 16) :
    Does (.culvertFlitReceive d p o w bs ack) s (((n.putEnd { n.culvEnd a pa with asked := true }).atEnd d.val
      (fun m => m.bump (F.CULV_ERR_CRCERR d.val p.val))).linkEvent 21 d.val p.val a false) := by
  have hup : ¬ (s.main.linkState d.val p.val a pa ≠ 2 ∧ s.main.linkState d.val p.val a pa ≠ 3) :=
    fun hne => hst.elim hne.1 hne.2
  show execCulvertFlitReceive d p o w bs ack s = _
  simp only [execCulvertFlitReceive, State.onMain_eq, hp, hup, hn, hc, ne_eq, not_false_eq_true, if_false, if_true]

/-- A flit that arrives as it was sent, with the SEQ that the receiver expects, is passed on. -/
theorem does_culvertFlitReceive_good (hl : f.payload.length = 64) (hq : q < 256) (hrx : (n.culvEnd d.val p.val).rx = q) :
    Does (.culvertFlitReceive d p o 0 [] ack) s (n.flitGood d.val p.val a pa q (((n.culvEnd a pa).rx + 63) % 64) ack) := by
  have hup : ¬ (s.main.linkState d.val p.val a pa ≠ 2 ∧ s.main.linkState d.val p.val a pa ≠ 3) :=
    fun hne => hst.elim hne.1 hne.2
  have hw : ∀ k, f.word q k ^^^ 0 = f.word q k := fun k => BitVec.xor_zero
  show execCulvertFlitReceive d p o 0 [] ack s = _
  simp only [execCulvertFlitReceive, State.onMain_eq, hp, hup, hn, hw, List.nil_append, zipWith_xor_zeros hl, f.word_crc, f.word_seq _ hq,
    f.word_ack, hrx, ne_eq, not_true_eq_false, if_false]

end

/-- What is not sent changes nothing. -/
theorem does_culvertFlitReceive_nothing {s : State} {d p : Fin 8} {o : Option Flit} {w : BitVec 32} {bs : List (BitVec 8)} {ack : Bool}
    (hn : ∀ a pa, s.main.flitSend a pa d.val p.val o = none) : Does (.culvertFlitReceive d p o w bs ack) s s.main := by
  show execCulvertFlitReceive d p o w bs ack s = _
  cases hp : s.main.hw.part.partnerPort d.val p.val with
  | none => simp only [execCulvertFlitReceive, State.onMain_eq, hp]
  | some x => simp only [execCulvertFlitReceive, State.onMain_eq, hp, hn, ite_self]

end Sys2Proof.Machine
end

section
/-! SUPPORT. Culverts that go down, resync, train and are given up (R327 to R332): what each command does in each of its cases, and the statement over
them. -/

namespace Sys2Proof.Machine

/-- Both ends of a link see a training end. -/
def Main.trained (m : Main) (d p a pa : Nat) (r : Training) : Main := (m.trainEnd d p r).trainEnd a pa r

section
variable {s : State} {d p : Fin 8} {a pa : Nat} (hp : s.main.hw.part.partnerPort d.val p.val = some (a, pa))
include hp

/-- R328: a link that carries traffic goes down when its clock is lost. -/
theorem does_linkDown_clock (h : s.main.linkState d.val p.val a pa = 2 ∨ s.main.linkState d.val p.val a pa = 3) :
    Does (.linkDown d p true) s (s.main.linkDeclare d.val p.val a pa) := by
  show execLinkDown d p true s = _
  simp only [execLinkDown, State.onMain_eq, hp, h, Bool.true_or, and_self, if_true]

theorem does_linkDown_idle (b : Bool) (h2 : s.main.linkState d.val p.val a pa ≠ 2) (h3 : s.main.linkState d.val p.val a pa ≠ 3) :
    Does (.linkDown d p b) s s.main := by
  show execLinkDown d p b s = _
  simp only [execLinkDown, State.onMain_eq, hp, h2, h3, or_self, false_and, if_false]

/-- R329, R331: with an alternative path each end resends, and the link trains. -/
theorem does_resyncComplete (h : s.main.linkState d.val p.val a pa = 5) (hu : s.main.altUp d.val a = true) :
    Does (.resyncComplete d p) s (((s.main.linkResend d.val p.val a pa).linkResend a pa d.val p.val).linkSet d.val p.val a pa 1) := by
  show execResyncComplete d p s = _
  simp only [execResyncComplete, State.onMain_eq, hp, h, hu, and_self, if_true]

/-- R332: without an alternative path the end gives up what it holds, and the die behind a link that is resyncing counts as lost. -/
theorem does_partnerUnreachable_lost (hu : s.main.altUp d.val a = false) (h : s.main.linkState d.val p.val a pa = 5) :
    Does (.partnerUnreachable d p) s (((s.main.endGivesUp d.val p.val a pa).linkSet d.val p.val a pa 4).raiseSrc 24 0
      (if a = 0 then d.val else a) (if a = 0 then d.val else a)) := by
  show execPartnerUnreachable d p s = _
  simp only [execPartnerUnreachable, State.onMain_eq, hp, h, hu, true_or, not_true_eq_false, Bool.false_eq_true, or_self, if_false, if_true]

/-- The other end of a link that is down does the same with what it still holds. -/
theorem does_partnerUnreachable_second (hu : s.main.altUp d.val a = false) (h : s.main.linkState d.val p.val a pa = 4)
    (hb : (s.main.culvEnd d.val p.val).buf ≠ []) :
    Does (.partnerUnreachable d p) s ((s.main.endGivesUp d.val p.val a pa).linkSet d.val p.val a pa 4) := by
  show execPartnerUnreachable d p s = _
  simp [execPartnerUnreachable, hp, h, hu, hb]

theorem does_partnerUnreachable_idle (h5 : s.main.linkState d.val p.val a pa ≠ 5)
    (h : s.main.linkState d.val p.val a pa ≠ 4 ∨ (s.main.culvEnd d.val p.val).buf = []) : Does (.partnerUnreachable d p) s s.main := by
  have hidle : ¬ (s.main.linkState d.val p.val a pa = 5 ∨ s.main.linkState d.val p.val a pa = 4 ∧ (s.main.culvEnd d.val p.val).buf ≠ []) :=
    fun hbusy => hbusy.elim h5 fun ⟨h4, hb⟩ => h.elim (· h4) hb
  show execPartnerUnreachable d p s = _
  simp only [execPartnerUnreachable, State.onMain_eq, hp, hidle, not_false_eq_true, true_or, if_true]

section
variable (h1 : s.main.linkState d.val p.val a pa = 1)
include h1

theorem does_linkTrainingDone_full :
    Does (.linkTrainingDone d p .full) s ((s.main.trained d.val p.val a pa .full).linkSet d.val p.val a pa 2) := by
  show execLinkTrainingDone d p .full s = _
  simp only [execLinkTrainingDone, State.onMain_eq, hp, h1, ne_eq, not_true_eq_false, if_false, Main.trained]

theorem does_linkTrainingDone_half :
    Does (.linkTrainingDone d p .half) s ((((s.main.trained d.val p.val a pa .half).linkSet d.val p.val a pa 3).linkEvent 22
      d.val p.val a false).linkEvent 22 a pa d.val false) := by
  show execLinkTrainingDone d p .half s = _
  simp only [execLinkTrainingDone, State.onMain_eq, hp, h1, ne_eq, not_true_eq_false, if_false, Main.trained]

/-- R327: a training that fails declares the link down where it is not. -/
theorem does_linkTrainingDone_declares (h : ((s.main.trained d.val p.val a pa .fail).culvEnd d.val p.val).declared = false) :
    Does (.linkTrainingDone d p .fail) s ((s.main.trained d.val p.val a pa .fail).linkDeclare d.val p.val a pa) := by
  unfold Main.trained at h ⊢
  show execLinkTrainingDone d p .fail s = _
  simp only [execLinkTrainingDone, State.onMain_eq, hp, h1, h, ne_eq, not_true_eq_false, Bool.not_false, if_false, if_true]

/-- R331: the third in a row leaves it DOWN. -/
theorem does_linkTrainingDone_down (h : ((s.main.trained d.val p.val a pa .fail).culvEnd d.val p.val).declared = true)
    (h3 : 3 ≤ ((s.main.trained d.val p.val a pa .fail).culvEnd d.val p.val).trains) :
    Does (.linkTrainingDone d p .fail) s ((((s.main.trained d.val p.val a pa .fail).linkSet d.val p.val a pa 4).linkEvent 23
      d.val p.val a true).linkEvent 23 a pa d.val true) := by
  unfold Main.trained at h h3 ⊢
  show execLinkTrainingDone d p .fail s = _
  simp only [execLinkTrainingDone, State.onMain_eq, hp, h1, h, h3, ne_eq, not_true_eq_false, Bool.not_true, Bool.false_eq_true, if_false, if_true]

end

/-- R331, R334: a write of CTL sets the limit of replays, and starts a training where it asks for one. -/
theorem does_culvRetrain (v : Word) (hd : d.val ≤ 5) (hl : s.main.dieLive d.val = true) :
    let n := s.main.set (F.CULV_CTL_REPLIM d.val p.val) (bitsOf v.toNat 8 8)
    (bitsOf v.toNat 0 1 = 1 → n.linkState d.val p.val a pa ∈ [2, 3, 4] → Does (.culvRetrain d p v) s (n.linkTrain d.val p.val a pa)) ∧
    (bitsOf v.toNat 0 1 = 0 → Does (.culvRetrain d p v) s n) := by
  have hexec : execCulvRetrain d p v s = .next { s with main := s.main.culvCtlWrite d.val p.val v.toNat } := by
    simp only [execCulvRetrain, State.onMain_eq, hd, hl, and_self, if_true]
  refine ⟨fun hv hst => hexec.trans ?_, fun hv => hexec.trans ?_⟩
  · simp only [List.mem_cons, List.not_mem_nil, or_false] at hst
    simp only [Main.culvCtlWrite, hp, hv, hst, and_self, if_true]
  · simp only [Main.culvCtlWrite, hp, hv, Nat.zero_ne_one, false_and, if_false]

end

/-- Fields under one key with one reset value read alike. -/
theorem Main.get_congr (m : Main) {f g : Fld} (hk : f.key = g.key) (hr : f.rst = g.rst) : m.get f = m.get g := by
  rw [Main.get, Main.get, hk, hr]

/-- The end of a link that has a CULV block shows the STATE that the link is given, whatever its partner is. -/
theorem Main.linkSet_shows (m : Main) {d : Nat} (p a pa : Nat) {st : Nat} (hd : d ≤ 5) (h : st < 8) :
    (m.linkSet d p a pa st).get (F.CULV_STAT_STATE d p) = st := by
  have hset : ∀ (x : Main) (i j : Nat), (x.set (F.CULV_STAT_STATE i j) st).get (F.CULV_STAT_STATE i j) = st :=
    fun x i j => (x.get_set_same _ st).trans (Nat.mod_eq_of_lt h)
  simp only [Main.linkSet, Main.atEnd, hd, if_true]
  split
  · by_cases hk : (F.CULV_STAT_STATE d p).key = (F.CULV_STAT_STATE a pa).key
    · exact (Main.get_congr _ hk rfl).trans (hset _ a pa)
    · exact (Main.get_set_other _ st hk).trans (hset m d p)
  · exact hset m d p

/-- The check value of the CRC-16 of R324 over the digits 1 to 9 (log 103). -/
theorem flitCrc_check : flitCrc [0x31, 0x32, 0x33, 0x34, 0x35, 0x36, 0x37] 0x3938 = 0x29B1 := by decide +kernel

/-- Settles O43: each command by the lemma for its case. -/
theorem culverts : Obligations.Culverts := by
  unfold Obligations.Culverts
  refine ⟨?good, ?badCrc, ?wrongVc, ?link, ?retrain, ?shows, ?symm, flitCrc_check⟩
  case good =>
    intro s d p f a pa ack hp hne hst e r hrep hbuf hlen hvc hseq hrx n
    have hr : (n.culvEnd d.val p.val).rx = e.seq := (congrArg CulvEnd.rx (s.main.flitSent_other f hne)).trans hrx.symm
    have hgood := does_culvertFlitReceive_good (ack := ack) hp hst (Main.flitSend_new d.val p.val hrep hbuf hlen hvc) hlen hseq hr
    rwa [Main.flitSent_sender_rx] at hgood
  case badCrc =>
    intro s d p f a pa ack w bs hp hst e hrep hbuf hlen hvc n word hcrc
    exact does_culvertFlitReceive_badCrc hp hst (Main.flitSend_new d.val p.val hrep hbuf hlen hvc) hcrc
  case wrongVc => exact fun s d p f w bs ack ht hv => does_culvertFlitReceive_nothing fun a pa => s.main.flitSend_wrongVc a pa _ _ ht hv
  case link =>
    intro s d p a pa hp
    refine ⟨does_linkDown_clock hp, fun h2 h3 b => does_linkDown_idle hp b h2 h3, does_resyncComplete hp, ?training, ?unreachable⟩
    case training =>
      exact fun h1 => ⟨does_linkTrainingDone_full hp h1, does_linkTrainingDone_half hp h1, does_linkTrainingDone_declares hp h1,
        does_linkTrainingDone_down hp h1⟩
    case unreachable =>
      exact fun hu => ⟨does_partnerUnreachable_lost hp hu, does_partnerUnreachable_second hp hu, does_partnerUnreachable_idle hp⟩
  case retrain => exact fun s d p a pa v hp hd hl => does_culvRetrain hp v hd hl
  case shows => exact fun m d p a pa st _ _ hst hd => m.linkSet_shows p a pa hd hst
  case symm => exact fun q d p a pa hd hp h => Part.partnerPort_symm hd hp h

end Sys2Proof.Machine
end

section
/-! SUPPORT. The dredges (R293, R294, R297, R299 to R303, R306, R309): what each command does in each of its cases, and the statement over them. -/

namespace Sys2Proof.Machine

/-! ### What each command does on the main domains -/

section
variable {s : State} {m : Main} {d : Fin 6}

theorem does_dredgeStart (hd : d.val = 0 ∨ (s.main.compute d.val = true ∧ s.main.dieLive d.val = true)) :
    Does (.dredgeStart d) s m ↔ s.main.drStart d.val = m := by
  rw [does_iff (fun m => m.onDredge d.val fun m => m.drStart d.val) rfl, Main.onDredge, if_pos (by simpa only [Bool.and_eq_true] using hd)]

theorem does_dredgeStop {p : DrPart} {stop : Bool} : Does (.dredgeStop d p stop) s m ↔ s.main.drStop d.val (some p) stop = m :=
  does_iff (fun m => m.drStop d.val (some p) stop) rfl

theorem does_dredgeElement {fs : List DrFail} : Does (.dredgeElement d fs) s m ↔ s.main.drElement d.val fs = m :=
  does_iff (fun m => m.drElement d.val fs) rfl

theorem does_dredgeGapExpiry : Does (.dredgeGapExpiry d) s m ↔ s.main.drGap d.val = m := does_iff (fun m => m.drGap d.val) rfl

theorem does_dredgePauseExpiry : Does (.dredgePauseExpiry d) s m ↔ s.main.drPause d.val = m := does_iff (fun m => m.drPause d.val) rfl

theorem does_dredgeYield {fs : List DrFail} : Does (.dredgeYield ⟨d, fs⟩) s m ↔ s.main.drYield d.val fs = m :=
  does_iff (fun m => m.drYield d.val fs) rfl

theorem does_dredgeRepair : Does (.dredgeRepair d) s m ↔ s.main.drRepair d.val = m := does_iff (fun m => m.drRepair d.val) rfl

end

/-! ### Start (R293, R306) -/

/-- What a START clears of the run before (log 100). -/
def Main.drCleared (m : Main) (d : Nat) : Main :=
  ((((m.set (F.DREDGE_STAT_EMPTY d) 0).set (F.DREDGE_STAT_FAILED d) 0).set (F.DREDGE_STAT_REPAIRED d) 0).set (F.DREDGE_STAT_ERR d) 0).set
    (F.DREDGE_STAT_DONE d) 0

/-- The run that the registers of a dredge ask for: a preserving one begins with the copy-aside, a destructive one with its first element. -/
def Main.drAsked (m : Main) (d : Nat) : DredgeSt :=
  { die := d, alg := m.get (F.DREDGE_CTL_ALG d), destr := m.flag (F.DREDGE_CTL_DESTR d), dram := d != 0 && m.flag (F.DREDGE_CTL_DRAM d), boot := false,
    bank := m.get (F.DREDGE_RANGE_BANK d), first := m.get (F.DREDGE_RANGE_FIRST d), count := m.get (F.DREDGE_RANGE_COUNT d),
    phase := if m.flag (F.DREDGE_CTL_DESTR d) then .elem 0 else .copy, cur := 0, tries := 0, next := 1, again := [], ending := none, repair := [] }

theorem Main.drStart_busy {m : Main} {d : Nat} (h : m.get (F.DREDGE_STAT_STATE d) = 1 ∨ m.get (F.DREDGE_STAT_STATE d) = 2) : m.drStart d = m := if_pos h

section
variable {m : Main} {d : Nat} (h1 : m.get (F.DREDGE_STAT_STATE d) ≠ 1) (h2 : m.get (F.DREDGE_STAT_STATE d) ≠ 2)
include h1 h2

theorem Main.drStart_idle : m.drStart d =
    if (m.drCleared d).get (F.DREDGE_RANGE_COUNT d) = 0 then ((m.drCleared d).set (F.DREDGE_STAT_EMPTY d) 1).drEnd d 0
    else if (m.drCleared d).drCheck d ≠ 0 then (m.drCleared d).drEnd d ((m.drCleared d).drCheck d)
    else (((m.drCleared d).putDr ((m.drCleared d).drAsked d)).set (F.DREDGE_STAT_STATE d) 1).set (F.DREDGE_CTL_START d) 1 :=
  if_neg (not_or.mpr ⟨h1, h2⟩)

theorem Main.drStart_empty (hc : (m.drCleared d).get (F.DREDGE_RANGE_COUNT d) = 0) :
    m.drStart d = ((m.drCleared d).set (F.DREDGE_STAT_EMPTY d) 1).drEnd d 0 := by rw [Main.drStart_idle h1 h2, if_pos hc]

section
variable (hc : (m.drCleared d).get (F.DREDGE_RANGE_COUNT d) ≠ 0)
include hc

theorem Main.drStart_forbidden (he : (m.drCleared d).drCheck d ≠ 0) : m.drStart d = (m.drCleared d).drEnd d ((m.drCleared d).drCheck d) := by
  rw [Main.drStart_idle h1 h2, if_neg hc, if_pos he]

theorem Main.drStart_begins (he : (m.drCleared d).drCheck d = 0) :
    m.drStart d = (((m.drCleared d).putDr ((m.drCleared d).drAsked d)).set (F.DREDGE_STAT_STATE d) 1).set (F.DREDGE_CTL_START d) 1 := by
  rw [Main.drStart_idle h1 h2, if_neg hc, if_neg (not_not_intro he)]

end
end

/-! ### The course of a run (R294, R297, R299, R300, R302) -/

theorem Main.drKeep_eq (m : Main) (x : DredgeSt) (k : Nat) {cut : Bool} (h : cut = decide (x.ending = some 4 ∧ k < drElems x.alg)) :
    m.drKeep x k = m.putDr { x with phase := if cut = true ∨ drElems x.alg ≤ k then .restore else .elem k, cut := cut } := by
  have hcut : (x.ending == some 4 && decide (k < drElems x.alg)) = cut := by
    rw [h, Bool.eq_iff_iff]
    simp only [Bool.and_eq_true, beq_iff_eq, decide_eq_true_eq]
  simp only [Main.drKeep, hcut, Bool.or_eq_true, decide_eq_true_eq]

/-- With no bank to repair a run goes on with what it was. -/
theorem Main.drTriage_none (m : Main) {x : DredgeSt} (h : x.repair = []) : m.drTriage x [] = (x, m) := by
  rw [Main.drTriage, ← h]

theorem Main.drFailures_unread (m : Main) (x : DredgeSt) {k : Nat} {fs : List DrFail} (h : ∀ f ∈ fs, drReads x.alg k f.op.toNat = false) :
    m.drFailures x k fs = (x, m) := by
  have hnone : fs.filter (fun f => drReads x.alg k f.op.toNat) = [] := List.filter_eq_nil_iff.mpr fun f hf => by simp [h f hf]
  rw [Main.drFailures, hnone, List.foldl_nil]

theorem Main.drDestr_next (m : Main) {x : DredgeSt} {k : Nat} (hr : x.repair = []) (ha : x.alg ≠ 2) (hk : k + 1 < drElems x.alg) :
    m.drDestr x k = m.putDr { x with phase := .elem (k + 1) } := by
  simp [Main.drDestr, m.drTriage_none hr, hr, ha, Nat.not_le.mpr hk]

section
variable (m : Main) {x : DredgeSt} (he : x.ending = none) (hr : x.repair = [])
include he hr

theorem Main.drMoveOn_goes (p : Option (Nat × Nat)) : m.drMoveOn x p = m.drNext x p := by
  simp only [Main.drMoveOn, he, m.drTriage_none hr, hr, ne_eq, not_true_eq_false, if_false]

section
variable (ha : x.again = [])
include ha

/-- With no abandoned strip left, the next one is fresh. -/
theorem Main.drMoveOn_fresh (h : x.next < x.count) : m.drMoveOn x none = m.putDr { x with cur := x.next, tries := 0, next := x.next + 1, phase :=
    (if m.get (F.DREDGE_CTL_GAP x.die) = 0 then .copy else .gap (m.now + m.get (F.DREDGE_CTL_GAP x.die) * 1000)) } := by
  simp only [m.drMoveOn_goes he hr, Main.drNext, ha, h, if_true]

theorem Main.drMoveOn_done (h : x.count ≤ x.next) : m.drMoveOn x none = m.drEnd x.die 0 := by
  simp only [m.drMoveOn_goes he hr, Main.drNext, ha, Nat.not_lt.mpr h, if_false]

end
end

section
variable {m : Main} {d : Nat} {x : DredgeSt} (hx : m.dredges.find? (fun y => y.die == d) = some x)
include hx

/-! ### An element, the gap and the pause (R294, R297, R301) -/

section
variable (hst : m.get (F.DREDGE_STAT_STATE d) = 1)
include hst

theorem Main.drElement_copied (fs : List DrFail) (hp : x.phase = .copy) : m.drElement d fs = m.drKeep x 0 := by
  simp only [Main.drElement, hx, hst, hp, ne_eq, not_true_eq_false, if_false]

theorem Main.drElement_restored (fs : List DrFail) (hp : x.phase = .restore) : m.drElement d fs =
    (m.set (F.DREDGE_STAT_DONE d) (m.get (F.DREDGE_STAT_DONE d) + b2n (!x.cut))).drMoveOn { x with tries := 0, cut := false } none := by
  simp only [Main.drElement, hx, hst, hp, ne_eq, not_true_eq_false, if_false]

section
variable {k : Nat} (hp : x.phase = .elem k)
include hp

theorem Main.drElement_preserving (fs : List DrFail) (hd : x.destr = false) :
    m.drElement d fs = (m.drFailures x k fs).2.drKeep (m.drFailures x k fs).1 (k + 1) := by
  simp only [Main.drElement, hx, hst, hp, hd, ne_eq, not_true_eq_false, Bool.false_and, Bool.false_eq_true, if_false]

theorem Main.drElement_destructive (fs : List DrFail) (hd : x.destr = true) (he : x.ending = none) :
    m.drElement d fs = (m.drFailures x k fs).2.drDestr (m.drFailures x k fs).1 k := by
  simp only [Main.drElement, hx, hst, hp, hd, he, ne_eq, not_true_eq_false, Option.isSome_none, Bool.and_false, Bool.false_eq_true, if_false, if_true]

/-- A destructive run that is to end completes no further element. -/
theorem Main.drElement_ending (fs : List DrFail) (hd : x.destr = true) (he : x.ending.isSome = true) : m.drElement d fs = m := by
  simp only [Main.drElement, hx, hst, hp, hd, he, ne_eq, not_true_eq_false, Bool.and_self, if_false, if_true]

end
end

theorem Main.drGap_ending {t e : Nat} (hp : x.phase = .gap t) (he : x.ending = some e) : m.drGap d = m.drEnd d e := by
  simp only [Main.drGap, hx, hp, he]

theorem Main.drGap_running {t : Nat} (hp : x.phase = .gap t) (he : x.ending = none) :
    m.drGap d = if m.now < t then m else m.putDr { x with phase := .copy } := by
  simp only [Main.drGap, hx, hp, he]

theorem Main.drPause_ending {k t e : Nat} (hk : k ≠ 0) (hp : x.phase = .pause k t) (he : x.ending = some e) :
    m.drPause d = (m.drLeave x (k - 1) (2 ^ 30)).drEnd d e := by
  simp only [Main.drPause, Main.drWhole, hx, hp, he, hk, if_false]

theorem Main.drPause_running {k t : Nat} (hp : x.phase = .pause k t) (he : x.ending = none) :
    m.drPause d = if m.now < t then m else m.putDr { x with phase := .elem k } := by
  simp only [Main.drPause, hx, hp, he]

/-! ### Yields and repairs (R300, R303) -/

/-- A strip of an URGENT bank that is accessed under test is abandoned, and after eight times in a row skipped. -/
theorem Main.drYield_abandons (fs : List DrFail) (hds : x.destr = false) (hdr : x.dram = false) (hd : d ≠ 0) (hb : x.bank < 64)
    (hp : x.phase = .copy ∨ ∃ k, x.phase = .elem k) (hst : m.get (F.DREDGE_STAT_STATE d) = 1) (hu : m.flag (F.BANK_CFG_URGENT d x.bank) = true) :
    let r := (m.bump (F.DREDGE_STAT_YIELDS d)).drPartial x fs
    m.drYield d fs = if r.1.tries + 1 = 8 then (r.2.bump (F.DREDGE_STAT_SKIPPED d)).drMoveOn { r.1 with tries := 0 } none
      else r.2.drMoveOn r.1 (some (r.1.cur, r.1.tries + 1)) := by
  rcases hp with hp | ⟨k, hp⟩ <;> simp [Main.drYield, hx, hds, hdr, hd, Nat.not_le.mpr hb, hp, hst, hu]

theorem Main.drRepair_last {b sp : Nat} (hst : m.get (F.DREDGE_STAT_STATE d) = 2) (hr : x.repair = [b]) (hsp : m.freeSpare d = some sp)
    (hds : x.destr = false) :
    m.drRepair d = ((m.repairBank d b sp).set (F.DREDGE_STAT_STATE d) 1).drMoveOn { x with repair := [], tries := 0, later := none } x.later := by
  simp only [Main.drRepair, hx, hst, hr, hsp, hds, Main.drTriage, ne_eq, not_true_eq_false, if_false, Bool.not_false, if_true]

/-! ### Stop (R301, R306) -/

section
variable (he : x.ending = none)
include he

/-- Without a STOP, a run of which no end has been asked for goes on. -/
theorem Main.drStop_unasked (p : DrPart) : m.drStop d (some p) false = m := by
  simp only [Main.drStop, hx, he, Bool.false_eq_true, if_false]

theorem Main.drStop_repairing (p : DrPart) (hst : m.get (F.DREDGE_STAT_STATE d) = 2) :
    m.drStop d (some p) true = m.putDr { x with ending := some 7 } := by
  simp only [Main.drStop, hx, he, hst, if_true, Option.getD_none]

section
variable (hst : m.get (F.DREDGE_STAT_STATE d) ≠ 2)
include hst

theorem Main.drStop_gap (p : DrPart) {t : Nat} (hp : x.phase = .gap t) : m.drStop d (some p) true = m.drEnd d 7 := by
  simp only [Main.drStop, hx, he, hst, hp, if_true, if_false, Option.getD_none]

/-- A strip under test is tested to its end and restored. -/
theorem Main.drStop_preserving (p : DrPart) (hds : x.destr = false) (hp : x.phase = .copy ∨ x.phase = .restore ∨ ∃ k, x.phase = .elem k) :
    m.drStop d (some p) true = m.putDr { x with ending := some 7 } := by
  rcases hp with hp | hp | ⟨k, hp⟩ <;>
    simp only [Main.drStop, hx, he, hst, hp, hds, if_true, if_false, Option.getD_none, Bool.false_eq_true]

theorem Main.drStop_destructive (p : DrPart) {k : Nat} (hds : x.destr = true) (hp : x.phase = .elem k) :
    m.drStop d (some p) true =
      ((m.drFailures { x with ending := some 7 } k p.fs).2.drLeave { x with ending := some 7 } k p.lines).drEnd d 7 := by
  simp only [Main.drStop, hx, he, hst, hp, hds, if_true, if_false, Option.getD_none]

end
end
end

/-! ### The end of a run (R306, R308) -/

@[simp] theorem Main.drNote_dredges (m : Main) (d : Nat) : (m.drNote d).dredges = m.dredges := by
  unfold Main.drNote
  split
  · rfl
  · exact m.send_dredges _

theorem Main.drEnd_dredges {m : Main} {d : Nat} (err : Nat) (h : m.dredges.any (fun x => x.die == d && x.boot) = false) :
    (m.drEnd d err).dredges = m.dredges.filter (fun x => x.die != d) := by
  simp only [Main.drEnd, h, Bool.false_and, Bool.false_eq_true, if_false, Main.drNote_dredges, Main.set_dredges]
  split <;> rfl

/-! ### The statement -/

/-- Settles O45: each command by the lemma for its case. -/
theorem dredges : Obligations.Dredges := by
  unfold Obligations.Dredges
  refine ⟨?start, ?element, fun m x k => m.drKeep_eq x k rfl, ?destructive, ?destrNext, fun m x k fs h => m.drFailures_unread x h, ?moveOn, ?expiry,
    ?yield, ?inPart, ?repair, ?stop, ?ended⟩
  case start =>
    intro s d hd
    exact ⟨fun h => (does_dredgeStart hd).mpr (Main.drStart_busy h), fun h1 h2 hc => (does_dredgeStart hd).mpr (Main.drStart_empty h1 h2 hc),
      fun h1 h2 hc he => (does_dredgeStart hd).mpr (Main.drStart_forbidden h1 h2 hc he),
      fun h1 h2 hc he => (does_dredgeStart hd).mpr (Main.drStart_begins h1 h2 hc he)⟩
  case element =>
    intro s d x fs hx hst hds
    exact ⟨fun hp => does_dredgeElement.mpr (Main.drElement_copied hx hst fs hp),
      fun k hp => does_dredgeElement.mpr (Main.drElement_preserving hx hst hp fs hds),
      fun hp => does_dredgeElement.mpr (Main.drElement_restored hx hst fs hp)⟩
  case destructive =>
    intro s d x fs k hx hst hds hp
    exact ⟨fun he => does_dredgeElement.mpr (Main.drElement_ending hx hst hp fs hds he),
      fun he => does_dredgeElement.mpr (Main.drElement_destructive hx hst hp fs hds he)⟩
  case destrNext =>
    intro m x k hr ha hk
    rw [m.drDestr_next hr ha hk, hr]
  case moveOn =>
    intro m x he hr ha
    refine ⟨fun h hg => ?_, fun h hg => ?_, m.drMoveOn_done he hr ha⟩
    · rw [m.drMoveOn_fresh he hr ha h, if_pos hg]
    · rw [m.drMoveOn_fresh he hr ha h, if_neg hg]
  case expiry =>
    intro s d x t hx
    refine ⟨fun e he hp => does_dredgeGapExpiry.mpr (Main.drGap_ending hx hp he),
      fun e k hk he hp => does_dredgePauseExpiry.mpr (Main.drPause_ending hx hk hp he),
      fun he hp ht => does_dredgeGapExpiry.mpr ?_, fun he hp ht => does_dredgeGapExpiry.mpr ?_,
      fun k he hp ht => does_dredgePauseExpiry.mpr ?_, fun k he hp ht => does_dredgePauseExpiry.mpr ?_⟩
    · rw [Main.drGap_running hx hp he, if_neg (Nat.not_lt.mpr ht)]
    · rw [Main.drGap_running hx hp he, if_pos ht]
    · rw [Main.drPause_running hx hp he, if_neg (Nat.not_lt.mpr ht)]
    · rw [Main.drPause_running hx hp he, if_pos ht]
  case yield =>
    intro s d x fs hx hds hdr hd hb hp hst hu r
    have habandon := Main.drYield_abandons hx fs hds hdr hd hb hp hst hu
    exact ⟨fun h => does_dredgeYield.mpr (habandon.trans (if_neg (Nat.ne_of_lt h))), fun h => does_dredgeYield.mpr (habandon.trans (if_pos h))⟩
  case inPart =>
    intro m x fs
    exact ⟨fun hp => by rw [Main.drPartial, hp], fun k hp => by rw [Main.drPartial, hp]⟩
  case repair => exact fun s d x b sp hx hst hr hsp hds => does_dredgeRepair.mpr (Main.drRepair_last hx hst hr hsp hds)
  case stop =>
    intro s d x p hx he
    refine ⟨fun hst => ⟨fun hds hp => ?_, fun t hp => ?_, fun k hds hp => ?_⟩, fun hst => ?_, does_dredgeStop.mpr (Main.drStop_unasked hx he p)⟩
    · exact does_dredgeStop.mpr (Main.drStop_preserving hx he hst p hds hp)
    · exact does_dredgeStop.mpr (Main.drStop_gap hx he hst p hp)
    · exact does_dredgeStop.mpr (Main.drStop_destructive hx he hst p hds hp)
    · exact does_dredgeStop.mpr (Main.drStop_repairing hx he p hst)
  case ended =>
    intro m d err h
    rw [Main.drEnd_dredges err h, List.any_filter]
    simp

end Sys2Proof.Machine
end

section
/-! SUPPORT. The unit state table (R312, R365 to R367): what a write of one bit leaves of the other bits of its register, what each command does,
and the statement over them. -/

namespace Sys2Proof.Machine

/-! ### A bit set or cleared by arithmetic -/

theorem testBit_add_two_pow_other {b : Nat} : ∀ {w c : Nat}, w.testBit b = false → c ≠ b → (w + 2 ^ b).testBit c = w.testBit c := by
  induction b with
  | zero =>
    intro w c hw hc
    obtain ⟨c, rfl⟩ := Nat.exists_eq_succ_of_ne_zero hc
    have heven : w % 2 = 0 := by simpa using hw
    rw [Nat.testBit_succ, Nat.testBit_succ, show (w + 2 ^ 0) / 2 = w / 2 by omega]
  | succ b ih =>
    intro w c hw hc
    cases c with
    | zero => rw [Nat.testBit_zero, Nat.testBit_zero, show (w + 2 ^ (b + 1)) % 2 = w % 2 by omega]
    | succ c =>
      rw [Nat.testBit_succ, Nat.testBit_succ, show (w + 2 ^ (b + 1)) / 2 = w / 2 + 2 ^ b by omega]
      exact ih (by rwa [← Nat.testBit_succ]) (fun h => hc (congrArg Nat.succ h))

theorem testBit_sub_two_pow_other {w b c : Nat} (hw : w.testBit b = true) (hc : c ≠ b) : (w - 2 ^ b).testBit c = w.testBit c := by
  obtain ⟨x, rfl⟩ := Nat.exists_eq_add_of_le (Nat.ge_two_pow_of_testBit hw)
  rw [Nat.testBit_two_pow_add_eq, Bool.not_eq_true'] at hw
  rw [Nat.add_sub_cancel_left, Nat.add_comm, testBit_add_two_pow_other hw hc]

/-! ### The registers of the table (R365, R370) -/

/-- The field of a register of the table. -/
def UstReg.word (r : UstReg) : Fld :=
  match r with
  | .run d k => F.UST_RUN_EN d.val k.val
  | .flume d => F.UST_FLUME_EN d.val
  | .out k => F.UST_OUT_EN k.val
  | .sluice k => F.UST_SLUICE_EN k.val
  | .unit k => F.UST_UNIT_EN k.val

theorem UstReg.word_w (r : UstReg) : r.word.w = 64 := by cases r <;> rfl

/-- The registers of enables lie below UST_STAT. -/
theorem UstReg.word_key_lt (r : UstReg) : r.word.key < F.UST_STAT_BUSY.key := by
  cases r <;> simp only [UstReg.word, Fld.key, F.UST_RUN_EN, F.UST_FLUME_EN, F.UST_OUT_EN, F.UST_SLUICE_EN, F.UST_UNIT_EN, F.UST_STAT_BUSY] <;> omega

/-- A unit's enable lies in the register that names the unit, at the bit that stands for it. -/
theorem UstReg.place_of_unit_ {r : UstReg} {b : Nat} {u : UnitId} (hb : b < 64) (h : r.unit_ b = some u) : u.place = (r.word, b) := by
  have hword : ∀ k, (64 * k + b) / 64 = k := by omega
  have hbit : ∀ k, (64 * k + b) % 64 = b := by omega
  cases r with
  | run d k =>
    have hu : u = .runnel d.val (64 * k.val + b) := by
      by_cases hd : d.val = 0 <;> simp_all [UstReg.unit_]
    simp [hu, UnitId.place, UstReg.word, hword, hbit]
  | flume d =>
    obtain ⟨-, hu⟩ := Option.ite_none_right_eq_some.1 h
    simp [← Option.some.inj hu, UnitId.place, UstReg.word]
  | out k =>
    obtain ⟨-, hu⟩ := Option.ite_none_right_eq_some.1 h
    simp [← Option.some.inj hu, UnitId.place, UstReg.word, hword, hbit]
  | sluice k => simp [← Option.some.inj h, UnitId.place, UstReg.word, hword, hbit]
  | unit k =>
    obtain ⟨-, hu⟩ := Option.ite_none_right_eq_some.1 h
    simp [← Option.some.inj hu, UnitId.place, UstReg.word, hword, hbit]

/-! ### One bit of a write (R365) -/

theorem Main.ustOn_testBit (m : Main) {u : UnitId} {f : Fld} {b : Nat} (hu : u.place = (f, b)) : m.ustOn u = (m.get f).testBit b := by
  rw [Main.ustOn, hu, bitsOf_one]
  cases (m.get f).testBit b <;> rfl

theorem Main.ustBit_same {m : Main} {u : UnitId} {on : Bool} (h : m.ustOn u = on) : m.ustBit u on = m := if_pos (.inl (beq_iff_eq.2 h))

theorem Main.ustBit_absent {m : Main} {u : UnitId} (on : Bool) (h : m.pop u.die = false) : m.ustBit u on = m := if_pos (.inr h)

section
variable {m : Main} {u : UnitId} {on : Bool} (hon : m.ustOn u ≠ on) (hp : m.pop u.die = true)
include hon hp

theorem Main.ustBit_refused (h : on = true ∧ m.enableOk u = false) : m.ustBit u on = m.enableRefused u := by
  obtain ⟨rfl, hok⟩ := h
  simp [Main.ustBit, hon, hp, hok]

theorem Main.ustBit_accepted (h : on = true → m.enableOk u = true) :
    m.ustBit u on = { (m.ustPut u on).set F.UST_STAT_BUSY 1 with ust := { m.ust with changes := m.ust.changes ++ [(u, on)] } } := by
  cases on with
  | false => simp [Main.ustBit, hon, hp]
  | true => simp [Main.ustBit, hon, hp, h rfl]

end

/-- Clearing or setting a unit's bit keeps the other bits of its word. -/
theorem Main.ustPut_testBit_other (m : Main) {u : UnitId} {f : Fld} {b c : Nat} (on : Bool) (hu : u.place = (f, b)) (hc : c < f.w) (hcb : c ≠ b) :
    ((m.ustPut u on).get f).testBit c = (m.get f).testBit c := by
  simp only [Main.ustPut, hu, beq_iff_eq, m.ustOn_testBit hu]
  by_cases hon : (m.get f).testBit b = on
  · rw [if_pos hon]
  · rw [if_neg hon, Main.get_set_same, Nat.testBit_mod_two_pow, decide_eq_true hc, Bool.true_and]
    cases on with
    | true => exact testBit_add_two_pow_other (Bool.eq_false_iff.2 hon) hcb
    | false => exact testBit_sub_two_pow_other ((Bool.not_eq_false _).mp hon) hcb

/-- The refusal of an enable is recorded outside the registers of enables. -/
theorem Main.enableRefused_get_word (m : Main) (u : UnitId) (r : UstReg) : (m.enableRefused u).get r.word = m.get r.word := by
  have hlt := r.word_key_lt
  cases u with
  | runnel d i =>
    refine m.get_set_other 1 (Nat.ne_of_lt (Nat.lt_of_lt_of_le hlt ?_))
    simp only [Fld.key, F.UST_STAT_BUSY, F.RUNNEL_STAT_CFGERR]
    split <;> omega
  | iface n =>
    refine m.get_set_other 1 (Nat.ne_of_lt (Nat.lt_of_lt_of_le hlt ?_))
    simp only [Fld.key, F.UST_STAT_BUSY, F.UST_BIND_ERR]
    omega
  | flume d i => rfl
  | channel n => rfl
  | sluice n => rfl

/-- A write of one bit keeps the enables that the other bits of its register stand for. -/
theorem Main.ustBit_ustOn_other (m : Main) {r : UstReg} {u w : UnitId} {b c : Nat} (on : Bool) (hb : b < 64) (hc : c < 64) (hcb : c ≠ b)
    (hu : r.unit_ b = some u) (hw : r.unit_ c = some w) : (m.ustBit u on).ustOn w = m.ustOn w := by
  have hplace := UstReg.place_of_unit_ hc hw
  rw [Main.ustOn_testBit _ hplace, Main.ustOn_testBit _ hplace]
  by_cases hon : m.ustOn u = on
  · rw [Main.ustBit_same hon]
  cases hp : m.pop u.die with
  | false => rw [Main.ustBit_absent on hp]
  | true =>
    by_cases hok : on = true → m.enableOk u = true
    · rw [Main.ustBit_accepted hon hp hok]
      calc (((m.ustPut u on).set F.UST_STAT_BUSY 1).get r.word).testBit c
          = ((m.ustPut u on).get r.word).testBit c := by rw [Main.get_set_other _ _ (Nat.ne_of_lt r.word_key_lt)]
        _ = (m.get r.word).testBit c := m.ustPut_testBit_other on (UstReg.place_of_unit_ hb hu) (r.word_w ▸ hc) hcb
    · rw [Main.ustBit_refused hon hp (by simpa using hok), m.enableRefused_get_word]

/-! ### A write of a register (R365) -/

/-- What a UST write does for one bit of its word. -/
def Main.ustWriteBit (r : UstReg) (v : Nat) (m : Main) (b : Nat) : Main :=
  match r.unit_ b with
  | some u => m.ustBit u (bitsOf v b 1 == 1)
  | none => m

theorem Main.ustWrite_eq (m : Main) (r : UstReg) (v : Nat) : m.ustWrite r v = (List.range 64).foldl (Main.ustWriteBit r v) m := rfl

/-- A bit of the word asks for no change in m. -/
def Main.ustAgrees (m : Main) (r : UstReg) (v b : Nat) : Prop := ∀ u, r.unit_ b = some u → m.ustOn u = (bitsOf v b 1 == 1)

theorem Main.ustWriteBit_agrees {m : Main} {r : UstReg} {v b : Nat} (h : m.ustAgrees r v b) : m.ustWriteBit r v b = m := by
  unfold Main.ustWriteBit
  split
  · next u hu => exact Main.ustBit_same (h u hu)
  · rfl

theorem Main.ustWriteBit_unit {r : UstReg} {b : Nat} {u : UnitId} (m : Main) (v : Nat) (hu : r.unit_ b = some u) :
    m.ustWriteBit r v b = m.ustBit u (bitsOf v b 1 == 1) := by rw [Main.ustWriteBit, hu]

/-- Bits that ask for no change leave everything as it is. -/
theorem Main.foldl_ustWriteBit_agrees {m : Main} {r : UstReg} {v : Nat} {bs : List Nat} (h : ∀ b ∈ bs, m.ustAgrees r v b) :
    bs.foldl (Main.ustWriteBit r v) m = m := by
  induction bs with
  | nil => rfl
  | cons b bs ih =>
    rw [List.foldl_cons, Main.ustWriteBit_agrees (h b List.mem_cons_self)]
    exact ih fun c hc => h c (List.mem_cons_of_mem b hc)

/-- A word in which one bit alone may differ: its write is the write of that bit. -/
theorem Main.ustWrite_one {m : Main} {r : UstReg} {v b : Nat} {u : UnitId} (hb : b < 64) (hu : r.unit_ b = some u)
    (h : ∀ c, c < 64 → c ≠ b → m.ustAgrees r v c) : m.ustWrite r v = m.ustBit u (bitsOf v b 1 == 1) := by
  obtain ⟨lo, hi, hrange⟩ := List.append_of_mem (List.mem_range.2 hb)
  have hnodup : b ∉ lo ++ hi := (List.nodup_cons.1 (List.perm_middle.nodup_iff.1 (hrange ▸ List.nodup_range))).1
  have hrest : ∀ c ∈ lo ++ hi, c < 64 ∧ c ≠ b := by
    intro c hc
    refine ⟨List.mem_range.1 (hrange ▸ ?_), fun heq => hnodup (heq ▸ hc)⟩
    exact ((List.sublist_cons_self b hi).append_left lo).subset hc
  have hlo : ∀ c ∈ lo, m.ustAgrees r v c := by
    intro c hc
    obtain ⟨hc64, hcb⟩ := hrest c (List.mem_append_left hi hc)
    exact h c hc64 hcb
  have hhi : ∀ c ∈ hi, (m.ustBit u (bitsOf v b 1 == 1)).ustAgrees r v c := by
    intro c hc w hw
    obtain ⟨hc64, hcb⟩ := hrest c (List.mem_append_right lo hc)
    rw [m.ustBit_ustOn_other _ hb hc64 hcb hu hw, h c hc64 hcb w hw]
  rw [Main.ustWrite_eq, hrange, List.foldl_append, List.foldl_cons, Main.foldl_ustWriteBit_agrees hlo, m.ustWriteBit_unit v hu,
    Main.foldl_ustWriteBit_agrees hhi]

theorem Main.ustWrite_none {m : Main} {r : UstReg} {v : Nat} (h : ∀ b, b < 64 → m.ustAgrees r v b) : m.ustWrite r v = m :=
  Main.foldl_ustWriteBit_agrees fun b hb => h b (List.mem_range.1 hb)

/-! ### What a unit does with a change (R366) -/

theorem Main.unitOn_live {m : Main} {u : UnitId} (h : m.live u = true) : m.unitOn u = m := if_pos h

theorem Main.unitOn_dead {m : Main} {u : UnitId} (h : m.live u = false) : m.unitOn u = { m with ust := { m.ust with live := m.ust.live ++ [u] } } :=
  if_neg (Bool.eq_false_iff.1 h)

theorem Main.unitApply_on (m : Main) (u : UnitId) : m.unitApply (u, true) = m.unitOn u := rfl

theorem Main.unitApply_off (m : Main) (u : UnitId) : m.unitApply (u, false) = if m.live u = true then m.unitOff u else m := rfl

/-! ### The scrub (R367) -/

/-- The units that a scrub pass forces: those whose own enable differs from the table and for which no change is on its way. -/
def Main.ustBad (m : Main) : List UnitId :=
  (m.ustUnits.filter (fun u => !m.live u) ++ m.ust.live.filter (fun u => !m.ustUnits.contains u)).filter
    (fun u => !m.ust.changes.any (fun c => c.1 == u))

theorem Main.ustScrub_eq (m : Main) : m.ustScrub = (m.ustBad.foldl Main.ustForce m).bump F.UST_STAT_PASSES := rfl

theorem Main.ustBad_agrees {m : Main} (hon : ∀ u ∈ m.ustUnits, m.live u = true) (hlive : ∀ u ∈ m.ust.live, u ∈ m.ustUnits) : m.ustBad = [] := by
  have h1 : m.ustUnits.filter (fun u => !m.live u) = [] := List.filter_eq_nil_iff.2 fun u hu => by simp [hon u hu]
  have h2 : m.ust.live.filter (fun u => !m.ustUnits.contains u) = [] := List.filter_eq_nil_iff.2 fun u hu => by simp [hlive u hu]
  rw [Main.ustBad, h1, h2]
  rfl

theorem Main.ustBad_unlisted {m : Main} {u : UnitId} (hunits : m.ustUnits = []) (hlive : m.ust.live = [u]) (hc : m.ust.changes = []) :
    m.ustBad = [u] := by
  simp [Main.ustBad, hunits, hlive, hc]

/-! ### The check of a runnel's enable (R312, R313) -/

/-- A runnel that may be enabled has a capacity, lies in the word store, has at most one unit as an endpoint and overlaps no enabled runnel. -/
theorem Main.rnEnableOk_sound {m : Main} {d i : Nat} (h : m.rnEnableOk d i = true) :
    m.rnCap d i ≠ 0 ∧ m.rnBase d i + m.rnCap d i ≤ rnStore d ∧ ¬ ((m.rnProd d i).1 = 1 ∧ (m.rnCons d i).1 = 1) ∧
    (∀ j ∈ m.ustRuns d, j ≠ i → m.rnBase d i + m.rnCap d i ≤ m.rnBase d j ∨ m.rnBase d j + m.rnCap d j ≤ m.rnBase d i) := by
  simp only [Main.rnEnableOk, Bool.and_eq_true, List.all_eq_true, Bool.or_eq_true, decide_eq_true_eq, bne_iff_ne, beq_iff_eq,
    Bool.not_eq_true', Bool.and_eq_false_iff, beq_eq_false_iff_ne] at h
  obtain ⟨⟨⟨⟨⟨⟨⟨hcap, hstore⟩, -⟩, hover⟩, -⟩, -⟩, hends⟩, -⟩ := h
  exact ⟨hcap, hstore, fun ⟨hprod, hcons⟩ => hends.elim (· hprod) (· hcons), fun j hj hji => (hover j hj).resolve_left hji⟩

/-! ### The statement -/

section
variable {s : State} {m : Main}

theorem does_ustWrite {r : UstReg} {v : Word} : Does (.ustWrite r v) s m ↔ s.main.ustWrite r v.toNat = m := does_iff (fun m => m.ustWrite r v.toNat) rfl

theorem does_ustApplyDone : Does .ustApplyDone s m ↔ s.main.ustApply = m := does_iff Main.ustApply rfl

theorem does_ustScrub : Does .ustScrub s m ↔ s.main.ustScrub = m := does_iff Main.ustScrub rfl

end

/-- Settles O42: a write through its one differing bit, the changes and the scrub by the lemmas for their cases. -/
theorem unitStateTable : Obligations.UnitStateTable := by
  unfold Obligations.UnitStateTable
  refine ⟨fun s r v h => does_ustWrite.mpr (Main.ustWrite_none h), fun s r v b u hb hu h => does_ustWrite.mpr (Main.ustWrite_one hb hu h), ?bit,
    fun s => does_ustApplyDone.mpr rfl, ?apply, ?agrees, ?forced, fun m d i h => Main.rnEnableOk_sound h⟩
  case bit =>
    intro m u hp go
    refine ⟨fun hoff hok => ?_, fun hon => ?_, fun hoff hok => ?_⟩
    · exact Main.ustBit_accepted (by simp [hoff]) hp fun _ => hok
    · exact Main.ustBit_accepted (by simp [hon]) hp (by simp)
    · exact Main.ustBit_refused (by simp [hoff]) hp ⟨rfl, hok⟩
  case apply =>
    intro m u
    refine ⟨fun h => ?_, fun h => ?_, fun h => ?_, fun h => ?_⟩
    · rw [Main.unitApply_on, Main.unitOn_dead h]
    · rw [Main.unitApply_on, Main.unitOn_live h]
    · rw [Main.unitApply_off, h, if_neg Bool.false_ne_true]
    · rw [Main.unitApply_off, if_pos h]
  case agrees =>
    intro s hon hlive
    rw [does_ustScrub, Main.ustScrub_eq, Main.ustBad_agrees hon hlive, List.foldl_nil]
  case forced =>
    intro s u hunits hlive hc
    rw [does_ustScrub, Main.ustScrub_eq, Main.ustBad_unlisted hunits hlive hc, List.foldl_cons, List.foldl_nil]

end Sys2Proof.Machine
end
